-- ==== Sys2Proof/Word.lean ====
section
/-! DEFINITION. The words of the machine: a 64-bit register word and a byte (spec/00_scope.md R3). -/

namespace Sys2Proof

/-- A 64-bit register or doubleword. -/
abbrev Word := BitVec 64

/-- A byte of memory. -/
abbrev Byte := BitVec 8

end Sys2Proof
end

