-- ==== Sys2Proof/Machine/Flags.lean ====
section
/-! DEFINITION. Integer results, floating-point formats, the one rounding, special values and the flags
(spec/04_formats.md R79-R97). Values are computed exactly as naturals and integers and narrowed once. -/

namespace Sys2Proof
namespace Machine

/-! ### Integers (R79, R80) -/

/-- A w-bit pattern read as signed. -/
def sx (w v : Nat) : Int := if v % 2 ^ w < 2 ^ (w - 1) then ((v % 2 ^ w : Nat) : Int) else (v % 2 ^ w : Nat) - (2 ^ w : Nat)
/-- An integer modulo 2^w. -/
def wrapI (w : Nat) (v : Int) : Nat := (v % ((2 ^ w : Nat) : Int)).toNat
/-- A w-bit pattern read by a signedness. -/
def valOf (signed : Bool) (w v : Nat) : Int := if signed then sx w v else ((v % 2 ^ w : Nat) : Int)
/-- The range of an integer type. -/
def loOf (signed : Bool) (w : Nat) : Int := if signed then -((2 ^ (w - 1) : Nat) : Int) else 0
/-- The top of the range. -/
def hiOf (signed : Bool) (w : Nat) : Int := if signed then (2 ^ (w - 1) : Nat) - 1 else (2 ^ w : Nat) - 1
/-- Clamp to the range of a type. -/
def clampI (signed : Bool) (w : Nat) (v : Int) : Int :=
  if v < loOf signed w then loOf signed w else if hiOf signed w < v then hiOf signed w else v
/-- Quotient of R80: truncated toward zero; by zero, all ones; the most negative by -1, itself. -/
def divI (signed : Bool) (w a b : Nat) : Nat :=
  if b % 2 ^ w = 0 then 2 ^ w - 1 else wrapI w ((valOf signed w a).tdiv (valOf signed w b))
/-- Remainder of R80: the dividend's sign; by zero, the dividend. -/
def remI (signed : Bool) (w a b : Nat) : Nat :=
  if b % 2 ^ w = 0 then a % 2 ^ w else wrapI w ((valOf signed w a).tmod (valOf signed w b))
/-- The high half of a product (R80). -/
def mulHigh (sa sb : Bool) (w a b : Nat) : Nat :=
  wrapI w ((valOf sa w a * valOf sb w b) / ((2 ^ w : Nat) : Int))
/-- Leading zeros of a w-bit pattern. -/
def clzN (w v : Nat) : Nat := if v % 2 ^ w = 0 then w else w - 1 - (v % 2 ^ w).log2
/-- Trailing zeros below `n`, counting from a bit. -/
def ctzFrom (v : Nat) : Nat → Nat → Nat
  | 0, k => k
  | n + 1, k => if v / 2 ^ k % 2 = 1 then k else ctzFrom v n (k + 1)
/-- Trailing zeros of a w-bit pattern. -/
def ctzN (w v : Nat) : Nat := ctzFrom v w 0
/-- One bits among the low `n`. -/
def popN : Nat → Nat → Nat
  | 0, _ => 0
  | n + 1, v => v % 2 + popN n (v / 2)
/-- The low `n` bits in reverse order. -/
def revBits : Nat → Nat → Nat
  | 0, _ => 0
  | n + 1, v => v % 2 * 2 ^ n + revBits n (v / 2)

/-! ### Formats (R81) -/

/-- What codes a format gives to infinity and NaN: as IEEE 754, NaN at the top code only, or neither. -/
inductive Specials where
  | ieee
  | nanTop
  | none
  deriving DecidableEq, Repr

/-- A floating-point format: fraction bits, exponent bits, bias, its special codes, whether it has a quiet bit, and its
canonical NaN (R81, R82). -/
structure Fmt where
  f     : Nat
  eb    : Nat
  bias  : Nat
  spec  : Specials
  quiet : Bool
  nan   : Nat
  deriving DecidableEq, Repr

/-- f64, f32, bf16, f16, e4m3, e5m2, e3m2, e2m3 and e2m1 by type code (R40, R81). -/
def fmtOf (t : Nat) : Fmt :=
  match t with
  | 8 => { f := 52, eb := 11, bias := 1023, spec := .ieee, quiet := true, nan := 0x7FF8000000000000 }
  | 9 => { f := 23, eb := 8, bias := 127, spec := .ieee, quiet := true, nan := 0x7FC00000 }
  | 10 => { f := 7, eb := 8, bias := 127, spec := .ieee, quiet := true, nan := 0x7FC0 }
  | 11 => { f := 10, eb := 5, bias := 15, spec := .ieee, quiet := true, nan := 0x7E00 }
  | 12 => { f := 3, eb := 4, bias := 7, spec := .nanTop, quiet := false, nan := 0x7F }
  | 13 => { f := 2, eb := 5, bias := 15, spec := .ieee, quiet := false, nan := 0x7E }
  | 14 => { f := 2, eb := 3, bias := 3, spec := .none, quiet := false, nan := 0 }
  | 15 => { f := 3, eb := 2, bias := 1, spec := .none, quiet := false, nan := 0 }
  | _ => { f := 1, eb := 2, bias := 1, spec := .none, quiet := false, nan := 0 }

/-- Bits of a format. -/
def Fmt.width (F : Fmt) : Nat := 1 + F.eb + F.f
/-- The weight of the lowest subnormal bit. -/
def Fmt.emin (F : Fmt) : Int := 1 - (F.bias : Int) - (F.f : Int)
/-- The largest finite magnitude's code (R81). -/
def Fmt.maxCode (F : Fmt) : Nat :=
  match F.spec with
  | .ieee => (2 ^ F.eb - 1) * 2 ^ F.f - 1
  | .nanTop => 2 ^ (F.eb + F.f) - 2
  | .none => 2 ^ (F.eb + F.f) - 1
/-- The code of infinity. -/
def Fmt.infCode (F : Fmt) : Nat := (2 ^ F.eb - 1) * 2 ^ F.f
/-- Put a sign on a magnitude's code. -/
def Fmt.sign (F : Fmt) (s : Bool) (code : Nat) : Nat := if s then 2 ^ (F.eb + F.f) + code else code

/-- A floating-point value: (-1)^s * m * 2^e, an infinity, or a NaN with whether it signals. -/
inductive FVal where
  | fin (s : Bool) (m : Nat) (e : Int)
  | inf (s : Bool)
  | nan (signalling : Bool)
  deriving DecidableEq, Repr

/-- The value of a code (R81, R82). -/
def unpack (F : Fmt) (bits : Nat) : FVal :=
  let s := bits / 2 ^ (F.eb + F.f) % 2 == 1
  let e := bits / 2 ^ F.f % 2 ^ F.eb
  let m := bits % 2 ^ F.f
  let finite := if e = 0 then FVal.fin s m F.emin else FVal.fin s (2 ^ F.f + m) (F.emin + (e - 1 : Nat))
  match F.spec with
  | .ieee =>
    if e = 2 ^ F.eb - 1 then
      if m = 0 then .inf s else .nan (F.quiet && m / 2 ^ (F.f - 1) == 0)
    else finite
  | .nanTop => if bits % 2 ^ (F.eb + F.f) = 2 ^ (F.eb + F.f) - 1 then .nan false else finite
  | .none => finite

/-! ### Flags (R96, R97) -/

/-- Invalid operation. -/
def fNV : BitVec 5 := 16#5
/-- Division by zero. -/
def fDZ : BitVec 5 := 8#5
/-- Overflow. -/
def fOF : BitVec 5 := 4#5
/-- Underflow. -/
def fUF : BitVec 5 := 2#5
/-- Inexact. -/
def fNX : BitVec 5 := 1#5
/-- A flag when a condition holds. -/
def flagIf (c : Bool) (f : BitVec 5) : BitVec 5 := if c then f else 0#5

/-- A result's bits and the flags it raises. -/
abbrev FRes := Nat × BitVec 5

/-! ### Rounding (R89, R90, R93) -/

/-- The 32 random bits of a key (R93). -/
def srBits (key : BitVec 64) : Nat :=
  let x := key.extractLsb' 0 32 ^^^ key.extractLsb' 32 32
  let x := x * 0x2C1B3C6D#32
  let x := x ^^^ (x >>> 15)
  let x := x * 0x297A2D39#32
  let x := x ^^^ (x >>> 16)
  x.toNat

/-- How to round: a mode 0-5 of R89 and the random bits that mode 5 uses. -/
structure RMode where
  mode : Nat
  bits : Nat
  deriving DecidableEq, Repr

/-- A mode that is not SR. -/
def RMode.plain (m : Nat) : RMode := { mode := m, bits := 0 }
/-- Round to nearest, ties to even. -/
def rne : RMode := RMode.plain 0

/-- Whether the magnitude lo + rem/den (plus a positive trifle when `sticky`) rounds up, under a mode (R89, R93). -/
def roundsUp (r : RMode) (s : Bool) (lo rem den : Nat) (sticky : Bool) : Bool :=
  let inexact := rem != 0 || sticky
  match r.mode with
  | 0 => decide (den < 2 * rem) || (2 * rem == den && (sticky || lo % 2 == 1))
  | 1 => false
  | 2 => inexact && !s
  | 3 => inexact && s
  | 4 => decide (den ≤ 2 * rem)
  | _ => decide (2 ^ 32 ≤ rem * 2 ^ 32 / den + r.bits)

/-- The overflow results of R90. -/
def overflowed (F : Fmt) (r : RMode) (s : Bool) : FRes :=
  let code :=
    if F.spec != .ieee then F.maxCode
    else match r.mode with
      | 0 => F.infCode
      | 4 => F.infCode
      | 2 => if s then F.maxCode else F.infCode
      | 3 => if s then F.infCode else F.maxCode
      | _ => F.maxCode
  (F.sign s code, fOF ||| fNX)

/-- Round the magnitude (m, plus a positive trifle below 1 when `sticky`) * 2^e with sign s to a format: R89 steps 1 to 3
and R90. A zero takes the sign given. `sticky` needs 2^e at least 33 bits below the result's spacing. -/
def roundTo (F : Fmt) (r : RMode) (s : Bool) (m : Nat) (e : Int) (sticky : Bool) : FRes :=
  if m = 0 && !sticky then (F.sign s 0, 0#5)
  else
    let q := max F.emin (e + (m.log2 : Int) - (F.f : Int))
    let sh := (q - e).toNat
    let m := m * 2 ^ (e - q).toNat
    let lo := m / 2 ^ sh
    let rem := m % 2 ^ sh
    let inexact := rem != 0 || sticky
    let y := if roundsUp r s lo rem (2 ^ sh) sticky then lo + 1 else lo
    let code := (q - F.emin).toNat * 2 ^ F.f + y
    if y = 0 then (F.sign s 0, flagIf inexact fNX)
    else if F.maxCode < code then overflowed F r s
    else (F.sign s code, flagIf inexact fNX ||| flagIf (inexact && decide (code < 2 ^ F.f)) fUF)

/-- An exact zero sum (R89): the common sign of two zero addends, else +0, or -0 under RDN. -/
def zeroSum (r : RMode) (bothZero sa sb : Bool) : Bool := if bothZero && sa == sb then sa else r.mode == 3

/-- The canonical NaN, with NV if an operand signals (R82, R95). -/
def nanRes (F : Fmt) (sig : Bool) : FRes := (F.nan, flagIf sig fNV)

/-- Add exact finite values and round (R89). -/
def addFin (F : Fmt) (r : RMode) (sa : Bool) (ma : Nat) (ea : Int) (sb : Bool) (mb : Nat) (eb : Int) : FRes :=
  let e := min ea eb
  let a := ma * 2 ^ (ea - e).toNat
  let b := mb * 2 ^ (eb - e).toNat
  if sa = sb then
    if a + b = 0 then (F.sign sa 0, 0#5) else roundTo F r sa (a + b) e false
  else if a = b then (F.sign (zeroSum r (a == 0) sa sb) 0, 0#5)
  else if b < a then roundTo F r sa (a - b) e false
  else roundTo F r sb (b - a) e false

/-- A value with its sign inverted. -/
def FVal.neg : FVal → FVal
  | .fin s m e => .fin (!s) m e
  | .inf s => .inf (!s)
  | .nan q => .nan q
/-- A signalling NaN. -/
def FVal.sig : FVal → Bool
  | .nan q => q
  | _ => false
/-- A NaN. -/
def FVal.isNan : FVal → Bool
  | .nan _ => true
  | _ => false

/-- Sum of two values (R95). -/
def addV (F : Fmt) (r : RMode) (a b : FVal) : FRes :=
  match a, b with
  | .nan q, x => nanRes F (q || x.sig)
  | x, .nan q => nanRes F (q || x.sig)
  | .inf s, .inf t => if s = t then (F.sign s F.infCode, 0#5) else (F.nan, fNV)
  | .inf s, _ => (F.sign s F.infCode, 0#5)
  | _, .inf t => (F.sign t F.infCode, 0#5)
  | .fin s m e, .fin t n d => addFin F r s m e t n d

/-- Product of two values (R95). An exact zero product takes the XOR of the signs: R89 signs only zero sums and zeros rounded from a
non-zero x (DESIGN CHOICE, log 48). -/
def mulV (F : Fmt) (r : RMode) (a b : FVal) : FRes :=
  match a, b with
  | .nan q, x => nanRes F (q || x.sig)
  | x, .nan q => nanRes F (q || x.sig)
  | .inf s, .inf t => (F.sign (s != t) F.infCode, 0#5)
  | .inf s, .fin t n _ => if n = 0 then (F.nan, fNV) else (F.sign (s != t) F.infCode, 0#5)
  | .fin s m _, .inf t => if m = 0 then (F.nan, fNV) else (F.sign (s != t) F.infCode, 0#5)
  | .fin s m e, .fin t n d => roundTo F r (s != t) (m * n) (e + d) false

/-- Fused a * b + c with one rounding, the product's sign inverted when `neg` (R95, R114). -/
def fmaV (F : Fmt) (r : RMode) (neg : Bool) (a b c : FVal) : FRes :=
  let bad := match a, b with
    | .inf _, .fin _ n _ => n == 0
    | .fin _ m _, .inf _ => m == 0
    | _, _ => false
  if bad then (F.nan, fNV)
  else if a.isNan || b.isNan || c.isNan then nanRes F (a.sig || b.sig || c.sig)
  else
    let prod : FVal := match a, b with
      | .fin s m e, .fin t n d => .fin ((s != t) != neg) (m * n) (e + d)
      | .fin s _ _, .inf t => .inf ((s != t) != neg)
      | .inf s, .fin t _ _ => .inf ((s != t) != neg)
      | .inf s, .inf t => .inf ((s != t) != neg)
      | x, _ => x
    addV F r prod c

/-- Quotient (R95). A zero quotient of an exact zero, or by an infinity, takes the XOR of the signs (DESIGN CHOICE, log 48). -/
def divV (F : Fmt) (r : RMode) (a b : FVal) : FRes :=
  match a, b with
  | .nan q, x => nanRes F (q || x.sig)
  | x, .nan q => nanRes F (q || x.sig)
  | .inf _, .inf _ => (F.nan, fNV)
  | .inf s, .fin t _ _ => (F.sign (s != t) F.infCode, 0#5)
  | .fin s _ _, .inf t => (F.sign (s != t) 0, 0#5)
  | .fin s m e, .fin t n d =>
    if n = 0 then
      if m = 0 then (F.nan, fNV) else (F.sign (s != t) F.infCode, fDZ)
    else
      let k := n.log2 + 128
      roundTo F r (s != t) (m * 2 ^ k / n) (e - d - (k : Int)) (m * 2 ^ k % n != 0)

/-- The integer square root, bit by bit from bit `n` - 1. -/
def isqrtFrom (v : Nat) : Nat → Nat → Nat
  | 0, r => r
  | n + 1, r => if (r + 2 ^ n) * (r + 2 ^ n) ≤ v then isqrtFrom v n (r + 2 ^ n) else isqrtFrom v n r
/-- The integer square root. -/
def isqrt (v : Nat) : Nat := isqrtFrom v (v.log2 / 2 + 1) 0

/-- Square root (R95). -/
def sqrtV (F : Fmt) (r : RMode) (a : FVal) : FRes :=
  match a with
  | .nan q => nanRes F q
  | .inf s => if s then (F.nan, fNV) else (F.infCode, 0#5)
  | .fin s m e =>
    if m = 0 then (F.sign s 0, 0#5)
    else if s then (F.nan, fNV)
    else
      let odd := e % 2 != 0
      let e' := if odd then e - 1 else e
      let v := (if odd then 2 * m else m) * 2 ^ 256
      let root := isqrt v
      roundTo F r false root (e' / 2 - 128) (root * root != v)

/-- Order of two values that are not NaN: a < b; the zeros are equal. -/
def ltV (a b : FVal) : Bool :=
  match a, b with
  | .inf s, .inf t => s && !t
  | .inf s, _ => s
  | _, .inf t => !t
  | .fin s m e, .fin t n d =>
    let k := min e d
    let x : Int := (if s then -1 else 1) * ((m * 2 ^ (e - k).toNat : Nat) : Int)
    let y : Int := (if t then -1 else 1) * ((n * 2 ^ (d - k).toNat : Nat) : Int)
    decide (x < y)
  | _, _ => false

/-- A negative value, -0 included. -/
def FVal.isNeg : FVal → Bool
  | .fin s _ _ => s
  | .inf s => s
  | .nan _ => false

/-- Lesser (or greater, with `mx`) of two codes, as bits (R95). -/
def minmax (F : Fmt) (mx : Bool) (a b : Nat) : FRes :=
  let va := unpack F a
  let vb := unpack F b
  let fl := flagIf (va.sig || vb.sig) fNV
  if va.isNan && vb.isNan then (F.nan, fl)
  else if va.isNan then (b, fl)
  else if vb.isNan then (a, fl)
  else
    let less := ltV va vb || (!ltV vb va && va.isNeg && !vb.isNeg)
    (if less != mx then a else b, 0#5)

/-- Compares of R95: 0 equal, 1 not equal, 2 less, 3 less or equal, 4 greater, 5 greater or equal, 6 unordered. -/
def compareV (op : Nat) (a b : FVal) : Bool × BitVec 5 :=
  if a.isNan || b.isNan then
    (op == 1 || op == 6, flagIf ((2 ≤ op && op ≤ 5) || a.sig || b.sig) fNV)
  else
    (match op with
     | 0 => !ltV a b && !ltV b a
     | 1 => ltV a b || ltV b a
     | 2 => ltV a b
     | 3 => !ltV b a
     | 4 => ltV b a
     | 5 => !ltV a b
     | _ => false, 0#5)

/-- The class code of R115. -/
def classCode (F : Fmt) (bits : Nat) : Nat :=
  let s := bits / 2 ^ (F.eb + F.f) % 2
  match unpack F bits with
  | .nan q => (if q then 5 else 4) + 8 * s
  | .inf _ => 3 + 8 * s
  | .fin _ m e =>
    if m = 0 then 16 + 8 * s
    else if bits / 2 ^ F.f % 2 ^ F.eb = 0 then 1 + 8 * s
    else 2 + 8 * s + (if 0 ≤ e || m % 2 ^ (-e).toNat = 0 then 16 else 0)

/-- Narrow or widen a value to a format (R90, R95). A zero keeps its sign (DESIGN CHOICE, log 48). -/
def toFmt (F : Fmt) (r : RMode) (a : FVal) : FRes :=
  match a with
  | .nan q =>
    match F.spec with
    | .none => (0, fNV)
    | _ => nanRes F q
  | .inf s =>
    match F.spec with
    | .ieee => (F.sign s F.infCode, 0#5)
    | _ => (F.sign s F.maxCode, fNV)
  | .fin s m e => roundTo F r s m e false

/-- A float to an integer type (R90): the rounded integer, the nearer range limit, or 0 for NaN. -/
def toInt (signed : Bool) (w : Nat) (r : RMode) (a : FVal) : FRes :=
  match a with
  | .nan _ => (0, fNV)
  | .inf s => (wrapI w (if s then loOf signed w else hiOf signed w), fNV)
  | .fin s m e =>
    let sh := (-e).toNat
    let m := m * 2 ^ e.toNat
    let lo := m / 2 ^ sh
    let rem := m % 2 ^ sh
    let y := if roundsUp r s lo rem (2 ^ sh) false then lo + 1 else lo
    let v : Int := if s then -(y : Int) else y
    if v < loOf signed w || hiOf signed w < v then (wrapI w (clampI signed w v), fNV)
    else (wrapI w v, flagIf (rem != 0) fNX)

/-- An integer value to a format: zero is +0 (DESIGN CHOICE, log 48). -/
def ofInt (F : Fmt) (r : RMode) (v : Int) : FRes := roundTo F r (decide (v < 0)) v.natAbs 0 false

end Machine
end Sys2Proof
end

