-- ==== Sys2Proof/Syntax.lean ====
section
/-! DEFINITION. The instruction set: one constructor of `Instr` per row of spec/opcode_table.json. The 183 scalar
words carry the fields of spec/02_encoding.md R34, the 150 node words the fields of R36 and R37, and the 60 rows without
an encoding (spec/95_what_each_step_holds.md) carry what identifies the step. -/

namespace Sys2Proof

/-- A register number g0-g31 (R34). -/
abbrev Reg := Fin 32

/-- The fields of a 64-bit word (spec/02_encoding.md R36), cut where every node-word format agrees: `vd` is [23:18],
`f1` is [17:9], `f2` is [8:0], `f3` is [63:55]. Formats VM, VG and VN read `vd`, `f1`, `f2`, `f3` through the accessors
below. -/
structure VWord where
  vd : Fin 64
  f1 : Fin 512
  f2 : Fin 512
  f3 : Fin 512
  vm : Fin 16
  vt : Fin 32
  rm : Fin 8
  x  : Fin 2
  deriving DecidableEq, Repr

/-- A hart context of the package (spec/14_harts_kiln.md R311; numbered as spec/17_traps.md R415 numbers it). -/
structure HartId where
  die  : Fin 8
  core : Fin 40
  ctx  : Fin 32
  deriving DecidableEq, Repr

/-- A queue entry, named by its queue and sequence number (spec/14_harts_kiln.md R319). -/
structure EntryId where
  queue : Fin 4096
  seq   : Nat
  deriving DecidableEq, Repr

/-- The header and payload of a collective frame (spec/15_links_collectives.md R353). -/
structure Frame where
  ver     : Nat
  kind    : Nat
  ty      : Nat
  form    : Nat
  rm      : Nat
  op      : Nat
  last    : Bool
  group   : Nat
  cseq    : Nat
  src     : Nat
  dst     : Nat
  chunk   : Nat
  code    : Nat
  payload : List Byte
  deriving DecidableEq, Repr

/-- Who sends an SPDM request (spec/16_isolation.md R383): the management port, or the mailbox. -/
inductive SpdmVia where
  | port (tag : Nat)
  | mailbox
  deriving DecidableEq, Repr

/-- An SPDM request: its route, its code byte, its slot or measurement index, and the bytes of the message. -/
structure SpdmReq where
  via   : SpdmVia
  code  : Nat
  param : Nat
  bytes : List Byte
  deriving DecidableEq, Repr

/-- Where an uncorrectable error strikes (spec/18_ras.md R416, R418). A line of tile memory may lie in save rows. `codeStore`
and `ccStore` are the instruction stores and caches of a hart and of a control core, `engineStore` and `kilnStore` the caches of an
engine (copy, gather/scatter, Thresher, collective) and of a die kiln. A line of HBM4E that fails for its whole channel is
`hbmChannel` (spec/18_ras.md R423), and else `hbmLine`. -/
inductive ErrUnit where
  | hbmLine (line : Nat)
  | hbmChannel (line : Nat)
  | tileLine (core : Nat) (line : Nat)
  | sdmLine (core : Nat) (line : Nat)
  | gReg (h : HartId) (r : Reg)
  | ccReg (cc : Fin 32) (r : Reg)
  | vGranule (h : HartId) (v : Reg) (granule : Nat)
  | mask (h : HartId) (m : Fin 8)
  | accRow (h : HartId) (tile row : Fin 8) (lane : Nat)
  | queueSlot (q : Fin 4096) (slot : Nat)
  | chainStore (h : HartId)
  | link (core : Nat) (dir : Fin 4)
  | laneArith (h : HartId) (lane : Nat)
  | strip (h : HartId)
  | codeStore (h : HartId)
  | ccStore (cc : Fin 32)
  | engineStore (die : Fin 8) (n : Fin 4)
  | kilnStore (die : Fin 8)
  | kilnMemory (die : Fin 8)
  deriving DecidableEq, Repr

/-- A unit that a spare may replace (spec/18_ras.md R423): a row or column and a channel of HBM4E by a line that lies in it. -/
inductive SpareUnit where
  | lane (core sheaf lane : Nat)
  | core (core : Nat)
  | hbmRow (line : Nat)
  | hbmChannel (line : Nat)
  | linkGroup (core : Nat) (dir : Fin 4)
  deriving DecidableEq, Repr

/-- The instructions and steps of the machine, one constructor per row of spec/opcode_table.json. -/
inductive Instr where
  | add (rd : Reg) (rs1 : Reg) (rs2 : Reg)
  | sub (rd : Reg) (rs1 : Reg) (rs2 : Reg)
  | and (rd : Reg) (rs1 : Reg) (rs2 : Reg)
  | andn (rd : Reg) (rs1 : Reg) (rs2 : Reg)
  | or (rd : Reg) (rs1 : Reg) (rs2 : Reg)
  | orn (rd : Reg) (rs1 : Reg) (rs2 : Reg)
  | xor (rd : Reg) (rs1 : Reg) (rs2 : Reg)
  | xnor (rd : Reg) (rs1 : Reg) (rs2 : Reg)
  | sll (rd : Reg) (rs1 : Reg) (rs2 : Reg)
  | srl (rd : Reg) (rs1 : Reg) (rs2 : Reg)
  | sra (rd : Reg) (rs1 : Reg) (rs2 : Reg)
  | rol (rd : Reg) (rs1 : Reg) (rs2 : Reg)
  | ror (rd : Reg) (rs1 : Reg) (rs2 : Reg)
  | min (rd : Reg) (rs1 : Reg) (rs2 : Reg)
  | max (rd : Reg) (rs1 : Reg) (rs2 : Reg)
  | minn (rd : Reg) (rs1 : Reg) (rs2 : Reg)
  | maxn (rd : Reg) (rs1 : Reg) (rs2 : Reg)
  | cmplt (rd : Reg) (rs1 : Reg) (rs2 : Reg)
  | cmpltn (rd : Reg) (rs1 : Reg) (rs2 : Reg)
  | cmpeq (rd : Reg) (rs1 : Reg) (rs2 : Reg)
  | addI32 (rd : Reg) (rs1 : Reg) (rs2 : Reg)
  | subI32 (rd : Reg) (rs1 : Reg) (rs2 : Reg)
  | sllI32 (rd : Reg) (rs1 : Reg) (rs2 : Reg)
  | srlI32 (rd : Reg) (rs1 : Reg) (rs2 : Reg)
  | sraI32 (rd : Reg) (rs1 : Reg) (rs2 : Reg)
  | rolI32 (rd : Reg) (rs1 : Reg) (rs2 : Reg)
  | rorI32 (rd : Reg) (rs1 : Reg) (rs2 : Reg)
  | mul (rd : Reg) (rs1 : Reg) (rs2 : Reg)
  | mulh (rd : Reg) (rs1 : Reg) (rs2 : Reg)
  | mulhu (rd : Reg) (rs1 : Reg) (rs2 : Reg)
  | mulhsu (rd : Reg) (rs1 : Reg) (rs2 : Reg)
  | mulI32 (rd : Reg) (rs1 : Reg) (rs2 : Reg)
  | div (rd : Reg) (rs1 : Reg) (rs2 : Reg)
  | divu (rd : Reg) (rs1 : Reg) (rs2 : Reg)
  | rem (rd : Reg) (rs1 : Reg) (rs2 : Reg)
  | remu (rd : Reg) (rs1 : Reg) (rs2 : Reg)
  | divI32 (rd : Reg) (rs1 : Reg) (rs2 : Reg)
  | divuI32 (rd : Reg) (rs1 : Reg) (rs2 : Reg)
  | remI32 (rd : Reg) (rs1 : Reg) (rs2 : Reg)
  | remuI32 (rd : Reg) (rs1 : Reg) (rs2 : Reg)
  | addi (rd : Reg) (rs1 : Reg) (imm : Fin 16384)
  | andi (rd : Reg) (rs1 : Reg) (imm : Fin 16384)
  | ori (rd : Reg) (rs1 : Reg) (imm : Fin 16384)
  | xori (rd : Reg) (rs1 : Reg) (imm : Fin 16384)
  | cmplti (rd : Reg) (rs1 : Reg) (imm : Fin 16384)
  | cmpltni (rd : Reg) (rs1 : Reg) (imm : Fin 16384)
  | addiI32 (rd : Reg) (rs1 : Reg) (imm : Fin 16384)
  | slli (rd : Reg) (rs1 : Reg) (sh : Fin 64)
  | srli (rd : Reg) (rs1 : Reg) (sh : Fin 64)
  | srai (rd : Reg) (rs1 : Reg) (sh : Fin 64)
  | rori (rd : Reg) (rs1 : Reg) (sh : Fin 64)
  | slliI32 (rd : Reg) (rs1 : Reg) (sh : Fin 32)
  | srliI32 (rd : Reg) (rs1 : Reg) (sh : Fin 32)
  | sraiI32 (rd : Reg) (rs1 : Reg) (sh : Fin 32)
  | lui (rd : Reg) (imm : Fin 524288)
  | lhi (rd : Reg) (imm : Fin 524288)
  | auipc (rd : Reg) (imm : Fin 524288)
  | lb (rd : Reg) (rs1 : Reg) (imm : Fin 16384)
  | lbu (rd : Reg) (rs1 : Reg) (imm : Fin 16384)
  | lh (rd : Reg) (rs1 : Reg) (imm : Fin 16384)
  | lhu (rd : Reg) (rs1 : Reg) (imm : Fin 16384)
  | lw (rd : Reg) (rs1 : Reg) (imm : Fin 16384)
  | lwu (rd : Reg) (rs1 : Reg) (imm : Fin 16384)
  | ld (rd : Reg) (rs1 : Reg) (imm : Fin 16384)
  | sb (rs2 : Reg) (rs1 : Reg) (imm : Fin 16384)
  | sh (rs2 : Reg) (rs1 : Reg) (imm : Fin 16384)
  | sw (rs2 : Reg) (rs1 : Reg) (imm : Fin 16384)
  | sd (rs2 : Reg) (rs1 : Reg) (imm : Fin 16384)
  | clz (rd : Reg) (rs1 : Reg)
  | ctz (rd : Reg) (rs1 : Reg)
  | popc (rd : Reg) (rs1 : Reg)
  | clzw (rd : Reg) (rs1 : Reg)
  | ctzw (rd : Reg) (rs1 : Reg)
  | popcw (rd : Reg) (rs1 : Reg)
  | rev8 (rd : Reg) (rs1 : Reg)
  | brev (rd : Reg) (rs1 : Reg)
  | sextb (rd : Reg) (rs1 : Reg)
  | sexth (rd : Reg) (rs1 : Reg)
  | sextw (rd : Reg) (rs1 : Reg)
  | zextb (rd : Reg) (rs1 : Reg)
  | zexth (rd : Reg) (rs1 : Reg)
  | zextw (rd : Reg) (rs1 : Reg)
  | faddF32 (rd : Reg) (rs1 : Reg) (rs2 : Reg) (rm : Fin 8)
  | fsubF32 (rd : Reg) (rs1 : Reg) (rs2 : Reg) (rm : Fin 8)
  | fmulF32 (rd : Reg) (rs1 : Reg) (rs2 : Reg) (rm : Fin 8)
  | fdivF32 (rd : Reg) (rs1 : Reg) (rs2 : Reg) (rm : Fin 8)
  | fsqrtF32 (rd : Reg) (rs1 : Reg) (rm : Fin 8)
  | fminF32 (rd : Reg) (rs1 : Reg) (rs2 : Reg)
  | fmaxF32 (rd : Reg) (rs1 : Reg) (rs2 : Reg)
  | fsgnjF32 (rd : Reg) (rs1 : Reg) (rs2 : Reg)
  | fsgnjnF32 (rd : Reg) (rs1 : Reg) (rs2 : Reg)
  | fsgnjxF32 (rd : Reg) (rs1 : Reg) (rs2 : Reg)
  | feqF32 (rd : Reg) (rs1 : Reg) (rs2 : Reg)
  | fltF32 (rd : Reg) (rs1 : Reg) (rs2 : Reg)
  | fleF32 (rd : Reg) (rs1 : Reg) (rs2 : Reg)
  | fclassF32 (rd : Reg) (rs1 : Reg)
  | faddF64 (rd : Reg) (rs1 : Reg) (rs2 : Reg) (rm : Fin 8)
  | fsubF64 (rd : Reg) (rs1 : Reg) (rs2 : Reg) (rm : Fin 8)
  | fmulF64 (rd : Reg) (rs1 : Reg) (rs2 : Reg) (rm : Fin 8)
  | fdivF64 (rd : Reg) (rs1 : Reg) (rs2 : Reg) (rm : Fin 8)
  | fsqrtF64 (rd : Reg) (rs1 : Reg) (rm : Fin 8)
  | fminF64 (rd : Reg) (rs1 : Reg) (rs2 : Reg)
  | fmaxF64 (rd : Reg) (rs1 : Reg) (rs2 : Reg)
  | fsgnjF64 (rd : Reg) (rs1 : Reg) (rs2 : Reg)
  | fsgnjnF64 (rd : Reg) (rs1 : Reg) (rs2 : Reg)
  | fsgnjxF64 (rd : Reg) (rs1 : Reg) (rs2 : Reg)
  | feqF64 (rd : Reg) (rs1 : Reg) (rs2 : Reg)
  | fltF64 (rd : Reg) (rs1 : Reg) (rs2 : Reg)
  | fleF64 (rd : Reg) (rs1 : Reg) (rs2 : Reg)
  | fclassF64 (rd : Reg) (rs1 : Reg)
  | fmadd (rd : Reg) (rs1 : Reg) (rs2 : Reg) (rs3 : Reg) (rm : Fin 8) (ty : Fin 2)
  | fmsub (rd : Reg) (rs1 : Reg) (rs2 : Reg) (rs3 : Reg) (rm : Fin 8) (ty : Fin 2)
  | fnmadd (rd : Reg) (rs1 : Reg) (rs2 : Reg) (rs3 : Reg) (rm : Fin 8) (ty : Fin 2)
  | fnmsub (rd : Reg) (rs1 : Reg) (rs2 : Reg) (rs3 : Reg) (rm : Fin 8) (ty : Fin 2)
  | fcvtF32I32 (rd : Reg) (rs1 : Reg) (rm : Fin 8)
  | fcvtF32N32 (rd : Reg) (rs1 : Reg) (rm : Fin 8)
  | fcvtF32I64 (rd : Reg) (rs1 : Reg) (rm : Fin 8)
  | fcvtF32N64 (rd : Reg) (rs1 : Reg) (rm : Fin 8)
  | fcvtF64I32 (rd : Reg) (rs1 : Reg) (rm : Fin 8)
  | fcvtF64N32 (rd : Reg) (rs1 : Reg) (rm : Fin 8)
  | fcvtF64I64 (rd : Reg) (rs1 : Reg) (rm : Fin 8)
  | fcvtF64N64 (rd : Reg) (rs1 : Reg) (rm : Fin 8)
  | fcvtI32F32 (rd : Reg) (rs1 : Reg) (rm : Fin 8)
  | fcvtN32F32 (rd : Reg) (rs1 : Reg) (rm : Fin 8)
  | fcvtI64F32 (rd : Reg) (rs1 : Reg) (rm : Fin 8)
  | fcvtN64F32 (rd : Reg) (rs1 : Reg) (rm : Fin 8)
  | fcvtI32F64 (rd : Reg) (rs1 : Reg) (rm : Fin 8)
  | fcvtN32F64 (rd : Reg) (rs1 : Reg) (rm : Fin 8)
  | fcvtI64F64 (rd : Reg) (rs1 : Reg) (rm : Fin 8)
  | fcvtN64F64 (rd : Reg) (rs1 : Reg) (rm : Fin 8)
  | fcvtF32F64 (rd : Reg) (rs1 : Reg) (rm : Fin 8)
  | fcvtF64F32 (rd : Reg) (rs1 : Reg) (rm : Fin 8)
  | fcvtF32Bf16 (rd : Reg) (rs1 : Reg) (rm : Fin 8)
  | fcvtBf16F32 (rd : Reg) (rs1 : Reg) (rm : Fin 8)
  | fcvtF32F16 (rd : Reg) (rs1 : Reg) (rm : Fin 8)
  | fcvtF16F32 (rd : Reg) (rs1 : Reg) (rm : Fin 8)
  | fcvtF64F16 (rd : Reg) (rs1 : Reg) (rm : Fin 8)
  | fcvtF16F64 (rd : Reg) (rs1 : Reg) (rm : Fin 8)
  | csrld (rd : Reg) (csr : Fin 4096)
  | csrst (rd : Reg) (rs1 : Reg) (csr : Fin 4096)
  | csrbset (rd : Reg) (rs1 : Reg) (csr : Fin 4096)
  | csrbclr (rd : Reg) (rs1 : Reg) (csr : Fin 4096)
  | csrsti (rd : Reg) (uimm : Fin 32) (csr : Fin 4096)
  | csrbseti (rd : Reg) (uimm : Fin 32) (csr : Fin 4096)
  | csrbclri (rd : Reg) (uimm : Fin 32) (csr : Fin 4096)
  | ecall
  | ebreak
  | xret
  | wait (rd : Reg) (rs1 : Reg) (rs2 : Reg)
  | hexit
  | vcsave (rs1 : Reg)
  | vcrest (rs1 : Reg)
  | tlbinv (rs1 : Reg) (rs2 : Reg)
  | ifence
  | beq (rs1 : Reg) (rs2 : Reg) (off : Fin 16384)
  | bne (rs1 : Reg) (rs2 : Reg) (off : Fin 16384)
  | blt (rs1 : Reg) (rs2 : Reg) (off : Fin 16384)
  | bge (rs1 : Reg) (rs2 : Reg) (off : Fin 16384)
  | bltu (rs1 : Reg) (rs2 : Reg) (off : Fin 16384)
  | bgeu (rs1 : Reg) (rs2 : Reg) (off : Fin 16384)
  | jal (rd : Reg) (off : Fin 524288)
  | jalr (rd : Reg) (rs1 : Reg) (imm : Fin 16384)
  | amoswap (rd : Reg) (rs1 : Reg) (rs2 : Reg) (dw : Fin 2) (ord : Fin 8)
  | amoadd (rd : Reg) (rs1 : Reg) (rs2 : Reg) (dw : Fin 2) (ord : Fin 8)
  | amoand (rd : Reg) (rs1 : Reg) (rs2 : Reg) (dw : Fin 2) (ord : Fin 8)
  | amoor (rd : Reg) (rs1 : Reg) (rs2 : Reg) (dw : Fin 2) (ord : Fin 8)
  | amoxor (rd : Reg) (rs1 : Reg) (rs2 : Reg) (dw : Fin 2) (ord : Fin 8)
  | amomin (rd : Reg) (rs1 : Reg) (rs2 : Reg) (dw : Fin 2) (ord : Fin 8)
  | amomax (rd : Reg) (rs1 : Reg) (rs2 : Reg) (dw : Fin 2) (ord : Fin 8)
  | amominu (rd : Reg) (rs1 : Reg) (rs2 : Reg) (dw : Fin 2) (ord : Fin 8)
  | amomaxu (rd : Reg) (rs1 : Reg) (rs2 : Reg) (dw : Fin 2) (ord : Fin 8)
  | amocas (rd : Reg) (rs1 : Reg) (rs2 : Reg) (dw : Fin 2) (ord : Fin 8)
  | fenceSv (scope : Fin 8)
  | fenceVs (scope : Fin 8)
  | fenceVv (scope : Fin 8)
  | fenceAll (scope : Fin 8)
  | setvl (rd : Reg) (rs1 : Reg) (ty : Fin 32) (bal : Fin 2) (gexp : Fin 16)
  | setvli (rd : Reg) (ty : Fin 32) (len : Fin 16384)
  | enq (rd : Reg) (rs1 : Reg) (rs2 : Reg)
  | qstat (rd : Reg) (rs1 : Reg)
  | depdec (rd : Reg) (rs1 : Reg)
  | gbar (rd : Reg) (rs1 : Reg)
  | tbar (rd : Reg) (rs1 : Reg)
  | vadd (w : VWord)
  | vsub (w : VWord)
  | vrsub (w : VWord)
  | vmul (w : VWord)
  | vmulh (w : VWord)
  | vdiv (w : VWord)
  | vrem (w : VWord)
  | vand (w : VWord)
  | vor (w : VWord)
  | vxor (w : VWord)
  | vsll (w : VWord)
  | vsrl (w : VWord)
  | vsra (w : VWord)
  | vmin (w : VWord)
  | vmax (w : VWord)
  | vsadd (w : VWord)
  | vssub (w : VWord)
  | vabs (w : VWord)
  | vneg (w : VWord)
  | vnot (w : VWord)
  | vmv (w : VWord)
  | vsel (w : VWord)
  | vclz (w : VWord)
  | vpopc (w : VWord)
  | vmacc (w : VWord)
  | vfadd (w : VWord)
  | vfsub (w : VWord)
  | vfmul (w : VWord)
  | vfdiv (w : VWord)
  | vfsqrt (w : VWord)
  | vfmin (w : VWord)
  | vfmax (w : VWord)
  | vfabs (w : VWord)
  | vfneg (w : VWord)
  | vfsgnj (w : VWord)
  | vfsgnjn (w : VWord)
  | vfsgnjx (w : VWord)
  | vfclass (w : VWord)
  | vfma (w : VWord)
  | vfms (w : VWord)
  | vfnma (w : VWord)
  | vfnms (w : VWord)
  | vceq (w : VWord)
  | vcne (w : VWord)
  | vclt (w : VWord)
  | vcle (w : VWord)
  | vcgt (w : VWord)
  | vcge (w : VWord)
  | vcun (w : VWord)
  | mand (w : VWord)
  | mor (w : VWord)
  | mxor (w : VWord)
  | mandn (w : VWord)
  | mnot (w : VWord)
  | mmv (w : VWord)
  | mset (w : VWord)
  | mclr (w : VWord)
  | vcvt (w : VWord)
  | vpack (w : VWord)
  | vunpack (w : VWord)
  | vsget (w : VWord)
  | vsput (w : VWord)
  | vexp2 (w : VWord)
  | vlog2 (w : VWord)
  | vrcp (w : VWord)
  | vrsqrt (w : VWord)
  | vtanh (w : VWord)
  | vsigm (w : VWord)
  | vredosum (w : VWord)
  | vredtsum (w : VWord)
  | vredmin (w : VWord)
  | vredmax (w : VWord)
  | vredand (w : VWord)
  | vredor (w : VWord)
  | vredxor (w : VWord)
  | vshup (w : VWord)
  | vshdn (w : VWord)
  | vjoinup (w : VWord)
  | vjoindn (w : VWord)
  | vrgatherX1 (w : VWord)
  | vrgatherX2 (w : VWord)
  | vrgatherX4 (w : VWord)
  | vrgatherX8 (w : VWord)
  | vcompress (w : VWord)
  | vexpand (w : VWord)
  | vpcnt (w : VWord)
  | vpcntInc (w : VWord)
  | vfirst (w : VWord)
  | vconflict (w : VWord)
  | vsscanAdd (w : VWord)
  | vsscanMin (w : VWord)
  | vsscanMax (w : VWord)
  | vsscanAnd (w : VWord)
  | vsscanOr (w : VWord)
  | vsscanXor (w : VWord)
  | vextr (w : VWord)
  | vinsrt (w : VWord)
  | vld (w : VWord)
  | vldSt (w : VWord)
  | vldIx (w : VWord)
  | vldff (w : VWord)
  | vst (w : VWord)
  | vstSt (w : VWord)
  | vstIx (w : VWord)
  | vcompressSt (w : VWord)
  | vwload (w : VWord)
  | vmmaX1 (w : VWord)
  | vmmaX2 (w : VWord)
  | vmmaX4 (w : VWord)
  | vmmaX8 (w : VWord)
  | vaccrd (w : VWord)
  | vaccwr (w : VWord)
  | vaccz (w : VWord)
  | dmk (w : VWord)
  | cpy (w : VWord)
  | cpyt (w : VWord)
  | gsg (w : VWord)
  | gss (w : VWord)
  | ewait (w : VWord)
  | estat (w : VWord)
  | winnow (w : VWord)
  | vsrdoAdd (w : VWord)
  | vsrduAdd (w : VWord)
  | vsrduMin (w : VWord)
  | vsrduMax (w : VWord)
  | vsrduAnd (w : VWord)
  | vsrduOr (w : VWord)
  | vsrduXor (w : VWord)
  | chain (w : VWord)
  | run (w : VWord)
  | chwait (w : VWord)
  | chquit (w : VWord)
  | stop (w : VWord)
  | lnkin (w : VWord)
  | lnkout (w : VWord)
  | delay (w : VWord)
  | ereq (w : VWord)
  | eresp (w : VWord)
  | clred (w : VWord)
  | clbcast (w : VWord)
  | clagat (w : VWord)
  | clrsc (w : VWord)
  | clwait (w : VWord)
  | thdec (w : VWord)
  | thand (w : VWord)
  | thor (w : VWord)
  | thwand (w : VWord)
  | thscore (w : VWord)
  | thfuse (w : VWord)
  | thtopk (w : VWord)
  | stripCommit (h : HartId)
  | stripFault (h : HartId)
  | breakRun (h : HartId)
  | temporalStrip (h : HartId)
  | reForm (h : HartId)
  | linkPacket (h : HartId) (dir : Fin 4)
  | scannerPoll (q : Fin 4096)
  | delivery (die : Fin 8)
  | dispatchPass (die : Fin 8)
  | hartStop (h : HartId)
  | reclaimTimeout (h : HartId)
  | taskCompletion (e : EntryId)
  | decrementRetry (e : EntryId)
  | budgetExhausted (e : EntryId)
  | overrun (e : EntryId)
  | deadline (e : EntryId)
  | watchdog (e : EntryId)
  | commandAccept (h : HartId) (ticket : Nat)
  | commandEnd (h : HartId) (ticket : Nat)
  | checkpointPause (h : HartId) (ticket : Nat)
  | engineStall (h : HartId) (ticket : Nat)
  | dataFrame (port : Fin 16) (f : Frame)
  | creditFrame (port : Fin 16) (f : Frame)
  | abortFrame (port : Fin 16) (f : Frame)
  | probeFrame (port : Fin 16) (f : Frame)
  | replyFrame (port : Fin 16) (f : Frame)
  | resendTimeout (h : HartId) (ticket : Nat) (peer chunk : Nat)
  | silenceTimeout (h : HartId) (ticket : Nat) (peer : Nat)
  | unreachablePeer (h : HartId) (ticket : Nat) (peer : Nat)
  | collectiveEnd (h : HartId) (ticket : Nat)
  | collectiveCheckpoint (h : HartId) (ticket : Nat)
  | portReceive (port : Fin 16) (frame : List Byte)
  | portTransmit (port : Fin 16)
  | mgmtRead (tag off len : Nat)
  | mgmtWrite (tag off : Nat) (data : List Byte)
  | getVersion (req : SpdmReq)
  | getCapabilities (req : SpdmReq)
  | negotiateAlgorithms (req : SpdmReq)
  | getDigests (req : SpdmReq)
  | getCertificate (req : SpdmReq)
  | challenge (req : SpdmReq)
  | getMeasurements (req : SpdmReq)
  | unsupportedRequest (req : SpdmReq)
  | resetN
  | cmdRead (cc : Fin 32)
  | cmdWrite (cc : Fin 32)
  | halted (h : HartId)
  | treset (cc : Fin 32)
  | quiescence (ten : Fin 64)
  | trelease (cc : Fin 32)
  | endEntry (cc : Fin 32)
  | answerRetry (cc : Fin 32)
  | answerDecline (cc : Fin 32)
  | fqueue (cc : Fin 32)
  | migrationEnd (obj : Fin 8) (lasting : List (Fin 1024))
  | uncorrectableError (u : ErrUnit) (secondOk : Bool)
  | configRestore (h : HartId)
  | repair (u : SpareUnit)
  | powerSample (milliwatts decidegrees : Nat)
  | priorityFlowControl (port : Fin 16) (prio : Fin 8) (pause : Bool)
  deriving DecidableEq, Repr

/-- The operation of a node word: one name for each row of the table with a 64-bit word. -/
inductive VOp where
  | vadd
  | vsub
  | vrsub
  | vmul
  | vmulh
  | vdiv
  | vrem
  | vand
  | vor
  | vxor
  | vsll
  | vsrl
  | vsra
  | vmin
  | vmax
  | vsadd
  | vssub
  | vabs
  | vneg
  | vnot
  | vmv
  | vsel
  | vclz
  | vpopc
  | vmacc
  | vfadd
  | vfsub
  | vfmul
  | vfdiv
  | vfsqrt
  | vfmin
  | vfmax
  | vfabs
  | vfneg
  | vfsgnj
  | vfsgnjn
  | vfsgnjx
  | vfclass
  | vfma
  | vfms
  | vfnma
  | vfnms
  | vceq
  | vcne
  | vclt
  | vcle
  | vcgt
  | vcge
  | vcun
  | mand
  | mor
  | mxor
  | mandn
  | mnot
  | mmv
  | mset
  | mclr
  | vcvt
  | vpack
  | vunpack
  | vsget
  | vsput
  | vexp2
  | vlog2
  | vrcp
  | vrsqrt
  | vtanh
  | vsigm
  | vredosum
  | vredtsum
  | vredmin
  | vredmax
  | vredand
  | vredor
  | vredxor
  | vshup
  | vshdn
  | vjoinup
  | vjoindn
  | vrgatherX1
  | vrgatherX2
  | vrgatherX4
  | vrgatherX8
  | vcompress
  | vexpand
  | vpcnt
  | vpcntInc
  | vfirst
  | vconflict
  | vsscanAdd
  | vsscanMin
  | vsscanMax
  | vsscanAnd
  | vsscanOr
  | vsscanXor
  | vextr
  | vinsrt
  | vld
  | vldSt
  | vldIx
  | vldff
  | vst
  | vstSt
  | vstIx
  | vcompressSt
  | vwload
  | vmmaX1
  | vmmaX2
  | vmmaX4
  | vmmaX8
  | vaccrd
  | vaccwr
  | vaccz
  | dmk
  | cpy
  | cpyt
  | gsg
  | gss
  | ewait
  | estat
  | winnow
  | vsrdoAdd
  | vsrduAdd
  | vsrduMin
  | vsrduMax
  | vsrduAnd
  | vsrduOr
  | vsrduXor
  | chain
  | run
  | chwait
  | chquit
  | stop
  | lnkin
  | lnkout
  | delay
  | ereq
  | eresp
  | clred
  | clbcast
  | clagat
  | clrsc
  | clwait
  | thdec
  | thand
  | thor
  | thwand
  | thscore
  | thfuse
  | thtopk
  deriving DecidableEq, Repr

/-- Source field width and parts (R37): the queue bit, the register number, the replicate bit, the size code. -/
def srcQ (f : Fin 512) : Bool := f.val / 256 == 1
/-- The register or queue number of a source field (R37). -/
def srcN (f : Fin 512) : Nat := f.val / 8 % 32
/-- The replicate bit of a source field (R37). -/
def srcP (f : Fin 512) : Bool := f.val / 4 % 2 == 1
/-- The segment-size code of a source field (R37). -/
def srcSZ (f : Fin 512) : Nat := f.val % 4

/-- Format VM: the base register (R36). -/
def VWord.gb (w : VWord) : Nat := w.f1.val / 16
/-- Format VM: the index source (R36). -/
def VWord.vi (w : VWord) : Nat := w.f1.val % 16 * 32 + w.f2.val / 16
/-- Format VM: the arrival-chained bit (R36). -/
def VWord.ac (w : VWord) : Nat := w.f2.val / 8 % 2
/-- Format VM: bits [2:0] (R36). -/
def VWord.low3 (w : VWord) : Nat := w.f2.val % 8
/-- Format VG: gd (R36). -/
def VWord.gd (w : VWord) : Nat := w.vd.val / 2
/-- Format VG: ga, which spans the boundary of the first two columns (R36). -/
def VWord.ga (w : VWord) : Nat := w.vd.val % 2 * 16 + w.f1.val / 32
/-- Format VG: gb (R36). -/
def VWord.gbG (w : VWord) : Nat := w.f1.val % 32
/-- Format VG: gc (R36). -/
def VWord.gc (w : VWord) : Nat := w.f3.val / 16
/-- Format VG: bits [58:55] (R36). -/
def VWord.z4 (w : VWord) : Nat := w.f3.val % 16

end Sys2Proof
end

