-- ==== Sys2Proof/Config.lean ====
section
/-! DEFINITION. What the implementation fixes, and the free values: constants without a body, of which nothing can be
proved, so that a theorem holds whatever they are. -/

namespace Sys2Proof
namespace Config

/-- `FVER` of the ZM3 (spec/02_encoding.md R54). -/
def fver : Word := 0x0000000300030000#64

/-- `FEAT0`-`FEAT3` of the ZM3 (R55). -/
def feat : Nat → Word
  | 0 => 0x0000000100010001#64
  | 1 => 0x000000FF0000001F#64
  | 2 => 0x00000000003FFFFF#64
  | _ => 0#64

/-- Feature n is present when bit n mod 64 of FEAT(n div 64) is 1 (R55). -/
def hasFeature (n : Nat) : Bool := (feat (n / 64)).getLsbD (n % 64)

/-- FREE VALUE (log 5): the counter of an entry whose ring slot cannot be read (spec/14_harts_kiln.md R329), at a tick. -/
opaque unreadCounter : Nat → BitVec 16

/-- FREE VALUE (log 10): whether a `vcrest` that faults, at a tick, has restored the doubleword at an offset of its image
(spec/17_traps.md R413). -/
opaque restored : Nat → Nat → Bool

/-- FREE VALUE (log 5): LEFT of an entry that is not delivered, which has no deadline yet (spec/16_isolation.md R373), at a
tick. -/
opaque undeliveredLeft : Nat → Word

/-- FREE VALUE (log 5): what a source element beyond a register's capacity reads in a chain (spec/13_chains.md R291). -/
opaque beyondCapacity : Nat → Nat

/-- FREE VALUE (log 27): what a link unit of one width reads as at another width (spec/13_chains.md R298).-/
opaque foreignUnit : Nat → Nat → Nat → Nat

/-- FREE VALUE (log 11): the fused SHA-512 hash of the image key (spec/16_isolation.md R381). -/
opaque keyHash : BitVec 512

/-- FREE VALUE (log 11): the SHA-512 of the fuse words (R380). -/
opaque fuseDigest : BitVec 512

/-- FREE VALUE (log 11): the fused minimum security version of an image kind (R381). -/
opaque minSvn : Nat → Nat

/-- FREE VALUE (log 11): the fused device serial (R386). -/
opaque serial : Word

/-- FREE VALUE (log 11): the certificate chain of SPDM slot 0, as the responder presents it (R383). -/
opaque certChain : List Byte

/-- FREE VALUE (log 11): a field of a CAPABILITIES message that the spec does not give (R383): 0 CTExponent, 1 DataTransferSize,
2 MaxSPDMmsgSize. -/
opaque spdmField : Nat → Nat

/-- FREE VALUE (log 11): what kind of measurement an index holds, as SPDM names it (R383). -/
opaque measurementKind : Nat → BitVec 7

/-- FREE VALUE (log 11): the summary of the measurements of the trusted computing base, which the spec does not name (R383), at a
tick. -/
opaque tcbSummary : Nat → BitVec 512

/-- FREE VALUE (log 11): the responder's nonce at a tick (R383). -/
opaque spdmNonce : Nat → BitVec 256

/-- FREE VALUE (log 11): the signature by the device identity key, whose private part nothing reads out (R383), at a tick. -/
opaque spdmSignature : Nat → BitVec 4096

/-- FREE VALUE (log 30): OFFSET of a REPLY of the management port (R384), at a tick. -/
opaque replyOffset : Nat → BitVec 32

/-- FREE VALUE (log 29): the lines that share a row or column of HBM4E (0) or a channel (1) with a line: the spec does not give
their numbering (R423). -/
opaque hbmLines : Nat → Nat → List Nat

/-- FREE VALUE (log 42): the unit of a hart's saved vector state that lies in a line of its save rows, whose layout is not visible
(spec/17_traps.md R405), as a kind, a number and a place. -/
opaque savedUnit : Nat → Nat × Nat × Nat

/-- FREE VALUE (log 29): the tenancy that owns a frame of HBM4E at a tick (spec/18_ras.md R420): the spec does not say where the
machine keeps it. -/
opaque frameOwner : Nat → Nat → BitVec 6

/-- FREE VALUE (log 29): word 1 of a record of an uncorrectable error or a repair in a structure that has no bank, lane or link
number, or of a change of clock step, and the `XVAL` of a poisoned copy of a chain's block (R417, R420), at a tick. -/
opaque unstatedWord : Nat → Word

/-- FREE VALUE (log 29): a temporal strip reads a line of its chain's reserve, by the strip and the line: the spec gives the reserve no
layout (spec/13_chains.md R288). -/
opaque reserveRead : Nat → Nat → Bool

/-- FREE VALUE (log 29): the `XVAL` of a run that meets the poison of such a line, at a tick and a strip. -/
opaque reserveXval : Nat → Nat → Word

/-- FREE VALUE (log 29): the lasting error of a line of HBM4E that a migration reads is that of its channel, and not of its row or
column (spec/18_ras.md R423), at a tick. -/
opaque channelFails : Nat → Bool

/-- FREE VALUE (log 29): STRUCT of a record of a replaced or retired core or of a change of clock step (R420), at a tick. -/
opaque unstatedStruct : Nat → Nat

/-- FREE VALUE (log 29): a spare is left for a row or column of HBM4E, a channel or a wire group, of which the spec does not say
how many there are (R423), at a tick. -/
opaque spareLeft : Nat → Bool

/-- FREE VALUE (log 12): a value that an uncorrectable error has left in a unit whose second read fails (spec/18_ras.md
R417, R418). -/
opaque lostByte : Nat → Byte

end Config
end Sys2Proof
end

