-- ==== Sys2Proof/WellFormed.lean ====
section
/-! DEFINITION. When an instruction is well formed: tests 3, 4 and 5 of spec/02_encoding.md R51, as decidable checks on
the syntax. Tests 1 and 2 (the major opcode) are the decoder's; test 6 (the mode) and the control-core clause of test 5 are
the machine's. -/

namespace Sys2Proof

/-- Where a node word stands (R47): inline, or in a chain block. -/
inductive Place where
  | inline
  | chain
  deriving DecidableEq, Repr

/-- Type codes 0-7, the integer types (R40). -/
def intTy (t : Nat) : Bool := t < 8
/-- f64, f32, bf16 and f16 (R40). -/
def fltTy (t : Nat) : Bool := 8 ≤ t && t < 12
/-- f32, bf16 and f16 (R40). -/
def nrwTy (t : Nat) : Bool := 9 ≤ t && t < 12
/-- The block types, codes 17-21 (R40, R84). -/
def blkTy (t : Nat) : Bool := 17 ≤ t && t < 22
/-- The types of `vmma` (R155). -/
def mmaTy (t : Nat) : Bool := blkTy t || t == 10 || t == 11

/-- vm = 1000 is not a selector (R39). -/
def maskOk (w : VWord) : Bool := w.vm.val != 8

/-- Format VA: an unused operand is zero, rm is 0 where the form does not round, and X = 1 leaves vs2[8] and vs2[2:0]
zero (R36, R41, R42). -/
def vaOk (w : VWord) (b c rnd : Bool) : Bool :=
  maskOk w && (b || (w.f2.val == 0 && w.x.val == 0)) && (c || w.f3.val == 0) && (rnd || w.rm.val == 0) &&
  (w.x.val == 0 || (w.f2.val < 256 && w.f2.val % 8 == 0))

/-- A field that names a mask in bits [5:3] alone (R135, R170). -/
def maskFld (f : Fin 512) : Bool := f.val < 64 && f.val % 8 == 0
/-- A field that names an accumulator row in bits [5:3] alone (R161). -/
def rowFld (f : Fin 512) : Bool := f.val < 64 && f.val % 8 == 0
/-- A register group: Q = 0, P = SZ = 0, n a multiple of k (R155, R170). -/
def regFld (f : Fin 512) (k : Nat) : Bool := f.val < 256 && f.val % 8 == 0 && srcN f % k == 0
/-- A g register in the index field of format VM: [8] = 0 and [2:0] = 0 (R219). -/
def gFld (v : Nat) : Bool := v < 256 && v % 8 == 0
/-- A queue source of a node-only form: Q = 1, P = SZ = 0 (R284). -/
def qSrc (f : Fin 512) : Bool := srcQ f && f.val % 8 == 0
/-- A queue destination (R38). -/
def qDst (v : Fin 64) : Bool := 32 ≤ v.val

/-- Mask forms of major 0x04 (R135). Their vt is a field that must be zero (R35, R48). -/
def maskOpOk (w : VWord) : Bool :=
  w.vt.val == 0 && w.vm.val == 0 && w.rm.val == 0 && w.x.val == 0 && w.f3.val == 0 && w.vd.val < 8
/-- Conversions of major 0x05: the source type in vs2[4:0], the part in vs3[6:3] (R136). -/
def cvtOk (w : VWord) : Bool :=
  maskOk w && w.x.val == 0 && w.f2.val < 32 && w.f3.val < 128 && w.f3.val % 8 == 0
/-- Format VM: rm and X as stated, bits [2:0] zero, and no odd off9 with e2m1 (R36, R219). -/
def vmOk (w : VWord) : Bool :=
  maskOk w && w.x.val == 0 && w.low3 == 0 && (w.vt.val != 16 || w.f3.val % 2 == 0)
/-- The index field of format VM as a source field. -/
def viFld (w : VWord) : Fin 512 := Fin.ofNat 512 w.vi
/-- The second source when it names a register or queue (R42). -/
def bsrc (w : VWord) : List (Fin 512) := if w.x.val == 0 then [w.f2] else []
/-- The field rules of `vmma`, its vt among them (R155). -/
def mmaOk (p : Place) (w : VWord) : Bool :=
  mmaTy w.vt.val && w.rm.val == 0 && w.x.val == 0 && maskOk w && regFld w.f2 8 && w.f1.val % 8 == 0 &&
  (match p with
   | .inline => w.vd.val < 8 && !srcQ w.f1 && w.f3.val == 0
   | .chain => qDst w.vd && srcQ w.f1 && (w.f3.val == 0 || qSrc w.f3))
/-- Format VG: unmasked, X = 0, [58:55] zero (R36). -/
def vgOk (w : VWord) : Bool := w.vm.val == 0 && w.x.val == 0 && w.z4 == 0
/-- A form of format VG without type and rounding: vt and rm are fields that must be zero (R266, R285, R347; log 32). -/
def vgPlain (w : VWord) : Bool := vgOk w && w.vt.val == 0 && w.rm.val == 0
/-- Format VN: vm, rm, X and prm2 zero (R284). -/
def vnOk (w : VWord) : Bool := w.vm.val == 0 && w.rm.val == 0 && w.x.val == 0 && w.f3.val == 0
/-- A Thresher stream operand (R192). -/
def thStream (p : Place) (f : Fin 512) : Bool := f.val % 8 == 0 && (srcQ f == (p == .chain))
/-- A Thresher parameter operand (R192). -/
def thParam (f : Fin 512) : Bool := f.val % 8 == 0 && !srcQ f
/-- The fixed fields of a Thresher form (R192). -/
def thOk (p : Place) (w : VWord) : Bool :=
  w.vt.val == 0 && w.vm.val == 0 && w.rm.val == 0 && w.x.val == 0 && (qDst w.vd == (p == .chain))

/-- The rounding codes a scalar floating-point form accepts (R41): 0-4 and 7. -/
def scalarRm (rm : Fin 8) : Bool := rm.val < 5 || rm.val == 7

/-- Test 3 of R51 for a node word: every field that a form does not use is zero, and every sub-operation is assigned. The type code of
a form that has one is left to tests 4 and 5, where R51 puts it, except in `vmma`, `vaccrd` and `vaccwr`, whose own rules count vt among
the fields of test 3 (R155, R161). -/
def vcheck3 (p : Place) (w : VWord) : VOp → Bool
  | .vadd => vaOk w true false false
  | .vsub => vaOk w true false false
  | .vrsub => vaOk w true false false
  | .vmul => vaOk w true false false
  | .vmulh => vaOk w true false false
  | .vdiv => vaOk w true false false
  | .vrem => vaOk w true false false
  | .vand => vaOk w true false false
  | .vor => vaOk w true false false
  | .vxor => vaOk w true false false
  | .vsll => vaOk w true false false
  | .vsrl => vaOk w true false false
  | .vsra => vaOk w true false false
  | .vmin => vaOk w true false false
  | .vmax => vaOk w true false false
  | .vsadd => vaOk w true false false
  | .vssub => vaOk w true false false
  | .vabs => vaOk w false false false
  | .vneg => vaOk w false false false
  | .vnot => vaOk w false false false
  | .vmv => vaOk w false false false
  | .vsel => vaOk w true false false && w.vm.val < 8
  | .vclz => vaOk w false false false
  | .vpopc => vaOk w false false false
  | .vmacc => vaOk w true true false
  | .vfadd => vaOk w true false true
  | .vfsub => vaOk w true false true
  | .vfmul => vaOk w true false true
  | .vfdiv => vaOk w true false true
  | .vfsqrt => vaOk w false false true
  | .vfmin => vaOk w true false false
  | .vfmax => vaOk w true false false
  | .vfabs => vaOk w false false false
  | .vfneg => vaOk w false false false
  | .vfsgnj => vaOk w true false false
  | .vfsgnjn => vaOk w true false false
  | .vfsgnjx => vaOk w true false false
  | .vfclass => vaOk w false false false
  | .vfma => vaOk w true true true
  | .vfms => vaOk w true true true
  | .vfnma => vaOk w true true true
  | .vfnms => vaOk w true true true
  | .vceq => w.vd.val < 8 && vaOk w true false false
  | .vcne => w.vd.val < 8 && vaOk w true false false
  | .vclt => w.vd.val < 8 && vaOk w true false false
  | .vcle => w.vd.val < 8 && vaOk w true false false
  | .vcgt => w.vd.val < 8 && vaOk w true false false
  | .vcge => w.vd.val < 8 && vaOk w true false false
  | .vcun => w.vd.val < 8 && vaOk w true false false
  | .mand => maskOpOk w && maskFld w.f1 && maskFld w.f2
  | .mor => maskOpOk w && maskFld w.f1 && maskFld w.f2
  | .mxor => maskOpOk w && maskFld w.f1 && maskFld w.f2
  | .mandn => maskOpOk w && maskFld w.f1 && maskFld w.f2
  | .mnot => maskOpOk w && maskFld w.f1 && w.f2.val == 0
  | .mmv => maskOpOk w && maskFld w.f1 && w.f2.val == 0
  | .mset => maskOpOk w && w.f1.val == 0 && w.f2.val == 0
  | .mclr => maskOpOk w && w.f1.val == 0 && w.f2.val == 0
  | .vcvt => cvtOk w && (!(intTy w.vt.val && intTy w.f2.val) || w.rm.val == 0)
  | .vpack => cvtOk w
  | .vunpack => cvtOk w
  | .vsget => vaOk w false false false
  | .vsput => vaOk w false false false
  | .vexp2 => vaOk w false false true
  | .vlog2 => vaOk w false false true
  | .vrcp => vaOk w false false true
  | .vrsqrt => vaOk w false false true
  | .vtanh => vaOk w false false true
  | .vsigm => vaOk w false false true
  | .vredosum => w.x.val == 0 && vaOk w true false (!intTy w.vt.val)
  | .vredtsum => w.x.val == 0 && vaOk w true false (!intTy w.vt.val)
  | .vredmin => w.x.val == 0 && vaOk w true false false
  | .vredmax => w.x.val == 0 && vaOk w true false false
  | .vredand => w.x.val == 0 && vaOk w true false false
  | .vredor => w.x.val == 0 && vaOk w true false false
  | .vredxor => w.x.val == 0 && vaOk w true false false
  | .vshup => w.x.val == 1 && vaOk w true false false
  | .vshdn => w.x.val == 1 && vaOk w true false false
  | .vjoinup => w.x.val == 1 && vaOk w true true false && (p == .inline || !srcQ w.f3)
  | .vjoindn => w.x.val == 1 && vaOk w true true false && (p == .inline || !srcQ w.f3)
  | .vrgatherX1 => vaOk w true false false && regFld w.f1 1
  | .vrgatherX2 => vaOk w true false false && regFld w.f1 2
  | .vrgatherX4 => vaOk w true false false && regFld w.f1 4
  | .vrgatherX8 => vaOk w true false false && regFld w.f1 8
  | .vcompress => vaOk w false false false
  | .vexpand => vaOk w false false false
  | .vpcnt => maskFld w.f1 && vaOk w true true false && (w.x.val == 1 || w.f2.val == 0) && w.f3.val == 0
  | .vpcntInc => maskFld w.f1 && vaOk w true true false && (w.x.val == 1 || w.f2.val == 0) && w.f3.val == 8
  | .vfirst => w.vd.val < 32 && maskFld w.f1 && vaOk w false false false
  | .vconflict => vaOk w false false false
  | .vsscanAdd => w.x.val == 0 && maskFld w.f2 && w.f3.val == 0 && vaOk w true true (!intTy w.vt.val)
  | .vsscanMin => w.x.val == 0 && maskFld w.f2 && w.f3.val == 8 && vaOk w true true false
  | .vsscanMax => w.x.val == 0 && maskFld w.f2 && w.f3.val == 16 && vaOk w true true false
  | .vsscanAnd => w.x.val == 0 && maskFld w.f2 && w.f3.val == 24 && vaOk w true true false
  | .vsscanOr => w.x.val == 0 && maskFld w.f2 && w.f3.val == 32 && vaOk w true true false
  | .vsscanXor => w.x.val == 0 && maskFld w.f2 && w.f3.val == 40 && vaOk w true true false
  | .vextr => w.vd.val < 32 && w.x.val == 1 && w.vm.val == 0 && vaOk w true false false
  | .vinsrt => w.f1.val < 256 && w.f1.val % 8 == 0 && w.x.val == 1 && w.vm.val == 0 && vaOk w true false false
  | .vld => vmOk w && w.vi == 0 && w.rm.val == 0
  | .vldSt => vmOk w && gFld w.vi && w.rm.val == 0
  | .vldIx => vmOk w && true && w.rm.val == 0
  | .vldff => vmOk w && w.vi == 0 && w.rm.val == 0
  | .vst => vmOk w && w.vi == 0 && w.ac == 0 && w.vm.val < 8 && w.rm.val == 0
  | .vstSt => vmOk w && gFld w.vi && w.ac == 0 && w.vm.val < 8 && w.rm.val == 0
  | .vstIx => vmOk w && true && w.ac == 0 && w.vm.val < 8 && w.rm.val == 0
  | .vcompressSt => vmOk w && w.vi == 0 && w.ac == 0 && w.vm.val < 8 && w.rm.val == 0
  | .vwload => w.vd.val == 0 && regFld w.f1 8 && w.f2.val == 0 && w.f3.val == 0 && w.vm.val == 0 && w.rm.val == 0 && w.x.val == 0
  | .vmmaX1 => mmaOk p w
  | .vmmaX2 => mmaOk p w
  | .vmmaX4 => mmaOk p w
  | .vmmaX8 => mmaOk p w
  | .vaccrd => w.vt.val == 9 && w.f1.val < 8 && w.f2.val == 0 && rowFld w.f3 && vaOk w true true false && w.x.val == 0
  | .vaccwr => w.vt.val == 9 && w.vd.val < 8 && w.f2.val == 0 && rowFld w.f3 && vaOk w true true false && w.x.val == 0
  | .vaccz => w.vt.val == 0 && w.vd.val < 8 && w.f1.val == 0 && w.f2.val == 0 && w.f3.val == 0 && w.vm.val == 0 && w.rm.val == 0 && w.x.val == 0
  | .dmk => vgPlain w && w.f2.val < 16
  | .cpy => vgPlain w && w.f2.val < 256 && w.ga == 0 && w.gbG == 0 && w.gc == 0
  | .cpyt => vgPlain w && w.f2.val < 256 && w.gbG == 0 && w.gc == 0
  | .gsg => vgPlain w && w.f2.val < 256 && w.gbG == 0 && w.gc == 0
  | .gss => vgPlain w && w.f2.val < 256 && w.gbG == 0 && w.gc == 0
  | .ewait => vgPlain w && w.f2.val == 0 && w.gbG == 0 && w.gc == 0
  | .estat => vgPlain w && w.f2.val == 0 && w.gbG == 0 && w.gc == 0
  | .winnow => vgPlain w && w.f2.val < 256 && w.gc == 0
  | .vsrdoAdd => vmOk w && true && w.ac == 0 && w.vm.val < 8 && (fltTy w.vt.val || w.rm.val == 0)
  | .vsrduAdd => vmOk w && true && w.ac == 0 && w.vm.val < 8 && w.rm.val == 0
  | .vsrduMin => vmOk w && true && w.ac == 0 && w.vm.val < 8 && w.rm.val == 0
  | .vsrduMax => vmOk w && true && w.ac == 0 && w.vm.val < 8 && w.rm.val == 0
  | .vsrduAnd => vmOk w && true && w.ac == 0 && w.vm.val < 8 && w.rm.val == 0
  | .vsrduOr => vmOk w && true && w.ac == 0 && w.vm.val < 8 && w.rm.val == 0
  | .vsrduXor => vmOk w && true && w.ac == 0 && w.vm.val < 8 && w.rm.val == 0
  | .chain => vgPlain w && w.gd == 0 && w.gbG == 0 && w.f2.val == 0 && w.gc == 0
  | .run => vgPlain w && w.gd == 0 && w.gbG == 0 && w.f2.val == 0 && w.gc == 0
  | .chwait => vgPlain w && w.ga == 0 && w.gbG == 0 && w.f2.val == 0 && w.gc == 0
  | .chquit => vgPlain w && w.gd == 0 && w.ga == 0 && w.gbG == 0 && w.f2.val == 0 && w.gc == 0
  | .stop => vnOk w && w.vd.val == 0 && w.f1.val == 0 && w.f2.val == 0 && w.vt.val == 0
  | .lnkin => vnOk w && qDst w.vd && w.f1.val == 0 && w.f2.val < 4
  | .lnkout => vnOk w && w.vd.val == 0 && qSrc w.f1 && w.f2.val < 4
  | .delay => vnOk w && qDst w.vd && qSrc w.f1 && w.f2.val < 256
  | .ereq => vnOk w && w.vd.val == 0 && qSrc w.f1 && w.f2.val < 32
  | .eresp => vnOk w && qDst w.vd && w.f1.val == 0 && w.f2.val < 32
  | .clred => vgOk w && w.gc == 0 && w.f2.val < 256
  | .clbcast => vgPlain w && w.gc == 0 && w.f2.val < 256 && w.gbG == 0
  | .clagat => vgPlain w && w.gc == 0 && w.f2.val < 256 && w.gbG == 0
  | .clrsc => vgOk w && w.gc == 0 && w.f2.val < 256
  | .clwait => vgPlain w && w.gc == 0 && w.f2.val == 0 && w.gbG == 0
  | .thdec => thOk p w && thStream p w.f1 && w.f2.val == 0 && w.f3.val == 0
  | .thand => thOk p w && thStream p w.f1 && thStream p w.f2 && w.f3.val == 0
  | .thor => thOk p w && thStream p w.f1 && thStream p w.f2 && w.f3.val == 0
  | .thwand => thOk p w && thStream p w.f1 && thParam w.f2 && w.f3.val == 0
  | .thscore => thOk p w && thStream p w.f1 && thParam w.f2 && w.f3.val == 0
  | .thfuse => thOk p w && thStream p w.f1 && thStream p w.f2 && thParam w.f3
  | .thtopk => thOk p w && thStream p w.f1 && thParam w.f2 && w.f3.val == 0

/-- The operation and fields of a node word, for the words that are node words. -/
def nodeOf : Instr → Option (VOp × VWord)
  | .vadd w => some (.vadd, w)
  | .vsub w => some (.vsub, w)
  | .vrsub w => some (.vrsub, w)
  | .vmul w => some (.vmul, w)
  | .vmulh w => some (.vmulh, w)
  | .vdiv w => some (.vdiv, w)
  | .vrem w => some (.vrem, w)
  | .vand w => some (.vand, w)
  | .vor w => some (.vor, w)
  | .vxor w => some (.vxor, w)
  | .vsll w => some (.vsll, w)
  | .vsrl w => some (.vsrl, w)
  | .vsra w => some (.vsra, w)
  | .vmin w => some (.vmin, w)
  | .vmax w => some (.vmax, w)
  | .vsadd w => some (.vsadd, w)
  | .vssub w => some (.vssub, w)
  | .vabs w => some (.vabs, w)
  | .vneg w => some (.vneg, w)
  | .vnot w => some (.vnot, w)
  | .vmv w => some (.vmv, w)
  | .vsel w => some (.vsel, w)
  | .vclz w => some (.vclz, w)
  | .vpopc w => some (.vpopc, w)
  | .vmacc w => some (.vmacc, w)
  | .vfadd w => some (.vfadd, w)
  | .vfsub w => some (.vfsub, w)
  | .vfmul w => some (.vfmul, w)
  | .vfdiv w => some (.vfdiv, w)
  | .vfsqrt w => some (.vfsqrt, w)
  | .vfmin w => some (.vfmin, w)
  | .vfmax w => some (.vfmax, w)
  | .vfabs w => some (.vfabs, w)
  | .vfneg w => some (.vfneg, w)
  | .vfsgnj w => some (.vfsgnj, w)
  | .vfsgnjn w => some (.vfsgnjn, w)
  | .vfsgnjx w => some (.vfsgnjx, w)
  | .vfclass w => some (.vfclass, w)
  | .vfma w => some (.vfma, w)
  | .vfms w => some (.vfms, w)
  | .vfnma w => some (.vfnma, w)
  | .vfnms w => some (.vfnms, w)
  | .vceq w => some (.vceq, w)
  | .vcne w => some (.vcne, w)
  | .vclt w => some (.vclt, w)
  | .vcle w => some (.vcle, w)
  | .vcgt w => some (.vcgt, w)
  | .vcge w => some (.vcge, w)
  | .vcun w => some (.vcun, w)
  | .mand w => some (.mand, w)
  | .mor w => some (.mor, w)
  | .mxor w => some (.mxor, w)
  | .mandn w => some (.mandn, w)
  | .mnot w => some (.mnot, w)
  | .mmv w => some (.mmv, w)
  | .mset w => some (.mset, w)
  | .mclr w => some (.mclr, w)
  | .vcvt w => some (.vcvt, w)
  | .vpack w => some (.vpack, w)
  | .vunpack w => some (.vunpack, w)
  | .vsget w => some (.vsget, w)
  | .vsput w => some (.vsput, w)
  | .vexp2 w => some (.vexp2, w)
  | .vlog2 w => some (.vlog2, w)
  | .vrcp w => some (.vrcp, w)
  | .vrsqrt w => some (.vrsqrt, w)
  | .vtanh w => some (.vtanh, w)
  | .vsigm w => some (.vsigm, w)
  | .vredosum w => some (.vredosum, w)
  | .vredtsum w => some (.vredtsum, w)
  | .vredmin w => some (.vredmin, w)
  | .vredmax w => some (.vredmax, w)
  | .vredand w => some (.vredand, w)
  | .vredor w => some (.vredor, w)
  | .vredxor w => some (.vredxor, w)
  | .vshup w => some (.vshup, w)
  | .vshdn w => some (.vshdn, w)
  | .vjoinup w => some (.vjoinup, w)
  | .vjoindn w => some (.vjoindn, w)
  | .vrgatherX1 w => some (.vrgatherX1, w)
  | .vrgatherX2 w => some (.vrgatherX2, w)
  | .vrgatherX4 w => some (.vrgatherX4, w)
  | .vrgatherX8 w => some (.vrgatherX8, w)
  | .vcompress w => some (.vcompress, w)
  | .vexpand w => some (.vexpand, w)
  | .vpcnt w => some (.vpcnt, w)
  | .vpcntInc w => some (.vpcntInc, w)
  | .vfirst w => some (.vfirst, w)
  | .vconflict w => some (.vconflict, w)
  | .vsscanAdd w => some (.vsscanAdd, w)
  | .vsscanMin w => some (.vsscanMin, w)
  | .vsscanMax w => some (.vsscanMax, w)
  | .vsscanAnd w => some (.vsscanAnd, w)
  | .vsscanOr w => some (.vsscanOr, w)
  | .vsscanXor w => some (.vsscanXor, w)
  | .vextr w => some (.vextr, w)
  | .vinsrt w => some (.vinsrt, w)
  | .vld w => some (.vld, w)
  | .vldSt w => some (.vldSt, w)
  | .vldIx w => some (.vldIx, w)
  | .vldff w => some (.vldff, w)
  | .vst w => some (.vst, w)
  | .vstSt w => some (.vstSt, w)
  | .vstIx w => some (.vstIx, w)
  | .vcompressSt w => some (.vcompressSt, w)
  | .vwload w => some (.vwload, w)
  | .vmmaX1 w => some (.vmmaX1, w)
  | .vmmaX2 w => some (.vmmaX2, w)
  | .vmmaX4 w => some (.vmmaX4, w)
  | .vmmaX8 w => some (.vmmaX8, w)
  | .vaccrd w => some (.vaccrd, w)
  | .vaccwr w => some (.vaccwr, w)
  | .vaccz w => some (.vaccz, w)
  | .dmk w => some (.dmk, w)
  | .cpy w => some (.cpy, w)
  | .cpyt w => some (.cpyt, w)
  | .gsg w => some (.gsg, w)
  | .gss w => some (.gss, w)
  | .ewait w => some (.ewait, w)
  | .estat w => some (.estat, w)
  | .winnow w => some (.winnow, w)
  | .vsrdoAdd w => some (.vsrdoAdd, w)
  | .vsrduAdd w => some (.vsrduAdd, w)
  | .vsrduMin w => some (.vsrduMin, w)
  | .vsrduMax w => some (.vsrduMax, w)
  | .vsrduAnd w => some (.vsrduAnd, w)
  | .vsrduOr w => some (.vsrduOr, w)
  | .vsrduXor w => some (.vsrduXor, w)
  | .chain w => some (.chain, w)
  | .run w => some (.run, w)
  | .chwait w => some (.chwait, w)
  | .chquit w => some (.chquit, w)
  | .stop w => some (.stop, w)
  | .lnkin w => some (.lnkin, w)
  | .lnkout w => some (.lnkout, w)
  | .delay w => some (.delay, w)
  | .ereq w => some (.ereq, w)
  | .eresp w => some (.eresp, w)
  | .clred w => some (.clred, w)
  | .clbcast w => some (.clbcast, w)
  | .clagat w => some (.clagat, w)
  | .clrsc w => some (.clrsc, w)
  | .clwait w => some (.clwait, w)
  | .thdec w => some (.thdec, w)
  | .thand w => some (.thand, w)
  | .thor w => some (.thor, w)
  | .thwand w => some (.thwand, w)
  | .thscore w => some (.thscore, w)
  | .thfuse w => some (.thfuse, w)
  | .thtopk w => some (.thtopk, w)
  | _ => none

/-- Test 3 of R51 for a 32-bit word. Reserved order codes and scopes are unassigned sub-operations (R45). -/
def scheck3 : Instr → Bool
  | .amoswap _ _ _ _ ord | .amoadd _ _ _ _ ord | .amoand _ _ _ _ ord | .amoor _ _ _ _ ord | .amoxor _ _ _ _ ord
  | .amomin _ _ _ _ ord | .amomax _ _ _ _ ord | .amominu _ _ _ _ ord | .amomaxu _ _ _ _ ord
  | .amocas _ _ _ _ ord => ord.val < 4
  | .fenceSv scope | .fenceVs scope | .fenceVv scope | .fenceAll scope => scope.val < 5
  | _ => true

/-- Test 3 of R51. -/
def check3 (p : Place) (i : Instr) : Bool :=
  match nodeOf i with
  | some (op, w) => vcheck3 p w op
  | none => scheck3 i

/-- The feature numbers that a node word's field values call on (R56): its type codes, rm code 5, the AC bit, the link
forms and floating-point `vsrdo.add`. -/
def vfeatures (w : VWord) (op : VOp) : List Nat :=
  [128 + w.vt.val] ++
  (match op with
   | .vcvt | .vpack | .vunpack => [128 + w.f2.val]
   | .vld | .vldSt | .vldIx | .vldff => if w.ac == 1 then [98] else []
   | .lnkin | .lnkout => [102]
   | .vsrdoAdd => if w.vt.val == 8 || w.vt.val == 9 then [103] else []
   | _ => []) ++
  (if w.rm.val == 5 then [99] else [])

/-- The feature numbers that a word's field values call on. -/
def usedFeatures : Instr → List Nat
  | .setvl _ _ ty _ _ => [128 + ty.val]
  | .setvli _ ty _ => [128 + ty.val]
  | i => match nodeOf i with
    | some (op, w) => vfeatures w op
    | none => []

/-- The lowest absent feature of a list. -/
def lowestAbsent (l : List Nat) : Option Nat := (l.filter (fun n => !Config.hasFeature n)).min?

/-- Test 4 of R51: the lowest absent feature that the word's field values call on. -/
def check4 (i : Instr) : Option Nat := lowestAbsent (usedFeatures i)

/-- The types each form of node word accepts (R48, R171, R284, R347). -/
def vtypeOk (w : VWord) : VOp → Bool
  | .vadd => intTy w.vt.val
  | .vsub => intTy w.vt.val
  | .vrsub => intTy w.vt.val
  | .vmul => intTy w.vt.val
  | .vmulh => intTy w.vt.val
  | .vdiv => intTy w.vt.val
  | .vrem => intTy w.vt.val
  | .vand => intTy w.vt.val
  | .vor => intTy w.vt.val
  | .vxor => intTy w.vt.val
  | .vsll => intTy w.vt.val
  | .vsrl => intTy w.vt.val
  | .vsra => intTy w.vt.val
  | .vmin => intTy w.vt.val
  | .vmax => intTy w.vt.val
  | .vsadd => intTy w.vt.val
  | .vssub => intTy w.vt.val
  | .vabs => intTy w.vt.val
  | .vneg => intTy w.vt.val
  | .vnot => intTy w.vt.val
  | .vmv => w.vt.val < 17
  | .vsel => w.vt.val < 17
  | .vclz => intTy w.vt.val
  | .vpopc => intTy w.vt.val
  | .vmacc => intTy w.vt.val
  | .vfadd => fltTy w.vt.val
  | .vfsub => fltTy w.vt.val
  | .vfmul => fltTy w.vt.val
  | .vfdiv => fltTy w.vt.val
  | .vfsqrt => fltTy w.vt.val
  | .vfmin => fltTy w.vt.val
  | .vfmax => fltTy w.vt.val
  | .vfabs => fltTy w.vt.val
  | .vfneg => fltTy w.vt.val
  | .vfsgnj => fltTy w.vt.val
  | .vfsgnjn => fltTy w.vt.val
  | .vfsgnjx => fltTy w.vt.val
  | .vfclass => fltTy w.vt.val
  | .vfma => fltTy w.vt.val
  | .vfms => fltTy w.vt.val
  | .vfnma => fltTy w.vt.val
  | .vfnms => fltTy w.vt.val
  | .vceq => w.vt.val < 12
  | .vcne => w.vt.val < 12
  | .vclt => w.vt.val < 12
  | .vcle => w.vt.val < 12
  | .vcgt => w.vt.val < 12
  | .vcge => w.vt.val < 12
  | .vcun => fltTy w.vt.val
  | .mand => w.vt.val == 0
  | .mor => w.vt.val == 0
  | .mxor => w.vt.val == 0
  | .mandn => w.vt.val == 0
  | .mnot => w.vt.val == 0
  | .mmv => w.vt.val == 0
  | .mset => w.vt.val == 0
  | .mclr => w.vt.val == 0
  | .vcvt => w.vt.val < 17 && w.f2.val < 17 && w.vt.val != w.f2.val
  | .vpack => blkTy w.vt.val && nrwTy w.f2.val
  | .vunpack => nrwTy w.vt.val && blkTy w.f2.val
  | .vsget => blkTy w.vt.val
  | .vsput => blkTy w.vt.val
  | .vexp2 => nrwTy w.vt.val
  | .vlog2 => nrwTy w.vt.val
  | .vrcp => nrwTy w.vt.val
  | .vrsqrt => nrwTy w.vt.val
  | .vtanh => nrwTy w.vt.val
  | .vsigm => nrwTy w.vt.val
  | .vredosum => w.vt.val < 12
  | .vredtsum => w.vt.val < 12
  | .vredmin => w.vt.val < 12
  | .vredmax => w.vt.val < 12
  | .vredand => intTy w.vt.val
  | .vredor => intTy w.vt.val
  | .vredxor => intTy w.vt.val
  | .vshup => w.vt.val < 17
  | .vshdn => w.vt.val < 17
  | .vjoinup => w.vt.val < 17
  | .vjoindn => w.vt.val < 17
  | .vrgatherX1 => w.vt.val < 17
  | .vrgatherX2 => w.vt.val < 17
  | .vrgatherX4 => w.vt.val < 17
  | .vrgatherX8 => w.vt.val < 17
  | .vcompress => w.vt.val < 17
  | .vexpand => w.vt.val < 17
  | .vpcnt => intTy w.vt.val
  | .vpcntInc => intTy w.vt.val
  | .vfirst => w.vt.val < 17
  | .vconflict => w.vt.val < 17
  | .vsscanAdd => w.vt.val < 12
  | .vsscanMin => w.vt.val < 12
  | .vsscanMax => w.vt.val < 12
  | .vsscanAnd => intTy w.vt.val
  | .vsscanOr => intTy w.vt.val
  | .vsscanXor => intTy w.vt.val
  | .vextr => w.vt.val < 17
  | .vinsrt => w.vt.val < 17
  | .vld => w.vt.val < 22
  | .vldSt => w.vt.val < 22
  | .vldIx => w.vt.val < 22
  | .vldff => w.vt.val < 22
  | .vst => w.vt.val < 22
  | .vstSt => w.vt.val < 22
  | .vstIx => w.vt.val < 22
  | .vcompressSt => w.vt.val < 22
  | .vwload => mmaTy w.vt.val
  | .vmmaX1 => mmaTy w.vt.val
  | .vmmaX2 => mmaTy w.vt.val
  | .vmmaX4 => mmaTy w.vt.val
  | .vmmaX8 => mmaTy w.vt.val
  | .vaccrd => w.vt.val == 9
  | .vaccwr => w.vt.val == 9
  | .vaccz => w.vt.val == 0
  | .dmk => w.vt.val == 0
  | .cpy => w.vt.val == 0
  | .cpyt => w.vt.val == 0
  | .gsg => w.vt.val == 0
  | .gss => w.vt.val == 0
  | .ewait => w.vt.val == 0
  | .estat => w.vt.val == 0
  | .winnow => w.vt.val == 0
  | .vsrdoAdd => (intTy w.vt.val || w.vt.val == 8 || w.vt.val == 9)
  | .vsrduAdd => intTy w.vt.val
  | .vsrduMin => w.vt.val < 12
  | .vsrduMax => w.vt.val < 12
  | .vsrduAnd => intTy w.vt.val
  | .vsrduOr => intTy w.vt.val
  | .vsrduXor => intTy w.vt.val
  | .chain => w.vt.val == 0
  | .run => w.vt.val == 0
  | .chwait => w.vt.val == 0
  | .chquit => w.vt.val == 0
  | .stop => w.vt.val == 0
  | .lnkin => w.vt.val < 22
  | .lnkout => w.vt.val < 22
  | .delay => w.vt.val < 17
  | .ereq => (w.f2.val % 4 == 0 && w.vt.val == 7 || w.f2.val % 4 == 1 && (w.vt.val == 6 || w.vt.val == 7))
  | .eresp => (w.f2.val % 4 == 0 && w.vt.val == 7 || w.f2.val % 4 == 1 && w.vt.val < 17)
  | .clred => w.vt.val < 12
  | .clbcast => w.vt.val == 0
  | .clagat => w.vt.val == 0
  | .clrsc => w.vt.val < 12
  | .clwait => w.vt.val == 0
  | .thdec => w.vt.val == 0
  | .thand => w.vt.val == 0
  | .thor => w.vt.val == 0
  | .thwand => w.vt.val == 0
  | .thscore => w.vt.val == 0
  | .thfuse => w.vt.val == 0
  | .thtopk => w.vt.val == 0

/-- The source fields of a node word that may name a vector register or a queue (R37, R282). -/
def vsrcFields (w : VWord) : VOp → List (Fin 512)
  | .vadd => w.f1 :: bsrc w
  | .vsub => w.f1 :: bsrc w
  | .vrsub => w.f1 :: bsrc w
  | .vmul => w.f1 :: bsrc w
  | .vmulh => w.f1 :: bsrc w
  | .vdiv => w.f1 :: bsrc w
  | .vrem => w.f1 :: bsrc w
  | .vand => w.f1 :: bsrc w
  | .vor => w.f1 :: bsrc w
  | .vxor => w.f1 :: bsrc w
  | .vsll => w.f1 :: bsrc w
  | .vsrl => w.f1 :: bsrc w
  | .vsra => w.f1 :: bsrc w
  | .vmin => w.f1 :: bsrc w
  | .vmax => w.f1 :: bsrc w
  | .vsadd => w.f1 :: bsrc w
  | .vssub => w.f1 :: bsrc w
  | .vabs => [w.f1]
  | .vneg => [w.f1]
  | .vnot => [w.f1]
  | .vmv => [w.f1]
  | .vsel => w.f1 :: bsrc w
  | .vclz => [w.f1]
  | .vpopc => [w.f1]
  | .vmacc => w.f1 :: bsrc w ++ [w.f3]
  | .vfadd => w.f1 :: bsrc w
  | .vfsub => w.f1 :: bsrc w
  | .vfmul => w.f1 :: bsrc w
  | .vfdiv => w.f1 :: bsrc w
  | .vfsqrt => [w.f1]
  | .vfmin => w.f1 :: bsrc w
  | .vfmax => w.f1 :: bsrc w
  | .vfabs => [w.f1]
  | .vfneg => [w.f1]
  | .vfsgnj => w.f1 :: bsrc w
  | .vfsgnjn => w.f1 :: bsrc w
  | .vfsgnjx => w.f1 :: bsrc w
  | .vfclass => [w.f1]
  | .vfma => w.f1 :: bsrc w ++ [w.f3]
  | .vfms => w.f1 :: bsrc w ++ [w.f3]
  | .vfnma => w.f1 :: bsrc w ++ [w.f3]
  | .vfnms => w.f1 :: bsrc w ++ [w.f3]
  | .vceq => w.f1 :: bsrc w
  | .vcne => w.f1 :: bsrc w
  | .vclt => w.f1 :: bsrc w
  | .vcle => w.f1 :: bsrc w
  | .vcgt => w.f1 :: bsrc w
  | .vcge => w.f1 :: bsrc w
  | .vcun => w.f1 :: bsrc w
  | .vcvt => [w.f1]
  | .vpack => [w.f1]
  | .vunpack => [w.f1]
  | .vsget => [w.f1]
  | .vsput => [w.f1]
  | .vexp2 => [w.f1]
  | .vlog2 => [w.f1]
  | .vrcp => [w.f1]
  | .vrsqrt => [w.f1]
  | .vtanh => [w.f1]
  | .vsigm => [w.f1]
  | .vredosum => [w.f1, w.f2]
  | .vredtsum => [w.f1, w.f2]
  | .vredmin => [w.f1, w.f2]
  | .vredmax => [w.f1, w.f2]
  | .vredand => [w.f1, w.f2]
  | .vredor => [w.f1, w.f2]
  | .vredxor => [w.f1, w.f2]
  | .vshup => [w.f1]
  | .vshdn => [w.f1]
  | .vjoinup => [w.f1, w.f3]
  | .vjoindn => [w.f1, w.f3]
  | .vrgatherX1 => bsrc w
  | .vrgatherX2 => bsrc w
  | .vrgatherX4 => bsrc w
  | .vrgatherX8 => bsrc w
  | .vcompress => [w.f1]
  | .vexpand => [w.f1]
  | .vconflict => [w.f1]
  | .vsscanAdd => [w.f1]
  | .vsscanMin => [w.f1]
  | .vsscanMax => [w.f1]
  | .vsscanAnd => [w.f1]
  | .vsscanOr => [w.f1]
  | .vsscanXor => [w.f1]
  | .vextr => [w.f1]
  | .vldIx => [viFld w]
  | .vstIx => [viFld w]
  | .vmmaX1 => [w.f1, w.f3]
  | .vmmaX2 => [w.f1, w.f3]
  | .vmmaX4 => [w.f1, w.f3]
  | .vmmaX8 => [w.f1, w.f3]
  | .vaccwr => [w.f1]
  | .vsrdoAdd => [viFld w]
  | .vsrduAdd => [viFld w]
  | .vsrduMin => [viFld w]
  | .vsrduMax => [viFld w]
  | .vsrduAnd => [viFld w]
  | .vsrduOr => [viFld w]
  | .vsrduXor => [viFld w]
  | .lnkout => [w.f1]
  | .delay => [w.f1]
  | .ereq => [w.f1]
  | .thdec => [w.f1]
  | .thand => [w.f1, w.f2]
  | .thor => [w.f1, w.f2]
  | .thwand => [w.f1]
  | .thscore => [w.f1]
  | .thfuse => [w.f1, w.f2]
  | .thtopk => [w.f1]
  | _ => []

/-- Whether vd names the vector register or queue that a node word writes, or (majors 0x0A and 0x0D) the data it
stores (R38, R219). -/
def vusesVd : VOp → Bool
  | .vadd | .vsub | .vrsub | .vmul | .vmulh | .vdiv | .vrem | .vand | .vor | .vxor | .vsll | .vsrl | .vsra
  | .vmin | .vmax | .vsadd | .vssub | .vabs | .vneg | .vnot | .vmv | .vsel | .vclz | .vpopc | .vmacc | .vfadd
  | .vfsub | .vfmul | .vfdiv | .vfsqrt | .vfmin | .vfmax | .vfabs | .vfneg | .vfsgnj | .vfsgnjn | .vfsgnjx
  | .vfclass | .vfma | .vfms | .vfnma | .vfnms | .vcvt | .vpack | .vunpack | .vsget | .vsput | .vexp2 | .vlog2
  | .vrcp | .vrsqrt | .vtanh | .vsigm | .vredosum | .vredtsum | .vredmin | .vredmax | .vredand | .vredor
  | .vredxor | .vshup | .vshdn | .vjoinup | .vjoindn | .vrgatherX1 | .vrgatherX2 | .vrgatherX4 | .vrgatherX8
  | .vcompress | .vexpand | .vpcnt | .vpcntInc | .vconflict | .vsscanAdd | .vsscanMin | .vsscanMax | .vsscanAnd
  | .vsscanOr | .vsscanXor | .vinsrt | .vld | .vldSt | .vldIx | .vldff | .vmmaX1 | .vmmaX2 | .vmmaX4 | .vmmaX8
  | .vaccrd | .lnkin | .delay | .eresp | .thdec | .thand | .thor | .thwand | .thscore | .thfuse | .thtopk
  | .vst | .vstSt | .vstIx | .vcompressSt | .vsrdoAdd | .vsrduAdd | .vsrduMin | .vsrduMax | .vsrduAnd
  | .vsrduOr | .vsrduXor => true
  | _ => false

/-- The node words that round (R41). -/
def vrounds : VOp → Bool
  | .vfadd | .vfsub | .vfmul | .vfdiv | .vfsqrt | .vfma | .vfms | .vfnma | .vfnms | .vcvt | .vpack | .vunpack
  | .vexp2 | .vlog2 | .vrcp | .vrsqrt | .vtanh | .vsigm | .vredosum | .vredtsum | .vsscanAdd | .vsrdoAdd
  | .clred | .clrsc => true
  | _ => false

/-- The node words that stand only in a chain block (R47). -/
def chainOnly : VOp → Bool
  | .stop | .lnkin | .lnkout | .delay | .ereq | .eresp => true
  | _ => false

/-- The node words that stand only inline (R47). -/
def inlineOnly : VOp → Bool
  | .vfirst | .vextr | .vinsrt | .dmk | .cpy | .cpyt | .gsg | .gss | .ewait | .estat | .winnow | .chain | .run
  | .chwait | .chquit | .clred | .clbcast | .clagat | .clrsc | .clwait => true
  | _ => false

/-- The scalar forms with a rounding field accept codes 0-4 and 7 (R41). -/
def srmOk : Instr → Bool
  | .faddF32 _ _ _ rm => scalarRm rm
  | .fsubF32 _ _ _ rm => scalarRm rm
  | .fmulF32 _ _ _ rm => scalarRm rm
  | .fdivF32 _ _ _ rm => scalarRm rm
  | .fsqrtF32 _ _ rm => scalarRm rm
  | .faddF64 _ _ _ rm => scalarRm rm
  | .fsubF64 _ _ _ rm => scalarRm rm
  | .fmulF64 _ _ _ rm => scalarRm rm
  | .fdivF64 _ _ _ rm => scalarRm rm
  | .fsqrtF64 _ _ rm => scalarRm rm
  | .fmadd _ _ _ _ rm _ => scalarRm rm
  | .fmsub _ _ _ _ rm _ => scalarRm rm
  | .fnmadd _ _ _ _ rm _ => scalarRm rm
  | .fnmsub _ _ _ _ rm _ => scalarRm rm
  | .fcvtF32I32 _ _ rm => scalarRm rm
  | .fcvtF32N32 _ _ rm => scalarRm rm
  | .fcvtF32I64 _ _ rm => scalarRm rm
  | .fcvtF32N64 _ _ rm => scalarRm rm
  | .fcvtF64I32 _ _ rm => scalarRm rm
  | .fcvtF64N32 _ _ rm => scalarRm rm
  | .fcvtF64I64 _ _ rm => scalarRm rm
  | .fcvtF64N64 _ _ rm => scalarRm rm
  | .fcvtI32F32 _ _ rm => scalarRm rm
  | .fcvtN32F32 _ _ rm => scalarRm rm
  | .fcvtI64F32 _ _ rm => scalarRm rm
  | .fcvtN64F32 _ _ rm => scalarRm rm
  | .fcvtI32F64 _ _ rm => scalarRm rm
  | .fcvtN32F64 _ _ rm => scalarRm rm
  | .fcvtI64F64 _ _ rm => scalarRm rm
  | .fcvtN64F64 _ _ rm => scalarRm rm
  | .fcvtF32F64 _ _ rm => scalarRm rm
  | .fcvtF64F32 _ _ rm => scalarRm rm
  | .fcvtF32Bf16 _ _ rm => scalarRm rm
  | .fcvtBf16F32 _ _ rm => scalarRm rm
  | .fcvtF32F16 _ _ rm => scalarRm rm
  | .fcvtF16F32 _ _ rm => scalarRm rm
  | .fcvtF64F16 _ _ rm => scalarRm rm
  | .fcvtF16F64 _ _ rm => scalarRm rm
  | _ => true

/-- Where R47 lets a node word stand. -/
def vplaceOk (p : Place) (op : VOp) : Bool :=
  match p with
  | .inline => !chainOnly op
  | .chain => !inlineOnly op

/-- The type that a node word's source field is read in, for the replicate rule of R37: the source type of a
conversion, else vt. The integer index operand of `vld.ix` and `vst.ix` counts with a block vt as on a block type (DESIGN
CHOICE, log 40). -/
def vsrcTy (w : VWord) : VOp → Nat
  | .vcvt | .vpack | .vunpack => w.f2.val
  | _ => w.vt.val

/-- A source field is legal (R37, R38): a queue is q0-q15, carries no replicate and stands in a chain block; replicate
sizes 1 and 8 are not used on a block type. SZ says nothing while P = 0: no rule makes it a field that must be zero there, and
the model ignores it (DESIGN CHOICE, log 40). -/
def srcOk (p : Place) (t : Nat) (f : Fin 512) : Bool :=
  if srcQ f then p == .chain && srcN f < 16 && !srcP f
  else !(srcP f && srcSZ f < 2 && blkTy t)

/-- Test 5 of R51 for a node word, but for the control-core clause. A type that a form does not accept and a queue out of range are
refused here, as R51 says, and not at test 3, where R155 puts every field of `vmma` (DEDUCED, log 32). -/
def vcheck5 (p : Place) (w : VWord) (op : VOp) : Bool :=
  vtypeOk w op && (!vrounds op || w.rm.val != 6) && vplaceOk p op &&
  (vsrcFields w op).all (srcOk p (vsrcTy w op)) &&
  (!vusesVd op || w.vd.val < 32 || (p == .chain && w.vd.val < 48))

/-- Test 5 of R51, but for the control-core clause. -/
def check5 (p : Place) (i : Instr) : Bool :=
  match nodeOf i with
  | some (op, w) => vcheck5 p w op
  | none => p == .inline && srmOk i

/-- A word well formed at a place: it passes tests 3, 4 and 5 of R51 there. The steps without an encoding are not words. -/
def wellFormedAt (p : Place) (i : Instr) : Bool := check3 p i && (check4 i).isNone && check5 p i

/-- Well formed: inline or in a chain block. -/
def Instr.wellFormed (i : Instr) : Bool := wellFormedAt .inline i || wellFormedAt .chain i

end Sys2Proof
end

