-- ==== Sys2Proof/Decode.lean ====
section
/-! DEFINITION. The decoder (spec/02_encoding.md R31, R34, R36, R43-R51), total on any bytes, and the encoder, written
from the same tables. Words are naturals below 2^32 or 2^64, and fields are cut out by division, as the spec's own word
formulae build them by multiplication. -/

namespace Sys2Proof

/-- The fate of a word that is not an instruction (R50). -/
inductive Fate where
  | illegal
  | feature (n : Nat)
  deriving DecidableEq, Repr

/-- What the bytes at an address are: an instruction and its length in bytes, a word with its fate, or too few bytes. -/
inductive Decoded where
  | instr (i : Instr) (len : Nat)
  | fate (f : Fate) (word : Nat) (len : Nat)
  | short
  deriving DecidableEq, Repr

/-- The value of a string of bytes, least significant first (spec/00_scope.md R3). -/
def leNat : List Byte → Nat
  | [] => 0
  | b :: bs => b.toNat + 256 * leNat bs

/-- The k low bytes of a value, least significant first. -/
def leBytes : Nat → Nat → List Byte
  | 0, _ => []
  | k + 1, v => BitVec.ofNat 8 v :: leBytes k (v / 256)

/-- A register number from a word. -/
def regAt (w lo : Nat) : Reg := Fin.ofNat 32 (w / 2 ^ lo)

/-- The node word's fields (R36). -/
def vwordOf (w : Nat) : VWord where
  vd := Fin.ofNat 64 (w / 2 ^ 18)
  f1 := Fin.ofNat 512 (w / 2 ^ 9)
  f2 := Fin.ofNat 512 w
  f3 := Fin.ofNat 512 (w / 2 ^ 55)
  vm := Fin.ofNat 16 (w / 2 ^ 51)
  vt := Fin.ofNat 32 (w / 2 ^ 46)
  rm := Fin.ofNat 8 (w / 2 ^ 43)
  x := Fin.ofNat 2 (w / 2 ^ 42)

/-- The word that holds these fields under a major opcode and function (R131): LS = 11. -/
def VWord.encode (w : VWord) (major fn : Nat) : Nat :=
  w.f3.val * 2 ^ 55 + w.vm.val * 2 ^ 51 + w.vt.val * 2 ^ 46 + w.rm.val * 2 ^ 43 + w.x.val * 2 ^ 42 + fn * 2 ^ 32 +
  3 * 2 ^ 30 + major * 2 ^ 24 + w.vd.val * 2 ^ 18 + w.f1.val * 2 ^ 9 + w.f2.val

/-- The instruction that a 32-bit word names by its major opcode and function, its fields cut out (R43-R45). -/
def cand32 (w : Nat) : Option Instr :=
  match w / 2 ^ 24 with
  | 0x01 => (match w % 512 with
    | 0 => some (.add (regAt w 19) (regAt w 14) (regAt w 9))
    | 1 => some (.sub (regAt w 19) (regAt w 14) (regAt w 9))
    | 2 => some (.and (regAt w 19) (regAt w 14) (regAt w 9))
    | 3 => some (.andn (regAt w 19) (regAt w 14) (regAt w 9))
    | 4 => some (.or (regAt w 19) (regAt w 14) (regAt w 9))
    | 5 => some (.orn (regAt w 19) (regAt w 14) (regAt w 9))
    | 6 => some (.xor (regAt w 19) (regAt w 14) (regAt w 9))
    | 7 => some (.xnor (regAt w 19) (regAt w 14) (regAt w 9))
    | 8 => some (.sll (regAt w 19) (regAt w 14) (regAt w 9))
    | 9 => some (.srl (regAt w 19) (regAt w 14) (regAt w 9))
    | 10 => some (.sra (regAt w 19) (regAt w 14) (regAt w 9))
    | 11 => some (.rol (regAt w 19) (regAt w 14) (regAt w 9))
    | 12 => some (.ror (regAt w 19) (regAt w 14) (regAt w 9))
    | 13 => some (.min (regAt w 19) (regAt w 14) (regAt w 9))
    | 14 => some (.max (regAt w 19) (regAt w 14) (regAt w 9))
    | 15 => some (.minn (regAt w 19) (regAt w 14) (regAt w 9))
    | 16 => some (.maxn (regAt w 19) (regAt w 14) (regAt w 9))
    | 17 => some (.cmplt (regAt w 19) (regAt w 14) (regAt w 9))
    | 18 => some (.cmpltn (regAt w 19) (regAt w 14) (regAt w 9))
    | 19 => some (.cmpeq (regAt w 19) (regAt w 14) (regAt w 9))
    | 256 => some (.addI32 (regAt w 19) (regAt w 14) (regAt w 9))
    | 257 => some (.subI32 (regAt w 19) (regAt w 14) (regAt w 9))
    | 264 => some (.sllI32 (regAt w 19) (regAt w 14) (regAt w 9))
    | 265 => some (.srlI32 (regAt w 19) (regAt w 14) (regAt w 9))
    | 266 => some (.sraI32 (regAt w 19) (regAt w 14) (regAt w 9))
    | 267 => some (.rolI32 (regAt w 19) (regAt w 14) (regAt w 9))
    | 268 => some (.rorI32 (regAt w 19) (regAt w 14) (regAt w 9))
    | _ => none)
  | 0x02 => (match w % 512 with
    | 0 => some (.mul (regAt w 19) (regAt w 14) (regAt w 9))
    | 1 => some (.mulh (regAt w 19) (regAt w 14) (regAt w 9))
    | 2 => some (.mulhu (regAt w 19) (regAt w 14) (regAt w 9))
    | 3 => some (.mulhsu (regAt w 19) (regAt w 14) (regAt w 9))
    | 4 => some (.mulI32 (regAt w 19) (regAt w 14) (regAt w 9))
    | 5 => some (.div (regAt w 19) (regAt w 14) (regAt w 9))
    | 6 => some (.divu (regAt w 19) (regAt w 14) (regAt w 9))
    | 7 => some (.rem (regAt w 19) (regAt w 14) (regAt w 9))
    | 8 => some (.remu (regAt w 19) (regAt w 14) (regAt w 9))
    | 9 => some (.divI32 (regAt w 19) (regAt w 14) (regAt w 9))
    | 10 => some (.divuI32 (regAt w 19) (regAt w 14) (regAt w 9))
    | 11 => some (.remI32 (regAt w 19) (regAt w 14) (regAt w 9))
    | 12 => some (.remuI32 (regAt w 19) (regAt w 14) (regAt w 9))
    | _ => none)
  | 0x04 => some (.addi (regAt w 19) (regAt w 14) (Fin.ofNat 16384 w))
  | 0x05 => some (.andi (regAt w 19) (regAt w 14) (Fin.ofNat 16384 w))
  | 0x06 => some (.ori (regAt w 19) (regAt w 14) (Fin.ofNat 16384 w))
  | 0x07 => some (.xori (regAt w 19) (regAt w 14) (Fin.ofNat 16384 w))
  | 0x08 => some (.cmplti (regAt w 19) (regAt w 14) (Fin.ofNat 16384 w))
  | 0x09 => some (.cmpltni (regAt w 19) (regAt w 14) (Fin.ofNat 16384 w))
  | 0x0a => some (.addiI32 (regAt w 19) (regAt w 14) (Fin.ofNat 16384 w))
  | 0x0b => (match w / 2 ^ 11 % 8 with
    | 0 => some (.slli (regAt w 19) (regAt w 14) (Fin.ofNat 64 w))
    | 1 => some (.srli (regAt w 19) (regAt w 14) (Fin.ofNat 64 w))
    | 2 => some (.srai (regAt w 19) (regAt w 14) (Fin.ofNat 64 w))
    | 3 => some (.rori (regAt w 19) (regAt w 14) (Fin.ofNat 64 w))
    | 4 => some (.slliI32 (regAt w 19) (regAt w 14) (Fin.ofNat 32 w))
    | 5 => some (.srliI32 (regAt w 19) (regAt w 14) (Fin.ofNat 32 w))
    | 6 => some (.sraiI32 (regAt w 19) (regAt w 14) (Fin.ofNat 32 w))
    | _ => none)
  | 0x0c => some (.lui (regAt w 19) (Fin.ofNat 524288 w))
  | 0x0d => some (.lhi (regAt w 19) (Fin.ofNat 524288 w))
  | 0x0e => some (.auipc (regAt w 19) (Fin.ofNat 524288 w))
  | 0x10 => some (.lb (regAt w 19) (regAt w 14) (Fin.ofNat 16384 w))
  | 0x11 => some (.lbu (regAt w 19) (regAt w 14) (Fin.ofNat 16384 w))
  | 0x12 => some (.lh (regAt w 19) (regAt w 14) (Fin.ofNat 16384 w))
  | 0x13 => some (.lhu (regAt w 19) (regAt w 14) (Fin.ofNat 16384 w))
  | 0x14 => some (.lw (regAt w 19) (regAt w 14) (Fin.ofNat 16384 w))
  | 0x15 => some (.lwu (regAt w 19) (regAt w 14) (Fin.ofNat 16384 w))
  | 0x16 => some (.ld (regAt w 19) (regAt w 14) (Fin.ofNat 16384 w))
  | 0x18 => some (.sb (regAt w 19) (regAt w 14) (Fin.ofNat 16384 w))
  | 0x19 => some (.sh (regAt w 19) (regAt w 14) (Fin.ofNat 16384 w))
  | 0x1a => some (.sw (regAt w 19) (regAt w 14) (Fin.ofNat 16384 w))
  | 0x1b => some (.sd (regAt w 19) (regAt w 14) (Fin.ofNat 16384 w))
  | 0x30 => (match w % 512 with
    | 0 => some (.clz (regAt w 19) (regAt w 14))
    | 1 => some (.ctz (regAt w 19) (regAt w 14))
    | 2 => some (.popc (regAt w 19) (regAt w 14))
    | 3 => some (.clzw (regAt w 19) (regAt w 14))
    | 4 => some (.ctzw (regAt w 19) (regAt w 14))
    | 5 => some (.popcw (regAt w 19) (regAt w 14))
    | 6 => some (.rev8 (regAt w 19) (regAt w 14))
    | 7 => some (.brev (regAt w 19) (regAt w 14))
    | 8 => some (.sextb (regAt w 19) (regAt w 14))
    | 9 => some (.sexth (regAt w 19) (regAt w 14))
    | 10 => some (.sextw (regAt w 19) (regAt w 14))
    | 11 => some (.zextb (regAt w 19) (regAt w 14))
    | 12 => some (.zexth (regAt w 19) (regAt w 14))
    | 13 => some (.zextw (regAt w 19) (regAt w 14))
    | _ => none)
  | 0x41 => (match w / 2 ^ 3 % 64 with
    | 0 => some (.faddF32 (regAt w 19) (regAt w 14) (regAt w 9) (Fin.ofNat 8 w))
    | 1 => some (.fsubF32 (regAt w 19) (regAt w 14) (regAt w 9) (Fin.ofNat 8 w))
    | 2 => some (.fmulF32 (regAt w 19) (regAt w 14) (regAt w 9) (Fin.ofNat 8 w))
    | 3 => some (.fdivF32 (regAt w 19) (regAt w 14) (regAt w 9) (Fin.ofNat 8 w))
    | 4 => some (.fsqrtF32 (regAt w 19) (regAt w 14) (Fin.ofNat 8 w))
    | 5 => some (.fminF32 (regAt w 19) (regAt w 14) (regAt w 9))
    | 6 => some (.fmaxF32 (regAt w 19) (regAt w 14) (regAt w 9))
    | 7 => some (.fsgnjF32 (regAt w 19) (regAt w 14) (regAt w 9))
    | 8 => some (.fsgnjnF32 (regAt w 19) (regAt w 14) (regAt w 9))
    | 9 => some (.fsgnjxF32 (regAt w 19) (regAt w 14) (regAt w 9))
    | 10 => some (.feqF32 (regAt w 19) (regAt w 14) (regAt w 9))
    | 11 => some (.fltF32 (regAt w 19) (regAt w 14) (regAt w 9))
    | 12 => some (.fleF32 (regAt w 19) (regAt w 14) (regAt w 9))
    | 13 => some (.fclassF32 (regAt w 19) (regAt w 14))
    | _ => none)
  | 0x42 => (match w / 2 ^ 3 % 64 with
    | 0 => some (.faddF64 (regAt w 19) (regAt w 14) (regAt w 9) (Fin.ofNat 8 w))
    | 1 => some (.fsubF64 (regAt w 19) (regAt w 14) (regAt w 9) (Fin.ofNat 8 w))
    | 2 => some (.fmulF64 (regAt w 19) (regAt w 14) (regAt w 9) (Fin.ofNat 8 w))
    | 3 => some (.fdivF64 (regAt w 19) (regAt w 14) (regAt w 9) (Fin.ofNat 8 w))
    | 4 => some (.fsqrtF64 (regAt w 19) (regAt w 14) (Fin.ofNat 8 w))
    | 5 => some (.fminF64 (regAt w 19) (regAt w 14) (regAt w 9))
    | 6 => some (.fmaxF64 (regAt w 19) (regAt w 14) (regAt w 9))
    | 7 => some (.fsgnjF64 (regAt w 19) (regAt w 14) (regAt w 9))
    | 8 => some (.fsgnjnF64 (regAt w 19) (regAt w 14) (regAt w 9))
    | 9 => some (.fsgnjxF64 (regAt w 19) (regAt w 14) (regAt w 9))
    | 10 => some (.feqF64 (regAt w 19) (regAt w 14) (regAt w 9))
    | 11 => some (.fltF64 (regAt w 19) (regAt w 14) (regAt w 9))
    | 12 => some (.fleF64 (regAt w 19) (regAt w 14) (regAt w 9))
    | 13 => some (.fclassF64 (regAt w 19) (regAt w 14))
    | _ => none)
  | 0x44 => some (.fmadd (regAt w 19) (regAt w 14) (regAt w 9) (regAt w 4) (Fin.ofNat 8 (w / 2 ^ 1)) (Fin.ofNat 2 w))
  | 0x45 => some (.fmsub (regAt w 19) (regAt w 14) (regAt w 9) (regAt w 4) (Fin.ofNat 8 (w / 2 ^ 1)) (Fin.ofNat 2 w))
  | 0x46 => some (.fnmadd (regAt w 19) (regAt w 14) (regAt w 9) (regAt w 4) (Fin.ofNat 8 (w / 2 ^ 1)) (Fin.ofNat 2 w))
  | 0x47 => some (.fnmsub (regAt w 19) (regAt w 14) (regAt w 9) (regAt w 4) (Fin.ofNat 8 (w / 2 ^ 1)) (Fin.ofNat 2 w))
  | 0x48 => (match w / 2 ^ 3 % 64 with
    | 0 => some (.fcvtF32I32 (regAt w 19) (regAt w 14) (Fin.ofNat 8 w))
    | 1 => some (.fcvtF32N32 (regAt w 19) (regAt w 14) (Fin.ofNat 8 w))
    | 2 => some (.fcvtF32I64 (regAt w 19) (regAt w 14) (Fin.ofNat 8 w))
    | 3 => some (.fcvtF32N64 (regAt w 19) (regAt w 14) (Fin.ofNat 8 w))
    | 4 => some (.fcvtF64I32 (regAt w 19) (regAt w 14) (Fin.ofNat 8 w))
    | 5 => some (.fcvtF64N32 (regAt w 19) (regAt w 14) (Fin.ofNat 8 w))
    | 6 => some (.fcvtF64I64 (regAt w 19) (regAt w 14) (Fin.ofNat 8 w))
    | 7 => some (.fcvtF64N64 (regAt w 19) (regAt w 14) (Fin.ofNat 8 w))
    | 8 => some (.fcvtI32F32 (regAt w 19) (regAt w 14) (Fin.ofNat 8 w))
    | 9 => some (.fcvtN32F32 (regAt w 19) (regAt w 14) (Fin.ofNat 8 w))
    | 10 => some (.fcvtI64F32 (regAt w 19) (regAt w 14) (Fin.ofNat 8 w))
    | 11 => some (.fcvtN64F32 (regAt w 19) (regAt w 14) (Fin.ofNat 8 w))
    | 12 => some (.fcvtI32F64 (regAt w 19) (regAt w 14) (Fin.ofNat 8 w))
    | 13 => some (.fcvtN32F64 (regAt w 19) (regAt w 14) (Fin.ofNat 8 w))
    | 14 => some (.fcvtI64F64 (regAt w 19) (regAt w 14) (Fin.ofNat 8 w))
    | 15 => some (.fcvtN64F64 (regAt w 19) (regAt w 14) (Fin.ofNat 8 w))
    | 16 => some (.fcvtF32F64 (regAt w 19) (regAt w 14) (Fin.ofNat 8 w))
    | 17 => some (.fcvtF64F32 (regAt w 19) (regAt w 14) (Fin.ofNat 8 w))
    | _ => none)
  | 0x50 => (match w % 4 with
    | 0 => some (.csrld (regAt w 19) (Fin.ofNat 4096 (w / 2 ^ 2)))
    | 1 => some (.csrst (regAt w 19) (regAt w 14) (Fin.ofNat 4096 (w / 2 ^ 2)))
    | 2 => some (.csrbset (regAt w 19) (regAt w 14) (Fin.ofNat 4096 (w / 2 ^ 2)))
    | 3 => some (.csrbclr (regAt w 19) (regAt w 14) (Fin.ofNat 4096 (w / 2 ^ 2)))
    | _ => none)
  | 0x51 => (match w % 4 with
    | 1 => some (.csrsti (regAt w 19) (Fin.ofNat 32 (w / 2 ^ 14)) (Fin.ofNat 4096 (w / 2 ^ 2)))
    | 2 => some (.csrbseti (regAt w 19) (Fin.ofNat 32 (w / 2 ^ 14)) (Fin.ofNat 4096 (w / 2 ^ 2)))
    | 3 => some (.csrbclri (regAt w 19) (Fin.ofNat 32 (w / 2 ^ 14)) (Fin.ofNat 4096 (w / 2 ^ 2)))
    | _ => none)
  | 0x60 => (match w % 512 with
    | 0 => some (.ecall)
    | 1 => some (.ebreak)
    | 2 => some (.xret)
    | 3 => some (.wait (regAt w 19) (regAt w 14) (regAt w 9))
    | 4 => some (.hexit)
    | 5 => some (.vcsave (regAt w 14))
    | 6 => some (.vcrest (regAt w 14))
    | 7 => some (.tlbinv (regAt w 14) (regAt w 9))
    | 8 => some (.ifence)
    | _ => none)
  | 0x70 => (match w / 2 ^ 3 % 64 with
    | 0 => some (.fcvtF32Bf16 (regAt w 19) (regAt w 14) (Fin.ofNat 8 w))
    | 1 => some (.fcvtBf16F32 (regAt w 19) (regAt w 14) (Fin.ofNat 8 w))
    | 2 => some (.fcvtF32F16 (regAt w 19) (regAt w 14) (Fin.ofNat 8 w))
    | 3 => some (.fcvtF16F32 (regAt w 19) (regAt w 14) (Fin.ofNat 8 w))
    | 4 => some (.fcvtF64F16 (regAt w 19) (regAt w 14) (Fin.ofNat 8 w))
    | 5 => some (.fcvtF16F64 (regAt w 19) (regAt w 14) (Fin.ofNat 8 w))
    | _ => none)
  | 0x81 => some (.beq (regAt w 19) (regAt w 14) (Fin.ofNat 16384 w))
  | 0x82 => some (.bne (regAt w 19) (regAt w 14) (Fin.ofNat 16384 w))
  | 0x83 => some (.blt (regAt w 19) (regAt w 14) (Fin.ofNat 16384 w))
  | 0x84 => some (.bge (regAt w 19) (regAt w 14) (Fin.ofNat 16384 w))
  | 0x85 => some (.bltu (regAt w 19) (regAt w 14) (Fin.ofNat 16384 w))
  | 0x86 => some (.bgeu (regAt w 19) (regAt w 14) (Fin.ofNat 16384 w))
  | 0x88 => some (.jal (regAt w 19) (Fin.ofNat 524288 w))
  | 0x89 => some (.jalr (regAt w 19) (regAt w 14) (Fin.ofNat 16384 w))
  | 0x90 => (match w / 2 ^ 4 % 32 with
    | 0 => some (.amoswap (regAt w 19) (regAt w 14) (regAt w 9) (Fin.ofNat 2 (w / 2 ^ 3)) (Fin.ofNat 8 w))
    | 1 => some (.amoadd (regAt w 19) (regAt w 14) (regAt w 9) (Fin.ofNat 2 (w / 2 ^ 3)) (Fin.ofNat 8 w))
    | 2 => some (.amoand (regAt w 19) (regAt w 14) (regAt w 9) (Fin.ofNat 2 (w / 2 ^ 3)) (Fin.ofNat 8 w))
    | 3 => some (.amoor (regAt w 19) (regAt w 14) (regAt w 9) (Fin.ofNat 2 (w / 2 ^ 3)) (Fin.ofNat 8 w))
    | 4 => some (.amoxor (regAt w 19) (regAt w 14) (regAt w 9) (Fin.ofNat 2 (w / 2 ^ 3)) (Fin.ofNat 8 w))
    | 5 => some (.amomin (regAt w 19) (regAt w 14) (regAt w 9) (Fin.ofNat 2 (w / 2 ^ 3)) (Fin.ofNat 8 w))
    | 6 => some (.amomax (regAt w 19) (regAt w 14) (regAt w 9) (Fin.ofNat 2 (w / 2 ^ 3)) (Fin.ofNat 8 w))
    | 7 => some (.amominu (regAt w 19) (regAt w 14) (regAt w 9) (Fin.ofNat 2 (w / 2 ^ 3)) (Fin.ofNat 8 w))
    | 8 => some (.amomaxu (regAt w 19) (regAt w 14) (regAt w 9) (Fin.ofNat 2 (w / 2 ^ 3)) (Fin.ofNat 8 w))
    | 9 => some (.amocas (regAt w 19) (regAt w 14) (regAt w 9) (Fin.ofNat 2 (w / 2 ^ 3)) (Fin.ofNat 8 w))
    | _ => none)
  | 0x91 => (match w / 2 ^ 3 % 64 with
    | 0 => some (.fenceSv (Fin.ofNat 8 w))
    | 1 => some (.fenceVs (Fin.ofNat 8 w))
    | 2 => some (.fenceVv (Fin.ofNat 8 w))
    | 3 => some (.fenceAll (Fin.ofNat 8 w))
    | _ => none)
  | 0x98 => some (.setvl (regAt w 19) (regAt w 14) (Fin.ofNat 32 (w / 2 ^ 9)) (Fin.ofNat 2 (w / 2 ^ 4)) (Fin.ofNat 16 w))
  | 0x99 => some (.setvli (regAt w 19) (Fin.ofNat 32 (w / 2 ^ 14)) (Fin.ofNat 16384 w))
  | 0xa0 => (match w % 512 with
    | 0 => some (.enq (regAt w 19) (regAt w 14) (regAt w 9))
    | 1 => some (.qstat (regAt w 19) (regAt w 14))
    | 2 => some (.depdec (regAt w 19) (regAt w 14))
    | _ => none)
  | 0xb0 => (match w % 512 with
    | 0 => some (.gbar (regAt w 19) (regAt w 14))
    | 1 => some (.tbar (regAt w 19) (regAt w 14))
    | _ => none)
  | _ => none

/-- The operation that a node word names by its major opcode, function and sub-operation (R46, R170). -/
def vopOf (major fn : Nat) (w : VWord) : Option VOp :=
  match major with
  | 0x01 => (match fn with
    | 0 => some .vadd
    | 1 => some .vsub
    | 2 => some .vrsub
    | 3 => some .vmul
    | 4 => some .vmulh
    | 5 => some .vdiv
    | 6 => some .vrem
    | 7 => some .vand
    | 8 => some .vor
    | 9 => some .vxor
    | 10 => some .vsll
    | 11 => some .vsrl
    | 12 => some .vsra
    | 13 => some .vmin
    | 14 => some .vmax
    | 15 => some .vsadd
    | 16 => some .vssub
    | 17 => some .vabs
    | 18 => some .vneg
    | 19 => some .vnot
    | 20 => some .vmv
    | 21 => some .vsel
    | 22 => some .vclz
    | 23 => some .vpopc
    | 24 => some .vmacc
    | _ => none)
  | 0x02 => (match fn with
    | 0 => some .vfadd
    | 1 => some .vfsub
    | 2 => some .vfmul
    | 3 => some .vfdiv
    | 4 => some .vfsqrt
    | 5 => some .vfmin
    | 6 => some .vfmax
    | 7 => some .vfabs
    | 8 => some .vfneg
    | 9 => some .vfsgnj
    | 10 => some .vfsgnjn
    | 11 => some .vfsgnjx
    | 12 => some .vfclass
    | 16 => some .vfma
    | 17 => some .vfms
    | 18 => some .vfnma
    | 19 => some .vfnms
    | _ => none)
  | 0x03 => (match fn with
    | 0 => some .vceq
    | 1 => some .vcne
    | 2 => some .vclt
    | 3 => some .vcle
    | 4 => some .vcgt
    | 5 => some .vcge
    | 6 => some .vcun
    | _ => none)
  | 0x04 => (match fn with
    | 0 => some .mand
    | 1 => some .mor
    | 2 => some .mxor
    | 3 => some .mandn
    | 4 => some .mnot
    | 5 => some .mmv
    | 6 => some .mset
    | 7 => some .mclr
    | _ => none)
  | 0x05 => (match fn with
    | 0 => some .vcvt
    | 1 => some .vpack
    | 2 => some .vunpack
    | 3 => some .vsget
    | 4 => some .vsput
    | _ => none)
  | 0x06 => (match fn with
    | 0 => some .vexp2
    | 1 => some .vlog2
    | 2 => some .vrcp
    | 3 => some .vrsqrt
    | 4 => some .vtanh
    | 5 => some .vsigm
    | _ => none)
  | 0x07 => (match fn with
    | 0 => some .vredosum
    | 1 => some .vredtsum
    | 2 => some .vredmin
    | 3 => some .vredmax
    | 4 => some .vredand
    | 5 => some .vredor
    | 6 => some .vredxor
    | _ => none)
  | 0x08 => (match fn with
    | 0 => some .vshup
    | 1 => some .vshdn
    | 2 => some .vjoinup
    | 3 => some .vjoindn
    | 4 => some .vrgatherX1
    | 5 => some .vrgatherX2
    | 6 => some .vrgatherX4
    | 7 => some .vrgatherX8
    | 8 => some .vcompress
    | 9 => some .vexpand
    | 10 => (match w.f3.val with
      | 0 => some .vpcnt
      | 8 => some .vpcntInc
      | _ => none)
    | 11 => some .vfirst
    | 12 => some .vconflict
    | 13 => (match w.f3.val with
      | 0 => some .vsscanAdd
      | 8 => some .vsscanMin
      | 16 => some .vsscanMax
      | 24 => some .vsscanAnd
      | 32 => some .vsscanOr
      | 40 => some .vsscanXor
      | _ => none)
    | 14 => some .vextr
    | 15 => some .vinsrt
    | _ => none)
  | 0x09 => (match fn with
    | 0 => some .vld
    | 1 => some .vldSt
    | 2 => some .vldIx
    | 3 => some .vldff
    | _ => none)
  | 0x0a => (match fn with
    | 0 => some .vst
    | 1 => some .vstSt
    | 2 => some .vstIx
    | 3 => some .vcompressSt
    | _ => none)
  | 0x0b => (match fn with
    | 0 => some .vwload
    | 4 => some .vmmaX1
    | 5 => some .vmmaX2
    | 6 => some .vmmaX4
    | 7 => some .vmmaX8
    | 8 => some .vaccrd
    | 9 => some .vaccwr
    | 10 => some .vaccz
    | _ => none)
  | 0x0c => (match fn with
    | 0 => some .dmk
    | 1 => some .cpy
    | 2 => some .cpyt
    | 3 => some .gsg
    | 4 => some .gss
    | 5 => some .ewait
    | 6 => some .estat
    | _ => none)
  | 0x0d => (match fn with
    | 0 => some .vsrdoAdd
    | 16 => some .vsrduAdd
    | 17 => some .vsrduMin
    | 18 => some .vsrduMax
    | 19 => some .vsrduAnd
    | 20 => some .vsrduOr
    | 21 => some .vsrduXor
    | _ => none)
  | 0x20 => (match fn with
    | 0 => some .chain
    | 1 => some .run
    | 2 => some .chwait
    | 3 => some .chquit
    | _ => none)
  | 0x21 => (match fn with
    | 0 => some .stop
    | 1 => some .lnkin
    | 2 => some .lnkout
    | 3 => some .delay
    | 4 => some .ereq
    | 5 => some .eresp
    | _ => none)
  | 0x22 => (match fn with
    | 0 => some .clred
    | 1 => some .clbcast
    | 2 => some .clagat
    | 3 => some .clrsc
    | 4 => some .clwait
    | _ => none)
  | 0x23 => (match fn with
    | 0 => some .thdec
    | 1 => some .thand
    | 2 => some .thor
    | 3 => some .thwand
    | 4 => some .thscore
    | 5 => some .thfuse
    | 6 => some .thtopk
    | _ => none)
  | 0x24 => (match fn with
    | 0 => some .winnow
    | _ => none)
  | _ => none

/-- The major opcode of a node word (R46). -/
def VOp.major : VOp → Nat
  | .vadd => 0x01
  | .vsub => 0x01
  | .vrsub => 0x01
  | .vmul => 0x01
  | .vmulh => 0x01
  | .vdiv => 0x01
  | .vrem => 0x01
  | .vand => 0x01
  | .vor => 0x01
  | .vxor => 0x01
  | .vsll => 0x01
  | .vsrl => 0x01
  | .vsra => 0x01
  | .vmin => 0x01
  | .vmax => 0x01
  | .vsadd => 0x01
  | .vssub => 0x01
  | .vabs => 0x01
  | .vneg => 0x01
  | .vnot => 0x01
  | .vmv => 0x01
  | .vsel => 0x01
  | .vclz => 0x01
  | .vpopc => 0x01
  | .vmacc => 0x01
  | .vfadd => 0x02
  | .vfsub => 0x02
  | .vfmul => 0x02
  | .vfdiv => 0x02
  | .vfsqrt => 0x02
  | .vfmin => 0x02
  | .vfmax => 0x02
  | .vfabs => 0x02
  | .vfneg => 0x02
  | .vfsgnj => 0x02
  | .vfsgnjn => 0x02
  | .vfsgnjx => 0x02
  | .vfclass => 0x02
  | .vfma => 0x02
  | .vfms => 0x02
  | .vfnma => 0x02
  | .vfnms => 0x02
  | .vceq => 0x03
  | .vcne => 0x03
  | .vclt => 0x03
  | .vcle => 0x03
  | .vcgt => 0x03
  | .vcge => 0x03
  | .vcun => 0x03
  | .mand => 0x04
  | .mor => 0x04
  | .mxor => 0x04
  | .mandn => 0x04
  | .mnot => 0x04
  | .mmv => 0x04
  | .mset => 0x04
  | .mclr => 0x04
  | .vcvt => 0x05
  | .vpack => 0x05
  | .vunpack => 0x05
  | .vsget => 0x05
  | .vsput => 0x05
  | .vexp2 => 0x06
  | .vlog2 => 0x06
  | .vrcp => 0x06
  | .vrsqrt => 0x06
  | .vtanh => 0x06
  | .vsigm => 0x06
  | .vredosum => 0x07
  | .vredtsum => 0x07
  | .vredmin => 0x07
  | .vredmax => 0x07
  | .vredand => 0x07
  | .vredor => 0x07
  | .vredxor => 0x07
  | .vshup => 0x08
  | .vshdn => 0x08
  | .vjoinup => 0x08
  | .vjoindn => 0x08
  | .vrgatherX1 => 0x08
  | .vrgatherX2 => 0x08
  | .vrgatherX4 => 0x08
  | .vrgatherX8 => 0x08
  | .vcompress => 0x08
  | .vexpand => 0x08
  | .vpcnt => 0x08
  | .vpcntInc => 0x08
  | .vfirst => 0x08
  | .vconflict => 0x08
  | .vsscanAdd => 0x08
  | .vsscanMin => 0x08
  | .vsscanMax => 0x08
  | .vsscanAnd => 0x08
  | .vsscanOr => 0x08
  | .vsscanXor => 0x08
  | .vextr => 0x08
  | .vinsrt => 0x08
  | .vld => 0x09
  | .vldSt => 0x09
  | .vldIx => 0x09
  | .vldff => 0x09
  | .vst => 0x0a
  | .vstSt => 0x0a
  | .vstIx => 0x0a
  | .vcompressSt => 0x0a
  | .vwload => 0x0b
  | .vmmaX1 => 0x0b
  | .vmmaX2 => 0x0b
  | .vmmaX4 => 0x0b
  | .vmmaX8 => 0x0b
  | .vaccrd => 0x0b
  | .vaccwr => 0x0b
  | .vaccz => 0x0b
  | .dmk => 0x0c
  | .cpy => 0x0c
  | .cpyt => 0x0c
  | .gsg => 0x0c
  | .gss => 0x0c
  | .ewait => 0x0c
  | .estat => 0x0c
  | .winnow => 0x24
  | .vsrdoAdd => 0x0d
  | .vsrduAdd => 0x0d
  | .vsrduMin => 0x0d
  | .vsrduMax => 0x0d
  | .vsrduAnd => 0x0d
  | .vsrduOr => 0x0d
  | .vsrduXor => 0x0d
  | .chain => 0x20
  | .run => 0x20
  | .chwait => 0x20
  | .chquit => 0x20
  | .stop => 0x21
  | .lnkin => 0x21
  | .lnkout => 0x21
  | .delay => 0x21
  | .ereq => 0x21
  | .eresp => 0x21
  | .clred => 0x22
  | .clbcast => 0x22
  | .clagat => 0x22
  | .clrsc => 0x22
  | .clwait => 0x22
  | .thdec => 0x23
  | .thand => 0x23
  | .thor => 0x23
  | .thwand => 0x23
  | .thscore => 0x23
  | .thfuse => 0x23
  | .thtopk => 0x23

/-- The function code of a node word (R46). -/
def VOp.fn : VOp → Nat
  | .vadd => 0x000
  | .vsub => 0x001
  | .vrsub => 0x002
  | .vmul => 0x003
  | .vmulh => 0x004
  | .vdiv => 0x005
  | .vrem => 0x006
  | .vand => 0x007
  | .vor => 0x008
  | .vxor => 0x009
  | .vsll => 0x00a
  | .vsrl => 0x00b
  | .vsra => 0x00c
  | .vmin => 0x00d
  | .vmax => 0x00e
  | .vsadd => 0x00f
  | .vssub => 0x010
  | .vabs => 0x011
  | .vneg => 0x012
  | .vnot => 0x013
  | .vmv => 0x014
  | .vsel => 0x015
  | .vclz => 0x016
  | .vpopc => 0x017
  | .vmacc => 0x018
  | .vfadd => 0x000
  | .vfsub => 0x001
  | .vfmul => 0x002
  | .vfdiv => 0x003
  | .vfsqrt => 0x004
  | .vfmin => 0x005
  | .vfmax => 0x006
  | .vfabs => 0x007
  | .vfneg => 0x008
  | .vfsgnj => 0x009
  | .vfsgnjn => 0x00a
  | .vfsgnjx => 0x00b
  | .vfclass => 0x00c
  | .vfma => 0x010
  | .vfms => 0x011
  | .vfnma => 0x012
  | .vfnms => 0x013
  | .vceq => 0x000
  | .vcne => 0x001
  | .vclt => 0x002
  | .vcle => 0x003
  | .vcgt => 0x004
  | .vcge => 0x005
  | .vcun => 0x006
  | .mand => 0x000
  | .mor => 0x001
  | .mxor => 0x002
  | .mandn => 0x003
  | .mnot => 0x004
  | .mmv => 0x005
  | .mset => 0x006
  | .mclr => 0x007
  | .vcvt => 0x000
  | .vpack => 0x001
  | .vunpack => 0x002
  | .vsget => 0x003
  | .vsput => 0x004
  | .vexp2 => 0x000
  | .vlog2 => 0x001
  | .vrcp => 0x002
  | .vrsqrt => 0x003
  | .vtanh => 0x004
  | .vsigm => 0x005
  | .vredosum => 0x000
  | .vredtsum => 0x001
  | .vredmin => 0x002
  | .vredmax => 0x003
  | .vredand => 0x004
  | .vredor => 0x005
  | .vredxor => 0x006
  | .vshup => 0x000
  | .vshdn => 0x001
  | .vjoinup => 0x002
  | .vjoindn => 0x003
  | .vrgatherX1 => 0x004
  | .vrgatherX2 => 0x005
  | .vrgatherX4 => 0x006
  | .vrgatherX8 => 0x007
  | .vcompress => 0x008
  | .vexpand => 0x009
  | .vpcnt => 0x00a
  | .vpcntInc => 0x00a
  | .vfirst => 0x00b
  | .vconflict => 0x00c
  | .vsscanAdd => 0x00d
  | .vsscanMin => 0x00d
  | .vsscanMax => 0x00d
  | .vsscanAnd => 0x00d
  | .vsscanOr => 0x00d
  | .vsscanXor => 0x00d
  | .vextr => 0x00e
  | .vinsrt => 0x00f
  | .vld => 0x000
  | .vldSt => 0x001
  | .vldIx => 0x002
  | .vldff => 0x003
  | .vst => 0x000
  | .vstSt => 0x001
  | .vstIx => 0x002
  | .vcompressSt => 0x003
  | .vwload => 0x000
  | .vmmaX1 => 0x004
  | .vmmaX2 => 0x005
  | .vmmaX4 => 0x006
  | .vmmaX8 => 0x007
  | .vaccrd => 0x008
  | .vaccwr => 0x009
  | .vaccz => 0x00a
  | .dmk => 0x000
  | .cpy => 0x001
  | .cpyt => 0x002
  | .gsg => 0x003
  | .gss => 0x004
  | .ewait => 0x005
  | .estat => 0x006
  | .winnow => 0x000
  | .vsrdoAdd => 0x000
  | .vsrduAdd => 0x010
  | .vsrduMin => 0x011
  | .vsrduMax => 0x012
  | .vsrduAnd => 0x013
  | .vsrduOr => 0x014
  | .vsrduXor => 0x015
  | .chain => 0x000
  | .run => 0x001
  | .chwait => 0x002
  | .chquit => 0x003
  | .stop => 0x000
  | .lnkin => 0x001
  | .lnkout => 0x002
  | .delay => 0x003
  | .ereq => 0x004
  | .eresp => 0x005
  | .clred => 0x000
  | .clbcast => 0x001
  | .clagat => 0x002
  | .clrsc => 0x003
  | .clwait => 0x004
  | .thdec => 0x000
  | .thand => 0x001
  | .thor => 0x002
  | .thwand => 0x003
  | .thscore => 0x004
  | .thfuse => 0x005
  | .thtopk => 0x006

noncomputable section

/-- The instruction that is a node word. -/
def VOp.instr (w : VWord) : VOp → Instr
  | .vadd => .vadd w
  | .vsub => .vsub w
  | .vrsub => .vrsub w
  | .vmul => .vmul w
  | .vmulh => .vmulh w
  | .vdiv => .vdiv w
  | .vrem => .vrem w
  | .vand => .vand w
  | .vor => .vor w
  | .vxor => .vxor w
  | .vsll => .vsll w
  | .vsrl => .vsrl w
  | .vsra => .vsra w
  | .vmin => .vmin w
  | .vmax => .vmax w
  | .vsadd => .vsadd w
  | .vssub => .vssub w
  | .vabs => .vabs w
  | .vneg => .vneg w
  | .vnot => .vnot w
  | .vmv => .vmv w
  | .vsel => .vsel w
  | .vclz => .vclz w
  | .vpopc => .vpopc w
  | .vmacc => .vmacc w
  | .vfadd => .vfadd w
  | .vfsub => .vfsub w
  | .vfmul => .vfmul w
  | .vfdiv => .vfdiv w
  | .vfsqrt => .vfsqrt w
  | .vfmin => .vfmin w
  | .vfmax => .vfmax w
  | .vfabs => .vfabs w
  | .vfneg => .vfneg w
  | .vfsgnj => .vfsgnj w
  | .vfsgnjn => .vfsgnjn w
  | .vfsgnjx => .vfsgnjx w
  | .vfclass => .vfclass w
  | .vfma => .vfma w
  | .vfms => .vfms w
  | .vfnma => .vfnma w
  | .vfnms => .vfnms w
  | .vceq => .vceq w
  | .vcne => .vcne w
  | .vclt => .vclt w
  | .vcle => .vcle w
  | .vcgt => .vcgt w
  | .vcge => .vcge w
  | .vcun => .vcun w
  | .mand => .mand w
  | .mor => .mor w
  | .mxor => .mxor w
  | .mandn => .mandn w
  | .mnot => .mnot w
  | .mmv => .mmv w
  | .mset => .mset w
  | .mclr => .mclr w
  | .vcvt => .vcvt w
  | .vpack => .vpack w
  | .vunpack => .vunpack w
  | .vsget => .vsget w
  | .vsput => .vsput w
  | .vexp2 => .vexp2 w
  | .vlog2 => .vlog2 w
  | .vrcp => .vrcp w
  | .vrsqrt => .vrsqrt w
  | .vtanh => .vtanh w
  | .vsigm => .vsigm w
  | .vredosum => .vredosum w
  | .vredtsum => .vredtsum w
  | .vredmin => .vredmin w
  | .vredmax => .vredmax w
  | .vredand => .vredand w
  | .vredor => .vredor w
  | .vredxor => .vredxor w
  | .vshup => .vshup w
  | .vshdn => .vshdn w
  | .vjoinup => .vjoinup w
  | .vjoindn => .vjoindn w
  | .vrgatherX1 => .vrgatherX1 w
  | .vrgatherX2 => .vrgatherX2 w
  | .vrgatherX4 => .vrgatherX4 w
  | .vrgatherX8 => .vrgatherX8 w
  | .vcompress => .vcompress w
  | .vexpand => .vexpand w
  | .vpcnt => .vpcnt w
  | .vpcntInc => .vpcntInc w
  | .vfirst => .vfirst w
  | .vconflict => .vconflict w
  | .vsscanAdd => .vsscanAdd w
  | .vsscanMin => .vsscanMin w
  | .vsscanMax => .vsscanMax w
  | .vsscanAnd => .vsscanAnd w
  | .vsscanOr => .vsscanOr w
  | .vsscanXor => .vsscanXor w
  | .vextr => .vextr w
  | .vinsrt => .vinsrt w
  | .vld => .vld w
  | .vldSt => .vldSt w
  | .vldIx => .vldIx w
  | .vldff => .vldff w
  | .vst => .vst w
  | .vstSt => .vstSt w
  | .vstIx => .vstIx w
  | .vcompressSt => .vcompressSt w
  | .vwload => .vwload w
  | .vmmaX1 => .vmmaX1 w
  | .vmmaX2 => .vmmaX2 w
  | .vmmaX4 => .vmmaX4 w
  | .vmmaX8 => .vmmaX8 w
  | .vaccrd => .vaccrd w
  | .vaccwr => .vaccwr w
  | .vaccz => .vaccz w
  | .dmk => .dmk w
  | .cpy => .cpy w
  | .cpyt => .cpyt w
  | .gsg => .gsg w
  | .gss => .gss w
  | .ewait => .ewait w
  | .estat => .estat w
  | .winnow => .winnow w
  | .vsrdoAdd => .vsrdoAdd w
  | .vsrduAdd => .vsrduAdd w
  | .vsrduMin => .vsrduMin w
  | .vsrduMax => .vsrduMax w
  | .vsrduAnd => .vsrduAnd w
  | .vsrduOr => .vsrduOr w
  | .vsrduXor => .vsrduXor w
  | .chain => .chain w
  | .run => .run w
  | .chwait => .chwait w
  | .chquit => .chquit w
  | .stop => .stop w
  | .lnkin => .lnkin w
  | .lnkout => .lnkout w
  | .delay => .delay w
  | .ereq => .ereq w
  | .eresp => .eresp w
  | .clred => .clred w
  | .clbcast => .clbcast w
  | .clagat => .clagat w
  | .clrsc => .clrsc w
  | .clwait => .clwait w
  | .thdec => .thdec w
  | .thand => .thand w
  | .thor => .thor w
  | .thwand => .thwand w
  | .thscore => .thscore w
  | .thfuse => .thfuse w
  | .thtopk => .thtopk w

/-- The word of a node word (R36, R46). -/
def VOp.encode (op : VOp) (w : VWord) : Nat := w.encode op.major op.fn

/-- A 32-bit word from its constant part and its fields at their places (R34). -/
def encRdRs1Rs2 (c : Nat) (rd : Reg) (rs1 : Reg) (rs2 : Reg) : Nat :=
  c + rd.val * 2 ^ 19 + rs1.val * 2 ^ 14 + rs2.val * 2 ^ 9

/-- A 32-bit word from its constant part and its fields at their places (R34). -/
def encRdRs1Imm (c : Nat) (rd : Reg) (rs1 : Reg) (imm : Fin 16384) : Nat :=
  c + rd.val * 2 ^ 19 + rs1.val * 2 ^ 14 + imm.val

/-- A 32-bit word from its constant part and its fields at their places (R34). -/
def encRdRs1Sh (c : Nat) (rd : Reg) (rs1 : Reg) (sh : Fin 64) : Nat :=
  c + rd.val * 2 ^ 19 + rs1.val * 2 ^ 14 + sh.val

/-- A 32-bit word from its constant part and its fields at their places (R34). -/
def encRdRs1Sh' (c : Nat) (rd : Reg) (rs1 : Reg) (sh : Fin 32) : Nat :=
  c + rd.val * 2 ^ 19 + rs1.val * 2 ^ 14 + sh.val

/-- A 32-bit word from its constant part and its fields at their places (R34). -/
def encRdImm (c : Nat) (rd : Reg) (imm : Fin 524288) : Nat :=
  c + rd.val * 2 ^ 19 + imm.val

/-- A 32-bit word from its constant part and its fields at their places (R34). -/
def encRs2Rs1Imm (c : Nat) (rs2 : Reg) (rs1 : Reg) (imm : Fin 16384) : Nat :=
  c + rs2.val * 2 ^ 19 + rs1.val * 2 ^ 14 + imm.val

/-- A 32-bit word from its constant part and its fields at their places (R34). -/
def encRdRs1 (c : Nat) (rd : Reg) (rs1 : Reg) : Nat :=
  c + rd.val * 2 ^ 19 + rs1.val * 2 ^ 14

/-- A 32-bit word from its constant part and its fields at their places (R34). -/
def encRdRs1Rs2Rm (c : Nat) (rd : Reg) (rs1 : Reg) (rs2 : Reg) (rm : Fin 8) : Nat :=
  c + rd.val * 2 ^ 19 + rs1.val * 2 ^ 14 + rs2.val * 2 ^ 9 + rm.val

/-- A 32-bit word from its constant part and its fields at their places (R34). -/
def encRdRs1Rm (c : Nat) (rd : Reg) (rs1 : Reg) (rm : Fin 8) : Nat :=
  c + rd.val * 2 ^ 19 + rs1.val * 2 ^ 14 + rm.val

/-- A 32-bit word from its constant part and its fields at their places (R34). -/
def encRdRs1Rs2Rs3RmTy (c : Nat) (rd : Reg) (rs1 : Reg) (rs2 : Reg) (rs3 : Reg) (rm : Fin 8) (ty : Fin 2) : Nat :=
  c + rd.val * 2 ^ 19 + rs1.val * 2 ^ 14 + rs2.val * 2 ^ 9 + rs3.val * 2 ^ 4 + rm.val * 2 ^ 1 + ty.val

/-- A 32-bit word from its constant part and its fields at their places (R34). -/
def encRdCsr (c : Nat) (rd : Reg) (csr : Fin 4096) : Nat :=
  c + rd.val * 2 ^ 19 + csr.val * 2 ^ 2

/-- A 32-bit word from its constant part and its fields at their places (R34). -/
def encRdRs1Csr (c : Nat) (rd : Reg) (rs1 : Reg) (csr : Fin 4096) : Nat :=
  c + rd.val * 2 ^ 19 + rs1.val * 2 ^ 14 + csr.val * 2 ^ 2

/-- A 32-bit word from its constant part and its fields at their places (R34). -/
def encRdUimmCsr (c : Nat) (rd : Reg) (uimm : Fin 32) (csr : Fin 4096) : Nat :=
  c + rd.val * 2 ^ 19 + uimm.val * 2 ^ 14 + csr.val * 2 ^ 2

/-- A 32-bit word from its constant part and its fields at their places (R34). -/
def encRs1 (c : Nat) (rs1 : Reg) : Nat :=
  c + rs1.val * 2 ^ 14

/-- A 32-bit word from its constant part and its fields at their places (R34). -/
def encRs1Rs2 (c : Nat) (rs1 : Reg) (rs2 : Reg) : Nat :=
  c + rs1.val * 2 ^ 14 + rs2.val * 2 ^ 9

/-- A 32-bit word from its constant part and its fields at their places (R34). -/
def encRs1Rs2Off (c : Nat) (rs1 : Reg) (rs2 : Reg) (off : Fin 16384) : Nat :=
  c + rs1.val * 2 ^ 19 + rs2.val * 2 ^ 14 + off.val

/-- A 32-bit word from its constant part and its fields at their places (R34). -/
def encRdOff (c : Nat) (rd : Reg) (off : Fin 524288) : Nat :=
  c + rd.val * 2 ^ 19 + off.val

/-- A 32-bit word from its constant part and its fields at their places (R34). -/
def encRdRs1Rs2DwOrd (c : Nat) (rd : Reg) (rs1 : Reg) (rs2 : Reg) (dw : Fin 2) (ord : Fin 8) : Nat :=
  c + rd.val * 2 ^ 19 + rs1.val * 2 ^ 14 + rs2.val * 2 ^ 9 + dw.val * 2 ^ 3 + ord.val

/-- A 32-bit word from its constant part and its fields at their places (R34). -/
def encScope (c : Nat) (scope : Fin 8) : Nat :=
  c + scope.val

/-- A 32-bit word from its constant part and its fields at their places (R34). -/
def encRdRs1TyBalGexp (c : Nat) (rd : Reg) (rs1 : Reg) (ty : Fin 32) (bal : Fin 2) (gexp : Fin 16) : Nat :=
  c + rd.val * 2 ^ 19 + rs1.val * 2 ^ 14 + ty.val * 2 ^ 9 + bal.val * 2 ^ 4 + gexp.val

/-- A 32-bit word from its constant part and its fields at their places (R34). -/
def encRdTyLen (c : Nat) (rd : Reg) (ty : Fin 32) (len : Fin 16384) : Nat :=
  c + rd.val * 2 ^ 19 + ty.val * 2 ^ 14 + len.val

/-- The word of an instruction: 32-bit words from the formulae of the scalar chapters, 64-bit words from R131. The
steps without an encoding have the word 0, which is never an instruction (R43). -/
def encode : Instr → Nat
  | .add rd rs1 rs2 => encRdRs1Rs2 0x01000000 rd rs1 rs2
  | .sub rd rs1 rs2 => encRdRs1Rs2 0x01000001 rd rs1 rs2
  | .and rd rs1 rs2 => encRdRs1Rs2 0x01000002 rd rs1 rs2
  | .andn rd rs1 rs2 => encRdRs1Rs2 0x01000003 rd rs1 rs2
  | .or rd rs1 rs2 => encRdRs1Rs2 0x01000004 rd rs1 rs2
  | .orn rd rs1 rs2 => encRdRs1Rs2 0x01000005 rd rs1 rs2
  | .xor rd rs1 rs2 => encRdRs1Rs2 0x01000006 rd rs1 rs2
  | .xnor rd rs1 rs2 => encRdRs1Rs2 0x01000007 rd rs1 rs2
  | .sll rd rs1 rs2 => encRdRs1Rs2 0x01000008 rd rs1 rs2
  | .srl rd rs1 rs2 => encRdRs1Rs2 0x01000009 rd rs1 rs2
  | .sra rd rs1 rs2 => encRdRs1Rs2 0x0100000a rd rs1 rs2
  | .rol rd rs1 rs2 => encRdRs1Rs2 0x0100000b rd rs1 rs2
  | .ror rd rs1 rs2 => encRdRs1Rs2 0x0100000c rd rs1 rs2
  | .min rd rs1 rs2 => encRdRs1Rs2 0x0100000d rd rs1 rs2
  | .max rd rs1 rs2 => encRdRs1Rs2 0x0100000e rd rs1 rs2
  | .minn rd rs1 rs2 => encRdRs1Rs2 0x0100000f rd rs1 rs2
  | .maxn rd rs1 rs2 => encRdRs1Rs2 0x01000010 rd rs1 rs2
  | .cmplt rd rs1 rs2 => encRdRs1Rs2 0x01000011 rd rs1 rs2
  | .cmpltn rd rs1 rs2 => encRdRs1Rs2 0x01000012 rd rs1 rs2
  | .cmpeq rd rs1 rs2 => encRdRs1Rs2 0x01000013 rd rs1 rs2
  | .addI32 rd rs1 rs2 => encRdRs1Rs2 0x01000100 rd rs1 rs2
  | .subI32 rd rs1 rs2 => encRdRs1Rs2 0x01000101 rd rs1 rs2
  | .sllI32 rd rs1 rs2 => encRdRs1Rs2 0x01000108 rd rs1 rs2
  | .srlI32 rd rs1 rs2 => encRdRs1Rs2 0x01000109 rd rs1 rs2
  | .sraI32 rd rs1 rs2 => encRdRs1Rs2 0x0100010a rd rs1 rs2
  | .rolI32 rd rs1 rs2 => encRdRs1Rs2 0x0100010b rd rs1 rs2
  | .rorI32 rd rs1 rs2 => encRdRs1Rs2 0x0100010c rd rs1 rs2
  | .mul rd rs1 rs2 => encRdRs1Rs2 0x02000000 rd rs1 rs2
  | .mulh rd rs1 rs2 => encRdRs1Rs2 0x02000001 rd rs1 rs2
  | .mulhu rd rs1 rs2 => encRdRs1Rs2 0x02000002 rd rs1 rs2
  | .mulhsu rd rs1 rs2 => encRdRs1Rs2 0x02000003 rd rs1 rs2
  | .mulI32 rd rs1 rs2 => encRdRs1Rs2 0x02000004 rd rs1 rs2
  | .div rd rs1 rs2 => encRdRs1Rs2 0x02000005 rd rs1 rs2
  | .divu rd rs1 rs2 => encRdRs1Rs2 0x02000006 rd rs1 rs2
  | .rem rd rs1 rs2 => encRdRs1Rs2 0x02000007 rd rs1 rs2
  | .remu rd rs1 rs2 => encRdRs1Rs2 0x02000008 rd rs1 rs2
  | .divI32 rd rs1 rs2 => encRdRs1Rs2 0x02000009 rd rs1 rs2
  | .divuI32 rd rs1 rs2 => encRdRs1Rs2 0x0200000a rd rs1 rs2
  | .remI32 rd rs1 rs2 => encRdRs1Rs2 0x0200000b rd rs1 rs2
  | .remuI32 rd rs1 rs2 => encRdRs1Rs2 0x0200000c rd rs1 rs2
  | .addi rd rs1 imm => encRdRs1Imm 0x04000000 rd rs1 imm
  | .andi rd rs1 imm => encRdRs1Imm 0x05000000 rd rs1 imm
  | .ori rd rs1 imm => encRdRs1Imm 0x06000000 rd rs1 imm
  | .xori rd rs1 imm => encRdRs1Imm 0x07000000 rd rs1 imm
  | .cmplti rd rs1 imm => encRdRs1Imm 0x08000000 rd rs1 imm
  | .cmpltni rd rs1 imm => encRdRs1Imm 0x09000000 rd rs1 imm
  | .addiI32 rd rs1 imm => encRdRs1Imm 0x0a000000 rd rs1 imm
  | .slli rd rs1 sh => encRdRs1Sh 0x0b000000 rd rs1 sh
  | .srli rd rs1 sh => encRdRs1Sh 0x0b000800 rd rs1 sh
  | .srai rd rs1 sh => encRdRs1Sh 0x0b001000 rd rs1 sh
  | .rori rd rs1 sh => encRdRs1Sh 0x0b001800 rd rs1 sh
  | .slliI32 rd rs1 sh => encRdRs1Sh' 0x0b002000 rd rs1 sh
  | .srliI32 rd rs1 sh => encRdRs1Sh' 0x0b002800 rd rs1 sh
  | .sraiI32 rd rs1 sh => encRdRs1Sh' 0x0b003000 rd rs1 sh
  | .lui rd imm => encRdImm 0x0c000000 rd imm
  | .lhi rd imm => encRdImm 0x0d000000 rd imm
  | .auipc rd imm => encRdImm 0x0e000000 rd imm
  | .lb rd rs1 imm => encRdRs1Imm 0x10000000 rd rs1 imm
  | .lbu rd rs1 imm => encRdRs1Imm 0x11000000 rd rs1 imm
  | .lh rd rs1 imm => encRdRs1Imm 0x12000000 rd rs1 imm
  | .lhu rd rs1 imm => encRdRs1Imm 0x13000000 rd rs1 imm
  | .lw rd rs1 imm => encRdRs1Imm 0x14000000 rd rs1 imm
  | .lwu rd rs1 imm => encRdRs1Imm 0x15000000 rd rs1 imm
  | .ld rd rs1 imm => encRdRs1Imm 0x16000000 rd rs1 imm
  | .sb rs2 rs1 imm => encRs2Rs1Imm 0x18000000 rs2 rs1 imm
  | .sh rs2 rs1 imm => encRs2Rs1Imm 0x19000000 rs2 rs1 imm
  | .sw rs2 rs1 imm => encRs2Rs1Imm 0x1a000000 rs2 rs1 imm
  | .sd rs2 rs1 imm => encRs2Rs1Imm 0x1b000000 rs2 rs1 imm
  | .clz rd rs1 => encRdRs1 0x30000000 rd rs1
  | .ctz rd rs1 => encRdRs1 0x30000001 rd rs1
  | .popc rd rs1 => encRdRs1 0x30000002 rd rs1
  | .clzw rd rs1 => encRdRs1 0x30000003 rd rs1
  | .ctzw rd rs1 => encRdRs1 0x30000004 rd rs1
  | .popcw rd rs1 => encRdRs1 0x30000005 rd rs1
  | .rev8 rd rs1 => encRdRs1 0x30000006 rd rs1
  | .brev rd rs1 => encRdRs1 0x30000007 rd rs1
  | .sextb rd rs1 => encRdRs1 0x30000008 rd rs1
  | .sexth rd rs1 => encRdRs1 0x30000009 rd rs1
  | .sextw rd rs1 => encRdRs1 0x3000000a rd rs1
  | .zextb rd rs1 => encRdRs1 0x3000000b rd rs1
  | .zexth rd rs1 => encRdRs1 0x3000000c rd rs1
  | .zextw rd rs1 => encRdRs1 0x3000000d rd rs1
  | .faddF32 rd rs1 rs2 rm => encRdRs1Rs2Rm 0x41000000 rd rs1 rs2 rm
  | .fsubF32 rd rs1 rs2 rm => encRdRs1Rs2Rm 0x41000008 rd rs1 rs2 rm
  | .fmulF32 rd rs1 rs2 rm => encRdRs1Rs2Rm 0x41000010 rd rs1 rs2 rm
  | .fdivF32 rd rs1 rs2 rm => encRdRs1Rs2Rm 0x41000018 rd rs1 rs2 rm
  | .fsqrtF32 rd rs1 rm => encRdRs1Rm 0x41000020 rd rs1 rm
  | .fminF32 rd rs1 rs2 => encRdRs1Rs2 0x41000028 rd rs1 rs2
  | .fmaxF32 rd rs1 rs2 => encRdRs1Rs2 0x41000030 rd rs1 rs2
  | .fsgnjF32 rd rs1 rs2 => encRdRs1Rs2 0x41000038 rd rs1 rs2
  | .fsgnjnF32 rd rs1 rs2 => encRdRs1Rs2 0x41000040 rd rs1 rs2
  | .fsgnjxF32 rd rs1 rs2 => encRdRs1Rs2 0x41000048 rd rs1 rs2
  | .feqF32 rd rs1 rs2 => encRdRs1Rs2 0x41000050 rd rs1 rs2
  | .fltF32 rd rs1 rs2 => encRdRs1Rs2 0x41000058 rd rs1 rs2
  | .fleF32 rd rs1 rs2 => encRdRs1Rs2 0x41000060 rd rs1 rs2
  | .fclassF32 rd rs1 => encRdRs1 0x41000068 rd rs1
  | .faddF64 rd rs1 rs2 rm => encRdRs1Rs2Rm 0x42000000 rd rs1 rs2 rm
  | .fsubF64 rd rs1 rs2 rm => encRdRs1Rs2Rm 0x42000008 rd rs1 rs2 rm
  | .fmulF64 rd rs1 rs2 rm => encRdRs1Rs2Rm 0x42000010 rd rs1 rs2 rm
  | .fdivF64 rd rs1 rs2 rm => encRdRs1Rs2Rm 0x42000018 rd rs1 rs2 rm
  | .fsqrtF64 rd rs1 rm => encRdRs1Rm 0x42000020 rd rs1 rm
  | .fminF64 rd rs1 rs2 => encRdRs1Rs2 0x42000028 rd rs1 rs2
  | .fmaxF64 rd rs1 rs2 => encRdRs1Rs2 0x42000030 rd rs1 rs2
  | .fsgnjF64 rd rs1 rs2 => encRdRs1Rs2 0x42000038 rd rs1 rs2
  | .fsgnjnF64 rd rs1 rs2 => encRdRs1Rs2 0x42000040 rd rs1 rs2
  | .fsgnjxF64 rd rs1 rs2 => encRdRs1Rs2 0x42000048 rd rs1 rs2
  | .feqF64 rd rs1 rs2 => encRdRs1Rs2 0x42000050 rd rs1 rs2
  | .fltF64 rd rs1 rs2 => encRdRs1Rs2 0x42000058 rd rs1 rs2
  | .fleF64 rd rs1 rs2 => encRdRs1Rs2 0x42000060 rd rs1 rs2
  | .fclassF64 rd rs1 => encRdRs1 0x42000068 rd rs1
  | .fmadd rd rs1 rs2 rs3 rm ty => encRdRs1Rs2Rs3RmTy 0x44000000 rd rs1 rs2 rs3 rm ty
  | .fmsub rd rs1 rs2 rs3 rm ty => encRdRs1Rs2Rs3RmTy 0x45000000 rd rs1 rs2 rs3 rm ty
  | .fnmadd rd rs1 rs2 rs3 rm ty => encRdRs1Rs2Rs3RmTy 0x46000000 rd rs1 rs2 rs3 rm ty
  | .fnmsub rd rs1 rs2 rs3 rm ty => encRdRs1Rs2Rs3RmTy 0x47000000 rd rs1 rs2 rs3 rm ty
  | .fcvtF32I32 rd rs1 rm => encRdRs1Rm 0x48000000 rd rs1 rm
  | .fcvtF32N32 rd rs1 rm => encRdRs1Rm 0x48000008 rd rs1 rm
  | .fcvtF32I64 rd rs1 rm => encRdRs1Rm 0x48000010 rd rs1 rm
  | .fcvtF32N64 rd rs1 rm => encRdRs1Rm 0x48000018 rd rs1 rm
  | .fcvtF64I32 rd rs1 rm => encRdRs1Rm 0x48000020 rd rs1 rm
  | .fcvtF64N32 rd rs1 rm => encRdRs1Rm 0x48000028 rd rs1 rm
  | .fcvtF64I64 rd rs1 rm => encRdRs1Rm 0x48000030 rd rs1 rm
  | .fcvtF64N64 rd rs1 rm => encRdRs1Rm 0x48000038 rd rs1 rm
  | .fcvtI32F32 rd rs1 rm => encRdRs1Rm 0x48000040 rd rs1 rm
  | .fcvtN32F32 rd rs1 rm => encRdRs1Rm 0x48000048 rd rs1 rm
  | .fcvtI64F32 rd rs1 rm => encRdRs1Rm 0x48000050 rd rs1 rm
  | .fcvtN64F32 rd rs1 rm => encRdRs1Rm 0x48000058 rd rs1 rm
  | .fcvtI32F64 rd rs1 rm => encRdRs1Rm 0x48000060 rd rs1 rm
  | .fcvtN32F64 rd rs1 rm => encRdRs1Rm 0x48000068 rd rs1 rm
  | .fcvtI64F64 rd rs1 rm => encRdRs1Rm 0x48000070 rd rs1 rm
  | .fcvtN64F64 rd rs1 rm => encRdRs1Rm 0x48000078 rd rs1 rm
  | .fcvtF32F64 rd rs1 rm => encRdRs1Rm 0x48000080 rd rs1 rm
  | .fcvtF64F32 rd rs1 rm => encRdRs1Rm 0x48000088 rd rs1 rm
  | .fcvtF32Bf16 rd rs1 rm => encRdRs1Rm 0x70000000 rd rs1 rm
  | .fcvtBf16F32 rd rs1 rm => encRdRs1Rm 0x70000008 rd rs1 rm
  | .fcvtF32F16 rd rs1 rm => encRdRs1Rm 0x70000010 rd rs1 rm
  | .fcvtF16F32 rd rs1 rm => encRdRs1Rm 0x70000018 rd rs1 rm
  | .fcvtF64F16 rd rs1 rm => encRdRs1Rm 0x70000020 rd rs1 rm
  | .fcvtF16F64 rd rs1 rm => encRdRs1Rm 0x70000028 rd rs1 rm
  | .csrld rd csr => encRdCsr 0x50000000 rd csr
  | .csrst rd rs1 csr => encRdRs1Csr 0x50000001 rd rs1 csr
  | .csrbset rd rs1 csr => encRdRs1Csr 0x50000002 rd rs1 csr
  | .csrbclr rd rs1 csr => encRdRs1Csr 0x50000003 rd rs1 csr
  | .csrsti rd uimm csr => encRdUimmCsr 0x51000001 rd uimm csr
  | .csrbseti rd uimm csr => encRdUimmCsr 0x51000002 rd uimm csr
  | .csrbclri rd uimm csr => encRdUimmCsr 0x51000003 rd uimm csr
  | .ecall => 0x60000000
  | .ebreak => 0x60000001
  | .xret => 0x60000002
  | .wait rd rs1 rs2 => encRdRs1Rs2 0x60000003 rd rs1 rs2
  | .hexit => 0x60000004
  | .vcsave rs1 => encRs1 0x60000005 rs1
  | .vcrest rs1 => encRs1 0x60000006 rs1
  | .tlbinv rs1 rs2 => encRs1Rs2 0x60000007 rs1 rs2
  | .ifence => 0x60000008
  | .beq rs1 rs2 off => encRs1Rs2Off 0x81000000 rs1 rs2 off
  | .bne rs1 rs2 off => encRs1Rs2Off 0x82000000 rs1 rs2 off
  | .blt rs1 rs2 off => encRs1Rs2Off 0x83000000 rs1 rs2 off
  | .bge rs1 rs2 off => encRs1Rs2Off 0x84000000 rs1 rs2 off
  | .bltu rs1 rs2 off => encRs1Rs2Off 0x85000000 rs1 rs2 off
  | .bgeu rs1 rs2 off => encRs1Rs2Off 0x86000000 rs1 rs2 off
  | .jal rd off => encRdOff 0x88000000 rd off
  | .jalr rd rs1 imm => encRdRs1Imm 0x89000000 rd rs1 imm
  | .amoswap rd rs1 rs2 dw ord => encRdRs1Rs2DwOrd 0x90000000 rd rs1 rs2 dw ord
  | .amoadd rd rs1 rs2 dw ord => encRdRs1Rs2DwOrd 0x90000010 rd rs1 rs2 dw ord
  | .amoand rd rs1 rs2 dw ord => encRdRs1Rs2DwOrd 0x90000020 rd rs1 rs2 dw ord
  | .amoor rd rs1 rs2 dw ord => encRdRs1Rs2DwOrd 0x90000030 rd rs1 rs2 dw ord
  | .amoxor rd rs1 rs2 dw ord => encRdRs1Rs2DwOrd 0x90000040 rd rs1 rs2 dw ord
  | .amomin rd rs1 rs2 dw ord => encRdRs1Rs2DwOrd 0x90000050 rd rs1 rs2 dw ord
  | .amomax rd rs1 rs2 dw ord => encRdRs1Rs2DwOrd 0x90000060 rd rs1 rs2 dw ord
  | .amominu rd rs1 rs2 dw ord => encRdRs1Rs2DwOrd 0x90000070 rd rs1 rs2 dw ord
  | .amomaxu rd rs1 rs2 dw ord => encRdRs1Rs2DwOrd 0x90000080 rd rs1 rs2 dw ord
  | .amocas rd rs1 rs2 dw ord => encRdRs1Rs2DwOrd 0x90000090 rd rs1 rs2 dw ord
  | .fenceSv scope => encScope 0x91000000 scope
  | .fenceVs scope => encScope 0x91000008 scope
  | .fenceVv scope => encScope 0x91000010 scope
  | .fenceAll scope => encScope 0x91000018 scope
  | .setvl rd rs1 ty bal gexp => encRdRs1TyBalGexp 0x98000000 rd rs1 ty bal gexp
  | .setvli rd ty len => encRdTyLen 0x99000000 rd ty len
  | .enq rd rs1 rs2 => encRdRs1Rs2 0xa0000000 rd rs1 rs2
  | .qstat rd rs1 => encRdRs1 0xa0000001 rd rs1
  | .depdec rd rs1 => encRdRs1 0xa0000002 rd rs1
  | .gbar rd rs1 => encRdRs1 0xb0000000 rd rs1
  | .tbar rd rs1 => encRdRs1 0xb0000001 rd rs1
  | .vadd w => VOp.encode .vadd w
  | .vsub w => VOp.encode .vsub w
  | .vrsub w => VOp.encode .vrsub w
  | .vmul w => VOp.encode .vmul w
  | .vmulh w => VOp.encode .vmulh w
  | .vdiv w => VOp.encode .vdiv w
  | .vrem w => VOp.encode .vrem w
  | .vand w => VOp.encode .vand w
  | .vor w => VOp.encode .vor w
  | .vxor w => VOp.encode .vxor w
  | .vsll w => VOp.encode .vsll w
  | .vsrl w => VOp.encode .vsrl w
  | .vsra w => VOp.encode .vsra w
  | .vmin w => VOp.encode .vmin w
  | .vmax w => VOp.encode .vmax w
  | .vsadd w => VOp.encode .vsadd w
  | .vssub w => VOp.encode .vssub w
  | .vabs w => VOp.encode .vabs w
  | .vneg w => VOp.encode .vneg w
  | .vnot w => VOp.encode .vnot w
  | .vmv w => VOp.encode .vmv w
  | .vsel w => VOp.encode .vsel w
  | .vclz w => VOp.encode .vclz w
  | .vpopc w => VOp.encode .vpopc w
  | .vmacc w => VOp.encode .vmacc w
  | .vfadd w => VOp.encode .vfadd w
  | .vfsub w => VOp.encode .vfsub w
  | .vfmul w => VOp.encode .vfmul w
  | .vfdiv w => VOp.encode .vfdiv w
  | .vfsqrt w => VOp.encode .vfsqrt w
  | .vfmin w => VOp.encode .vfmin w
  | .vfmax w => VOp.encode .vfmax w
  | .vfabs w => VOp.encode .vfabs w
  | .vfneg w => VOp.encode .vfneg w
  | .vfsgnj w => VOp.encode .vfsgnj w
  | .vfsgnjn w => VOp.encode .vfsgnjn w
  | .vfsgnjx w => VOp.encode .vfsgnjx w
  | .vfclass w => VOp.encode .vfclass w
  | .vfma w => VOp.encode .vfma w
  | .vfms w => VOp.encode .vfms w
  | .vfnma w => VOp.encode .vfnma w
  | .vfnms w => VOp.encode .vfnms w
  | .vceq w => VOp.encode .vceq w
  | .vcne w => VOp.encode .vcne w
  | .vclt w => VOp.encode .vclt w
  | .vcle w => VOp.encode .vcle w
  | .vcgt w => VOp.encode .vcgt w
  | .vcge w => VOp.encode .vcge w
  | .vcun w => VOp.encode .vcun w
  | .mand w => VOp.encode .mand w
  | .mor w => VOp.encode .mor w
  | .mxor w => VOp.encode .mxor w
  | .mandn w => VOp.encode .mandn w
  | .mnot w => VOp.encode .mnot w
  | .mmv w => VOp.encode .mmv w
  | .mset w => VOp.encode .mset w
  | .mclr w => VOp.encode .mclr w
  | .vcvt w => VOp.encode .vcvt w
  | .vpack w => VOp.encode .vpack w
  | .vunpack w => VOp.encode .vunpack w
  | .vsget w => VOp.encode .vsget w
  | .vsput w => VOp.encode .vsput w
  | .vexp2 w => VOp.encode .vexp2 w
  | .vlog2 w => VOp.encode .vlog2 w
  | .vrcp w => VOp.encode .vrcp w
  | .vrsqrt w => VOp.encode .vrsqrt w
  | .vtanh w => VOp.encode .vtanh w
  | .vsigm w => VOp.encode .vsigm w
  | .vredosum w => VOp.encode .vredosum w
  | .vredtsum w => VOp.encode .vredtsum w
  | .vredmin w => VOp.encode .vredmin w
  | .vredmax w => VOp.encode .vredmax w
  | .vredand w => VOp.encode .vredand w
  | .vredor w => VOp.encode .vredor w
  | .vredxor w => VOp.encode .vredxor w
  | .vshup w => VOp.encode .vshup w
  | .vshdn w => VOp.encode .vshdn w
  | .vjoinup w => VOp.encode .vjoinup w
  | .vjoindn w => VOp.encode .vjoindn w
  | .vrgatherX1 w => VOp.encode .vrgatherX1 w
  | .vrgatherX2 w => VOp.encode .vrgatherX2 w
  | .vrgatherX4 w => VOp.encode .vrgatherX4 w
  | .vrgatherX8 w => VOp.encode .vrgatherX8 w
  | .vcompress w => VOp.encode .vcompress w
  | .vexpand w => VOp.encode .vexpand w
  | .vpcnt w => VOp.encode .vpcnt w
  | .vpcntInc w => VOp.encode .vpcntInc w
  | .vfirst w => VOp.encode .vfirst w
  | .vconflict w => VOp.encode .vconflict w
  | .vsscanAdd w => VOp.encode .vsscanAdd w
  | .vsscanMin w => VOp.encode .vsscanMin w
  | .vsscanMax w => VOp.encode .vsscanMax w
  | .vsscanAnd w => VOp.encode .vsscanAnd w
  | .vsscanOr w => VOp.encode .vsscanOr w
  | .vsscanXor w => VOp.encode .vsscanXor w
  | .vextr w => VOp.encode .vextr w
  | .vinsrt w => VOp.encode .vinsrt w
  | .vld w => VOp.encode .vld w
  | .vldSt w => VOp.encode .vldSt w
  | .vldIx w => VOp.encode .vldIx w
  | .vldff w => VOp.encode .vldff w
  | .vst w => VOp.encode .vst w
  | .vstSt w => VOp.encode .vstSt w
  | .vstIx w => VOp.encode .vstIx w
  | .vcompressSt w => VOp.encode .vcompressSt w
  | .vwload w => VOp.encode .vwload w
  | .vmmaX1 w => VOp.encode .vmmaX1 w
  | .vmmaX2 w => VOp.encode .vmmaX2 w
  | .vmmaX4 w => VOp.encode .vmmaX4 w
  | .vmmaX8 w => VOp.encode .vmmaX8 w
  | .vaccrd w => VOp.encode .vaccrd w
  | .vaccwr w => VOp.encode .vaccwr w
  | .vaccz w => VOp.encode .vaccz w
  | .dmk w => VOp.encode .dmk w
  | .cpy w => VOp.encode .cpy w
  | .cpyt w => VOp.encode .cpyt w
  | .gsg w => VOp.encode .gsg w
  | .gss w => VOp.encode .gss w
  | .ewait w => VOp.encode .ewait w
  | .estat w => VOp.encode .estat w
  | .winnow w => VOp.encode .winnow w
  | .vsrdoAdd w => VOp.encode .vsrdoAdd w
  | .vsrduAdd w => VOp.encode .vsrduAdd w
  | .vsrduMin w => VOp.encode .vsrduMin w
  | .vsrduMax w => VOp.encode .vsrduMax w
  | .vsrduAnd w => VOp.encode .vsrduAnd w
  | .vsrduOr w => VOp.encode .vsrduOr w
  | .vsrduXor w => VOp.encode .vsrduXor w
  | .chain w => VOp.encode .chain w
  | .run w => VOp.encode .run w
  | .chwait w => VOp.encode .chwait w
  | .chquit w => VOp.encode .chquit w
  | .stop w => VOp.encode .stop w
  | .lnkin w => VOp.encode .lnkin w
  | .lnkout w => VOp.encode .lnkout w
  | .delay w => VOp.encode .delay w
  | .ereq w => VOp.encode .ereq w
  | .eresp w => VOp.encode .eresp w
  | .clred w => VOp.encode .clred w
  | .clbcast w => VOp.encode .clbcast w
  | .clagat w => VOp.encode .clagat w
  | .clrsc w => VOp.encode .clrsc w
  | .clwait w => VOp.encode .clwait w
  | .thdec w => VOp.encode .thdec w
  | .thand w => VOp.encode .thand w
  | .thor w => VOp.encode .thor w
  | .thwand w => VOp.encode .thwand w
  | .thscore w => VOp.encode .thscore w
  | .thfuse w => VOp.encode .thfuse w
  | .thtopk w => VOp.encode .thtopk w
  | .stripCommit _ => 0
  | .stripFault _ => 0
  | .breakRun _ => 0
  | .temporalStrip _ => 0
  | .reForm _ => 0
  | .linkPacket _ _ => 0
  | .scannerPoll _ => 0
  | .delivery _ => 0
  | .dispatchPass _ => 0
  | .hartStop _ => 0
  | .reclaimTimeout _ => 0
  | .taskCompletion _ => 0
  | .decrementRetry _ => 0
  | .budgetExhausted _ => 0
  | .overrun _ => 0
  | .deadline _ => 0
  | .watchdog _ => 0
  | .commandAccept _ _ => 0
  | .commandEnd _ _ => 0
  | .checkpointPause _ _ => 0
  | .engineStall _ _ => 0
  | .dataFrame _ _ => 0
  | .creditFrame _ _ => 0
  | .abortFrame _ _ => 0
  | .probeFrame _ _ => 0
  | .replyFrame _ _ => 0
  | .resendTimeout _ _ _ _ => 0
  | .silenceTimeout _ _ _ => 0
  | .unreachablePeer _ _ _ => 0
  | .collectiveEnd _ _ => 0
  | .collectiveCheckpoint _ _ => 0
  | .portReceive _ _ => 0
  | .portTransmit _ => 0
  | .mgmtRead _ _ _ => 0
  | .mgmtWrite _ _ _ => 0
  | .getVersion _ => 0
  | .getCapabilities _ => 0
  | .negotiateAlgorithms _ => 0
  | .getDigests _ => 0
  | .getCertificate _ => 0
  | .challenge _ => 0
  | .getMeasurements _ => 0
  | .unsupportedRequest _ => 0
  | .resetN => 0
  | .cmdRead _ => 0
  | .cmdWrite _ => 0
  | .halted _ => 0
  | .treset _ => 0
  | .quiescence _ => 0
  | .trelease _ => 0
  | .endEntry _ => 0
  | .answerRetry _ => 0
  | .answerDecline _ => 0
  | .fqueue _ => 0
  | .migrationEnd _ _ => 0
  | .uncorrectableError _ _ => 0
  | .configRestore _ => 0
  | .repair _ => 0
  | .powerSample _ _ => 0
  | .priorityFlowControl _ _ _ => 0

/-- The length of a word in bytes, from bits [31:30] of its first parcel (R31). -/
def wordLen (parcel : Nat) : Nat := if parcel / 2 ^ 30 % 4 = 3 then 8 else 4

/-- The length of an instruction's word in bytes. -/
def Instr.len (i : Instr) : Nat := if (nodeOf i).isSome then 8 else 4

/-- The feature that governs a major opcode, when it is a feature major (R50). -/
def majorFeature (ls major : Nat) : Option Nat :=
  if ls = 3 then
    if 0x20 ≤ major ∧ major ≤ 0x3E then some (64 + (major - 0x20)) else none
  else if 0x30 ≤ major ∧ major ≤ 0x3F then some (16 * ls + (major - 0x30)) else none

/-- The majors that R43-R46 assign. -/
def majorAssigned (ls major : Nat) : Bool :=
  match ls with
  | 0 => [0x01, 0x02, 0x04, 0x05, 0x06, 0x07, 0x08, 0x09, 0x0A, 0x0B, 0x0C, 0x0D, 0x0E, 0x10, 0x11, 0x12, 0x13, 0x14,
          0x15, 0x16, 0x18, 0x19, 0x1A, 0x1B].contains major
  | 1 => [0x01, 0x02, 0x04, 0x05, 0x06, 0x07, 0x08, 0x10, 0x11, 0x20].contains major
  | 2 => [0x01, 0x02, 0x03, 0x04, 0x05, 0x06, 0x08, 0x09, 0x10, 0x11, 0x18, 0x19, 0x20].contains major
  | _ => [0x01, 0x02, 0x03, 0x04, 0x05, 0x06, 0x07, 0x08, 0x09, 0x0A, 0x0B, 0x0C, 0x0D].contains major

/-- Tests 1 and 2 of R51, on the major opcode, then the rest. -/
def checkMajor (ls major : Nat) {α : Type} (rest : Except Fate α) : Except Fate α :=
  match majorFeature ls major with
  | some n => if Config.hasFeature n then rest else .error (.feature n)
  | none => if majorAssigned ls major then rest else .error .illegal

/-- Tests 3, 4 and 5 of R51 on the instruction that a word's opcode fields leave. -/
def checkCand {α : Type} (c : Option α) (ok3 : α → Bool) (ok4 : α → Option Nat) (ok5 : α → Bool) : Except Fate α :=
  match c with
  | none => .error .illegal
  | some i =>
    if ok3 i = true then
      match ok4 i with
      | some n => .error (.feature n)
      | none => if ok5 i = true then .ok i else .error .illegal
    else .error .illegal

/-- The node word at a place, or its fate (R51). -/
def decodeNode (p : Place) (w : Nat) : Except Fate (VOp × VWord) :=
  let vw := vwordOf w
  checkMajor 3 (w / 2 ^ 24 % 64)
    (checkCand ((vopOf (w / 2 ^ 24 % 64) (w / 2 ^ 32 % 1024) vw).map (fun op => (op, vw)))
      (fun c => vcheck3 p vw c.1) (fun c => lowestAbsent (vfeatures vw c.1)) (fun c => vcheck5 p vw c.1))

/-- The 32-bit instruction a word is, or its fate (R51). -/
def decodeScalar (w : Nat) : Except Fate Instr :=
  checkMajor (w / 2 ^ 30 % 4) (w / 2 ^ 24 % 64)
    (checkCand (cand32 w) (fun i => decide (encode i = w) && scheck3 i) check4 srmOk)

/-- The fate of a 32-bit word in a chain block (R47, R53): that of its own tests 1 to 4, else `ILLEGAL` under test 5. -/
def shortFate (w : Nat) : Fate :=
  match decodeScalar (w % 2 ^ 32) with
  | .error f => f
  | .ok _ => .illegal

/-- The node word that a doubleword of a chain block is, or its fate (R53). -/
def decodeBlockWord (w : Nat) : Except Fate (VOp × VWord) :=
  if w / 2 ^ 30 % 4 = 3 then decodeNode .chain w else .error (shortFate w)

/-- The fate of a word under R51: tests 1 to 5. Test 6 (the mode) and the control-core clause of test 5 need the state. -/
def decodeWord (p : Place) (w : Nat) : Except Fate Instr :=
  if w / 2 ^ 30 % 4 = 3 then
    match decodeNode p w with
    | .ok (op, vw) => .ok (op.instr vw)
    | .error f => .error f
  else
    match p with
    | .inline => decodeScalar w
    | .chain => .error (shortFate w)

/-- Decode the bytes at an address (R31): the first parcel gives the length. -/
def decode (p : Place) (bs : List Byte) : Decoded :=
  if bs.length < 4 then .short
  else
    let len := wordLen (leNat (bs.take 4))
    if bs.length < len then .short
    else
      let w := leNat (bs.take len)
      match decodeWord p w with
      | .ok i => .instr i len
      | .error f => .fate f w len

/-- The instruction the decoder reads from a table word: its bytes, least significant first, zeros above `nbits`. A node
word that stands only in a chain block (R47) is read as standing there. -/
def decodeTableWord (nbits w : Nat) : Option Instr :=
  let bs := leBytes 8 (w % 2 ^ nbits)
  match decode .inline bs with
  | .instr i _ => some i
  | _ => match decode .chain bs with
    | .instr i _ => some i
    | _ => none

end

end Sys2Proof
end

