-- ==== Sys2Proof/Machine/State.lean ====
section
/-! DEFINITION. The state of the package as plain data, the two kinds of stop, and the state after reset. Numbers of
spec/16_isolation.md R371 objects, spec/14_harts_kiln.md queues and entries, and hart contexts are sparse: an unlisted
one holds its reset value. -/

namespace Sys2Proof
namespace Machine

/-- Why the machine stops. -/
inductive Fault where
  /-- Raised by `step` when BOOTSTAT holds a failure code 0x81-0x84: boot has stopped, and only a package reset leaves
  that state (spec/16_isolation.md R380). Safe: the spec gives no further step. -/
  | bootStopped (bootstat : Nat)
  deriving DecidableEq, Repr

/-- Why an instruction has no meaning. -/
inductive Refusal where
  /-- Raised by an arm of `exec` whose instruction has no meaning yet. Safe: nothing can be proved of its effect. -/
  | notModelled (mnemonic : String)
  deriving DecidableEq, Repr

/-- Modes U, S and M, in rising privilege (spec/17_traps.md R388). -/
inductive Mode where
  | u | s | m
  deriving DecidableEq, Repr

/-- The number of a mode in `XSTAT.PM` (R388). -/
def Mode.code : Mode → Nat
  | .u => 0
  | .s => 1
  | .m => 3

/-- An agent that executes instructions: a hart context or a control core (spec/01_machine.md R12, R15, R26). -/
inductive AgentId where
  | hart (h : HartId)
  | cc (n : Fin 32)
  deriving DecidableEq, Repr

/-- Who performs an access, as a unit with a translation cache of its own (spec/16_isolation.md R362, R363): the scalar
or vector side of an agent, an engine of a die, a chain's ports, or Kiln. -/
inductive XUnit where
  | scalar (a : AgentId)
  | vector (h : HartId)
  | ports (h : HartId)
  | engine (die : Fin 8) (n : Nat)
  | kiln (die : Fin 8)
  deriving DecidableEq, Repr

/-- One cached page-table entry or leaf (R362): its unit, address space, level, the index bits of the path that lead to
it, and the entry. -/
structure TlbEntry where
  unit  : XUnit
  asid  : Nat
  level : Nat
  path  : Nat
  entry : Word
  deriving DecidableEq, Repr

/-- An aligned doubleword of code that an instruction store holds for an agent, by its memory key (spec/02_encoding.md
R60). -/
structure StoredCode where
  agent : AgentId
  key   : Nat
  word  : Word
  deriving DecidableEq, Repr

/-- What a hart context is doing. -/
inductive Status where
  /-- No task holds the context, or its hart has exited. -/
  | idle
  /-- The hart executes, unless its task is pre-empted, held or halted. -/
  | running
  /-- Parked on the record with this token (spec/16_isolation.md R367, R368); `page` is false for an HFAULT. -/
  | parked (token : Nat) (page : Bool)
  deriving DecidableEq, Repr

/-- A tensor descriptor (spec/12_atomics_engines.md R262). -/
structure Desc where
  base  : Nat
  dir   : Nat
  space : Nat
  esz   : Nat
  dims  : List (Nat × Int)
  deriving DecidableEq, Repr

/-- The forms of engine command (R266; a chain's `ereq` to engine 0 issues a `cpy`, R279). -/
inductive CmdForm where
  | cpy | cpyt | gsg | gss | winnow
  deriving DecidableEq, Repr

/-- Where a command stands. -/
inductive CmdPhase where
  /-- Issued; the engine has not accepted it (R267). -/
  | issued
  /-- Accepted and running. -/
  | running
  /-- Stalled on the fault of the record with this token (R276). -/
  | stalled (token : Nat)
  /-- Paused at a checkpoint (R277). -/
  | paused
  /-- Final: its status code says how (R273). -/
  | final
  deriving DecidableEq, Repr

/-- One engine command (spec/12_atomics_engines.md R265-R278): `next` is the linear index it does next, `counts` the counts
that a `winnow` has read, `written` the elements written. -/
structure Command where
  owner   : HartId
  ticket  : Nat
  task    : Option EntryId
  form    : CmdForm
  mode    : Mode
  dst     : Option Desc
  src     : Option Desc
  ga      : Word
  gb      : Word
  cid     : Option Nat
  phase   : CmdPhase
  code    : Nat
  next    : Nat
  counts  : Option (List Nat)
  written : Nat
  clipped : Bool
  charged : Nat
  deriving DecidableEq, Repr

/-- A member of a collective group (spec/15_links_collectives.md R346). -/
structure Member where
  station : Nat
  port    : Nat
  deriving DecidableEq, Repr

/-- What a collective knows of one peer (R353, R354): chunks received in full, how many of them it has consumed, credits received,
chunks sent, the chunks sent again, whether it waits for a REPLY. -/
structure Peer where
  rank    : Nat
  got     : List (Nat × List Byte)
  used    : Nat
  credit  : Nat
  sent    : Nat
  resent  : List Nat
  probing : Bool
  deriving DecidableEq, Repr

/-- One collective of a hart (R350-R356), of which `past` says that the task that issued it has ended: what is left is the engine's. -/
structure Coll where
  owner   : HartId
  ten     : BitVec 6
  past    : Bool
  ticket  : Nat
  task    : Option EntryId
  form    : Nat
  ty      : Nat
  rm      : Nat
  op      : Nat
  mode    : Mode
  group   : Nat
  cseq    : Nat
  rank    : Nat
  root    : Nat
  seed    : Word
  timeout : Nat
  members : List Member
  dst     : Option Desc
  src     : Option Desc
  local_  : List Byte
  peers   : List Peer
  code    : Nat
  chunks  : Nat
  flags   : BitVec 5
  stall   : Option Nat
  paused  : Bool
  deriving DecidableEq, Repr

/-- A chain as `chain` installed it (spec/13_chains.md R281, R286, R288): the node words and what they decode to, and the
reserve rows of the core, lowest row and count, and whether its configuration store is damaged (spec/18_ras.md R417). -/
structure Chain where
  cid    : Nat
  infl   : Nat
  sgran  : Nat
  words  : List Word
  nodes  : List (VOp × VWord)
  rowLo  : Nat
  rows   : Nat
  damaged : Bool
  deriving DecidableEq, Repr

/-- The units of one queue of a run: those produced in committed strips, how many have been consumed, and whether its EOS
has been sent (R294). A unit is its bits. -/
structure Stream where
  units : List Nat
  ended : Bool
  deriving DecidableEq, Repr

/-- What a node of a run carries between strips (R168, R185, R203, R293): the input units it has consumed, the output it
has not emitted, a count, whether its stream has ended, and the rest of its state. -/
structure NodeState where
  used  : Nat
  carry : List Nat
  count : Nat
  ended : Bool
  nums  : List Nat
  deriving DecidableEq, Repr

/-- The vector registers (spec/01_machine.md R16, spec/04_formats.md R100, R101): 262,144 bits of each register in granule
order, and the scale units, nine bits each, in unit order. -/
structure VRegs where
  data  : Vector (BitVec 262144) 32
  scale : Vector (BitVec 18432) 32
  deriving DecidableEq, Repr

/-- A unit of register poison (spec/18_ras.md R418): a granule of a vector register, a mask, an accumulator row of one
lane, a g register. -/
inductive RegUnit where
  | v (r granule : Nat)
  | m (n : Nat)
  | acc (row lane : Nat)
  | g (r : Nat)
  deriving DecidableEq, Repr

/-- A run (R290-R293): the values captured at `run`, the streams of the queues, the strip to execute next, what each node
carries, how it stands, and the poisoned units among the captured registers. -/
structure Run where
  n       : Nat
  size    : Nat
  vlLen   : Nat
  lanes   : Nat
  dir     : Nat
  space   : Nat
  rmode   : Nat
  srseed  : Word
  mode    : Mode
  masks   : Vector (BitVec 65536) 8
  g       : Vector Word 32
  v       : VRegs
  acc     : Vector (BitVec 131072) 64
  descs   : Vector (Option Desc) 16
  strip   : Nat
  streams : List (Nat × Stream)
  nodes   : List NodeState
  exit    : Nat
  stall   : Option Nat
  broken  : Bool
  bad     : List RegUnit
  deriving DecidableEq, Repr

/-- The failure of a run that waits to be reported (R302, R303). -/
structure RunFault where
  cause  : Nat
  xval   : Word
  offset : Bool := false
  access : Nat := 0
  deriving DecidableEq, Repr

/-- The vector state of a hart context (spec/17_traps.md R402). Accumulator tile a, row r is element 8*a + r. Poison bits
follow spec/18_ras.md R418. -/
structure VecState where
  regs    : VRegs
  masks   : Vector (BitVec 65536) 8
  acc     : Vector (BitVec 131072) 64
  latch   : Option Nat
  vlTy    : BitVec 5
  vlLen   : BitVec 17
  vstart  : BitVec 17
  mtDir   : BitVec 2
  mtSpace : BitVec 2
  srseed  : Word
  descs   : Vector (Option Desc) 16
  tickets : Nat
  clTickets : Nat
  chbase  : Option (BitVec 52)
  rRun    : Bool
  rTemp   : Bool
  rFail   : Bool
  rPend   : Bool
  rElem   : BitVec 41
  chain   : Option Chain
  run     : Option Run
  runFault : Option RunFault
  exits   : Nat
  pv      : Vector (BitVec 1024) 32
  pm      : BitVec 8
  pacc    : Vector (BitVec 128) 64
  deriving DecidableEq, Repr

/-- What a control core's object window holds (spec/16_isolation.md R369). -/
structure CcRegs where
  tenmask : Word
  rootOn  : Bool
  asid    : BitVec 16
  root    : BitVec 36
  wren    : Bool
  kind    : BitVec 4
  index   : BitVec 32
  status  : BitVec 8
  cmd     : BitVec 8
  objd    : Vector Word 8
  fqueue  : Bool
  deriving DecidableEq, Repr

/-- An agent: its scalar state (spec/17_traps.md R402), its vector state, what Kiln has set for its task, and where it
stands; `overdue` says that S mode or a park has held its pending `OVERRUN` (R400); `reclaimed` says that lanes in force beyond its
pending block have been taken, and `kept` is the block that a hart whose grant has shrunk holds until its next `setvl` or until the
rest is taken (spec/14_harts_kiln.md R315). On a control core the vector and task parts stay at reset. -/
structure Agent where
  id      : AgentId
  g       : Vector Word 32
  pg      : BitVec 32
  pc      : Word
  mode    : Mode
  xpc     : Word
  xasync  : Bool
  xcause  : BitVec 8
  xval    : Word
  runrep  : Bool
  fof     : Bool
  pm      : BitVec 2
  rmode   : BitVec 3
  fflags  : BitVec 5
  vec     : VecState
  lanes   : BitVec 8
  first   : BitVec 7
  nlanes  : BitVec 8
  nfirst  : BitVec 7
  ten     : BitVec 6
  asid    : BitVec 16
  srcq    : BitVec 12
  seq     : BitVec 32
  task    : Option EntryId
  status  : Status
  held    : Bool
  overrun : Bool
  overdue : Bool
  stopped : Bool
  halted  : Bool
  garr    : Bool
  tarr    : Bool
  gwait   : Option (BitVec 16)
  twait   : Option (BitVec 16)
  inRows  : Bool
  saveRows : List Nat
  reclaimed : Bool
  kept    : Option (BitVec 7 × BitVec 8)
  cc      : CcRegs
  deriving DecidableEq, Repr

/-- A barrier register (spec/14_harts_kiln.md R316). -/
structure Barrier where
  gen  : BitVec 16
  tag  : BitVec 16
  arr  : BitVec 11
  live : BitVec 11
  deriving DecidableEq, Repr

/-- A gang of a task (spec/01_machine.md R29): its core, its first tile row and rows, its barrier, and its pool lanes
(R315), each block as its lowest lane and size. -/
structure Gang where
  core   : Fin 40
  row    : Nat
  rows   : Nat
  gbar   : Barrier
  pool   : List (Nat × Nat)
  deriving DecidableEq, Repr

/-- The states of an entry (spec/14_harts_kiln.md R342). -/
inductive EntryState where
  | queued | waiting | ready | running | preempted | done | rejected | ended
  deriving DecidableEq, Repr

/-- The number of an entry's state (R342). -/
def EntryState.code : EntryState → Nat
  | .queued => 0
  | .waiting => 1
  | .ready => 2
  | .running => 3
  | .preempted => 4
  | .done => 5
  | .rejected => 6
  | .ended => 7

/-- The final states (R342). -/
def EntryState.final : EntryState → Bool
  | .done | .rejected | .ended => true
  | _ => false

/-- A delivered entry and the task it starts (R320-R342). `left` counts lane-cycles, 128 to a work unit (R337). -/
structure Entry where
  id       : EntryId
  words    : Vector Word 8
  die      : Fin 8
  ten      : BitVec 6
  asid     : BitVec 16
  slot     : Option Nat
  state    : EntryState
  code     : Nat
  depUnder : Bool
  counter  : Nat
  deadline : Nat
  watch    : Nat
  watched  : Nat
  delivNo  : Nat
  skips    : Nat
  gangs    : List Gang
  tbar     : Barrier
  left     : Nat
  ext      : Bool
  overdraft : Nat
  exhausted : Bool
  target   : Option HartId
  missed   : Bool
  retry    : Bool
  deriving DecidableEq, Repr

/-- An entry in an on-chip slot (R319): its sequence number, image, the ring slot it was read from, and whether an error
has lost it (spec/18_ras.md R419). -/
structure Slot where
  seq   : Nat
  words : Vector Word 8
  ring  : Option Nat
  lost  : Bool
  deriving DecidableEq, Repr

/-- A queue (spec/14_harts_kiln.md R319, R326, R329; spec/16_isolation.md R371 kind 4). `dropped` is the number of entries
that are to be rejected with code 6 since the queue was disabled (R327), `doomed` with code 7 since its tenancy was reset (R343), `ends` the entries that END has marked (R377). -/
structure Queue where
  en       : Bool
  ring     : Bool
  uopen    : Bool
  die      : BitVec 3
  asid     : BitVec 16
  rbase    : Word
  log2     : BitVec 5
  nextSeq  : Nat
  slots    : List Slot
  widx     : Nat
  ridx     : Nat
  interval : Nat
  due      : Nat
  pending  : List Nat
  ends     : List Nat
  dropped  : Nat
  doomed   : Nat
  stall    : Option Nat
  deriving DecidableEq, Repr

/-- A tenancy (spec/16_isolation.md R371 kind 1) with the rings' indices that the machine keeps and the records that
wait in Kiln while the ring is full (R376). -/
structure Tenancy where
  rst    : Bool
  wdf    : BitVec 8
  htvec  : Word
  fqbase : BitVec 52
  fqirq  : BitVec 32
  fqlog2 : BitVec 5
  extlim : BitVec 48
  fqlost : BitVec 32
  quiet  : Bool
  tokens : Nat
  waiting : List (Vector Word 8)
  deriving DecidableEq, Repr

/-- What an unanswered record stands for (R368, R377). -/
inductive Subject where
  | hartPage (h : HartId)
  | hartFault (h : HartId)
  | run (h : HartId) (cause : Nat) (va : Word)
  | command (h : HartId) (ticket : Nat)
  | collective (h : HartId) (ticket : Nat)
  | ring (q : Fin 4096)
  deriving DecidableEq, Repr

/-- A record that waits for its answer (R376, R377), or whose answer, DECLINE or not, waits for its hart to go on (R368). -/
structure Pending where
  ten     : BitVec 6
  token   : Nat
  words   : Vector Word 8
  subject : Subject
  answered : Option Bool
  deriving DecidableEq, Repr

/-- A die share (R371 kind 2). -/
structure Share where
  share    : BitVec 40
  maxCores : BitVec 6
  maxLanes : BitVec 13
  maxRows  : BitVec 18
  deriving DecidableEq, Repr

/-- An address space (R371 kind 3). -/
structure ASpace where
  valid : Bool
  ten   : BitVec 6
  root  : BitVec 36
  deriving DecidableEq, Repr

/-- A network port (R371 kind 5; spec/15_links_collectives.md R345). -/
structure Port where
  station : BitVec 48
  tagPrio : BitVec 3
  vlan    : BitVec 12
  tag     : Bool
  prio    : BitVec 3
  rxbase  : Word
  txbase  : Word
  txlog2  : BitVec 5
  rxlog2  : BitVec 5
  drops   : BitVec 32
  paused  : Bool
  deriving DecidableEq, Repr

/-- A group registration (R371 kind 6). -/
structure GroupReg where
  valid : Bool
  ten   : BitVec 6
  group : BitVec 32
  deriving DecidableEq, Repr

/-- A migration object (spec/18_ras.md R421). -/
structure Migration where
  busy   : Bool
  line   : BitVec 10
  result : BitVec 8
  src    : BitVec 36
  dst    : BitVec 36
  ten    : BitVec 6
  next   : Nat
  deriving DecidableEq, Repr

/-- The fields of a hart debug object that the object itself holds (spec/17_traps.md R415). -/
structure DebugObj where
  halt  : Bool
  space : Bool
  reg   : BitVec 12
  image : Word
  imgop : BitVec 2
  deriving DecidableEq, Repr

/-- A packet of a lane link (spec/13_chains.md R294): its units, their width, and its EOS bit. -/
structure Packet where
  units : List Nat
  width : Nat
  eos   : Bool
  deriving DecidableEq, Repr

/-- A lane link from a core in a direction (R298-R300): the packets its `lnkout` has committed and not sent, and those in
the buffer of the neighbour's `lnkin`. -/
structure Link where
  out  : List Packet
  inn  : List Packet
  deriving DecidableEq, Repr

/-- The SPDM mailbox (spec/16_isolation.md R386). -/
structure Mailbox where
  owner  : BitVec 2
  length : Word
  bytes  : List (Nat × Byte)
  deriving DecidableEq, Repr

/-- What leaves the package: a frame of a network port with its FCS, or the header and payload of a frame of the management
port. -/
inductive Output where
  | frame (port : Nat) (bytes : List Byte)
  | mgmt (bytes : List Byte)
  deriving DecidableEq, Repr

/-- A part outside a core that a chain's region needs: an engine of a die, or a link port of a core in a direction
(spec/13_chains.md R304, R306). -/
inductive Supply where
  | engine (die : Fin 8) (n : Nat)
  | link (core dir : Nat)
  deriving DecidableEq, Repr

/-- What moves next (log 1): an event of the table, another agent, the passing of kiln and arithmetic cycles (log 3), the
instruction of a hart that was in flight when a pre-emption or interrupt arrived, which completes or stops at an element, the
withholding of an engine or link port, a frame that arrives at a network port with its FCS, one that arrives inside the package,
one at the management port by its EtherType, header and payload, the next line of a migration, which fails both reads or not, or the filling or emptying of a translation cache (log 7) or an instruction store (log 6). -/
inductive Turn where
  | event (i : Instr)
  | agent (a : AgentId)
  | elapse (kiln cycles : Nat)
  | inFlight (a : AgentId) (stop : Option Nat)
  | withhold (x : Supply) (away : Bool)
  | wire (port : Fin 16) (bytes : List Byte)
  | inside
  | mgmtFrame (ty : Nat) (bytes : List Byte)
  | migrateLine (obj : Fin 8) (lasting : Bool)
  | cache (u : XUnit) (asid va : Nat)
  | evict (u : XUnit) (asid va : Nat)
  | store (a : AgentId) (key : Nat)
  | drop (a : AgentId) (key : Nat)
  deriving DecidableEq, Repr

/-- The state of the package. `me` is the agent that acts, `others` the other agents that have left their reset state. -/
structure State where
  me        : Agent
  others    : List Agent
  mem       : List Host.Cell
  poison    : List Nat
  istore    : List StoredCode
  tlb       : List TlbEntry
  laneOwner : List (Nat × HartId)
  tenancies : List (Nat × Tenancy)
  shares    : List (Nat × Share)
  aspaces   : List (Nat × ASpace)
  queues    : List (Nat × Queue)
  ports     : List (Nat × Port)
  groups    : List (Nat × GroupReg)
  migrations : List (Nat × Migration)
  debug     : List (Nat × DebugObj)
  links     : List (Nat × Link)
  entries   : List Entry
  delivered : Nat
  rotation  : List (Nat × Nat)
  scanNext  : Nat
  scanAt    : Nat
  drain     : List (Nat × EntryId)
  records   : List Pending
  cmds      : List Command
  colls     : List Coll
  early     : List (Nat × Frame)
  groupSeq  : List (Nat × Nat)
  kclock    : Nat
  cycles    : Nat
  clockStep : Nat
  bootstat  : BitVec 8
  bmeas     : Vector (BitVec 512) 8
  staging   : List Host.Cell
  stageAddr : Word
  mailbox   : Mailbox
  spdm      : Nat
  ccLoad    : Word
  sent      : List Output
  coresOut  : List Nat
  fenced    : List SpareUnit
  withheld  : List Supply
  inside    : List (Fin 16 × Frame)
  heldFrames : List (Nat × List Byte)
  spares    : List (Nat × Nat)
  tick      : Nat
  agenda    : List Turn
  deriving DecidableEq, Repr

/-- What a step of the machine does: execute an instruction, change the state, or stop. -/
inductive Move where
  | exec (i : Instr) (s : State)
  | next (s : State)
  | stop (f : Fault)
  deriving DecidableEq, Repr

/-- Where Kiln places a task (spec/14_harts_kiln.md R333): for each core its number on the die, the first of its tile rows,
its hart contexts, and their lane blocks as lowest lane and size. -/
structure Placed where
  core   : Nat
  row    : Nat
  rows   : Nat
  ctxs   : List Nat
  blocks : List (Nat × Nat)
  deriving DecidableEq, Repr

/-- What a dispatch pass does to a later task to free lanes (R333): shrink a hart towards its MINL, or pre-empt the task. -/
inductive Change where
  | shrink (h : HartId) (minl : Nat)
  | preempt (e : EntryId)
  deriving DecidableEq, Repr

/-- A dispatch pass under way (R333): the state, what waits for lanes to be freed, the entries skipped, and whether the pass
has stopped. -/
structure Pass where
  s       : State
  kept    : List Placed
  skipped : List EntryId
  stopped : Bool
  deriving DecidableEq, Repr

/-- The kinds of access (spec/16_isolation.md R360). -/
inductive Acc where
  | read | write | both | fetch
  deriving DecidableEq, Repr

/-- ACCESS of a fault record (R375): 0 read, 1 write, 2 fetch; an atomic counts as a write. -/
def Acc.code : Acc → Nat
  | .read => 0
  | .write => 1
  | .both => 1
  | .fetch => 2

/-- Who translates, and how (R357-R369): the unit, the mode recorded for the access, the address space and its root, the
hart and task whose window it sees, the configuration identity of a chain's access, and whether a control core acts. -/
structure XCtx where
  unit : XUnit
  mode : Mode
  asid : Nat
  root : Nat
  hart : Option HartId
  task : Option EntryId
  cid  : Option Nat
  isCc : Bool
  deriving DecidableEq, Repr

/-- A fault of an access: its cause, its address, the access, whether it is a `PROT` for a permission that the leaf lacks
(R276, R301), whether it is a `PROT` of spec/10_memory.md R216, and whether its address is an offset (R389). -/
structure Flt where
  cause  : Nat
  va     : Nat
  acc    : Acc
  perm   : Bool
  peer   : Bool
  offset : Bool := false
  deriving DecidableEq, Repr

/-- What an address names: a byte of memory by its key, or of a device view of R361 by its offset. -/
inductive Loc where
  | mem (key : Nat)
  | poisonMap (off : Nat)
  | mgmt (off : Nat)
  deriving DecidableEq, Repr

/-- A trap before it is taken (spec/17_traps.md R387, R389); `offset` says that `XVAL` is an offset and no virtual address. -/
structure Trap where
  cause  : Nat
  xval   : Word
  async  : Bool
  runrep : Bool
  access : Nat
  offset : Bool := false
  deriving DecidableEq, Repr

/-- How far an engine command has come: the state, the command, a fault it has met, a final code. -/
structure EngineRes where
  s     : State
  c     : Command
  fault : Option Flt
  code  : Option Nat
  deriving DecidableEq, Repr

/-- What stops a Thresher form (spec/09_thresher.md R201): a fault of a read, or `THDATA` with its `XVAL`. -/
inductive ThErr where
  | flt (f : Flt)
  | data (xval : Nat)
  deriving DecidableEq, Repr

/-- A step of a merge (R196): from B or not, the element, and the places in A and B after it. -/
structure MergeItem where
  fromB : Bool
  elem  : Nat
  i     : Nat
  j     : Nat
  deriving DecidableEq, Repr

/-- The sections of a posting block (R186): the whole of it as a list of bytes. -/
structure PostBlock where
  bytes : List Nat
  deriving DecidableEq, Repr

/-- Where a vector access takes its addresses (spec/10_memory.md R215, R220): base, off9, stride, space, neighbour and
context. -/
structure MemAt where
  base   : Int
  off    : Int
  stride : Int
  space  : Nat
  dir    : Nat
  ctx    : XCtx
  deriving DecidableEq, Repr

/-- One write of a vector access: its place, its bytes, and the mask and value of the bits written. -/
structure MemWr where
  loc  : Loc
  n    : Nat
  mask : Nat
  val  : Nat
  deriving DecidableEq, Repr

/-- The classes of node (spec/13_chains.md R282). -/
inductive NodeClass where
  | source | exit | inner | clear
  deriving DecidableEq, Repr

/-- A fault of a node at a strip (R301): its cause, `XVAL`, whether it stalls the strip, ACCESS of its record, and whether `XVAL` is
an offset. -/
structure RFault where
  cause  : Nat
  xval   : Word
  stall  : Bool
  acc    : Nat
  offset : Bool := false
  deriving DecidableEq, Repr

/-- What a strip does when it commits (R293): a write to memory, a scatter-reduce of a value at a place under a rounding mode
and key bits, a mask bit, an accumulator column, a tile cleared, units put on a link, and units taken from one. -/
inductive Effect where
  | mem (w : MemWr)
  | srd (op : VOp) (t : Nat) (loc : Loc) (mode bits x : Nat)
  | mask (d i : Nat) (b : Bool)
  | acc (tile row col v : Nat)
  | accz (tile : Nat)
  | send (dir width : Nat) (units : List Nat) (eos : Bool)
  | take (dir n : Nat) (eos : Bool)
  deriving DecidableEq, Repr

/-- What a node has done so far in a strip: the state it passes on, the units it emits, its flags and its effects. -/
structure UnitOut where
  st    : List Nat
  outs  : List Nat
  flags : BitVec 5
  effs  : List Effect
  deriving DecidableEq, Repr

/-- What a node does in a strip: the units it emits, whether its stream ends, its state after, its first fault, whether it has
still to wait, its flags, effects and the work units it charges. -/
structure NodeOut where
  outs   : List Nat
  ended  : Bool
  next   : NodeState
  fault  : Option RFault
  wait   : Bool
  flags  : BitVec 5
  effs   : List Effect
  charge : Nat
  deriving DecidableEq, Repr

/-- A strip under evaluation: the state at its start with the chain's hart acting, the chain, and the run. -/
structure StripEnv where
  s  : State
  h  : HartId
  ch : Chain
  r  : Run
  deriving DecidableEq, Repr

/-- How an instruction ends: complete, to the next word; complete, with a jump; with a trap at itself; or not yet, to be
executed again. -/
inductive Ans where
  | done (s : State)
  | jump (s : State) (pc : Word)
  | trap (s : State) (t : Trap)
  | wait (s : State)
  deriving DecidableEq, Repr

/-- A segmented scan under way (spec/08_permute_sparse.md R182): the running value, what the elements took, the flags. -/
structure Scan where
  run   : Option Nat
  outs  : List (Nat × Nat)
  flags : BitVec 5
  deriving DecidableEq, Repr

/-- Vector state of a task that has just started: zeros (spec/03_assembly.md R77; spec/06_vector_arith.md R125). -/
def VecState.zero : VecState where
  regs := { data := .replicate 32 0#262144, scale := .replicate 32 0#18432 }
  masks := .replicate 8 0#65536
  acc := .replicate 64 0#131072
  latch := none
  vlTy := 0#5
  vlLen := 0#17
  vstart := 0#17
  mtDir := 0#2
  mtSpace := 0#2
  srseed := 0#64
  descs := .replicate 16 none
  tickets := 0
  clTickets := 0
  chbase := none
  rRun := false
  rTemp := false
  rFail := false
  rPend := false
  rElem := 0#41
  chain := none
  run := none
  runFault := none
  exits := 0
  pv := .replicate 32 0#1024
  pm := 0#8
  pacc := .replicate 64 0#128

/-- Control-core registers at reset (spec/16_isolation.md R369). -/
def CcRegs.reset : CcRegs where
  tenmask := 0#64
  rootOn := false
  asid := 0#16
  root := 0#36
  wren := false
  kind := 0#4
  index := 0#32
  status := 0#8
  cmd := 0#8
  objd := .replicate 8 0#64
  fqueue := false

/-- An agent that nothing has touched since reset: a hart context that no task has entered, in U mode (R77) with 4 lanes
(DESIGN CHOICE, log 4), or a control core, in M mode (R380). -/
def Agent.fresh (a : AgentId) : Agent where
  id := a
  g := .replicate 32 0#64
  pg := 0#32
  pc := 0#64
  mode := match a with
    | .hart _ => .u
    | .cc _ => .m
  xpc := 0#64
  xasync := false
  xcause := 0#8
  xval := 0#64
  runrep := false
  fof := false
  pm := 0#2
  rmode := 0#3
  fflags := 0#5
  vec := VecState.zero
  lanes := 4#8
  first := 0#7
  nlanes := 4#8
  nfirst := 0#7
  ten := 0#6
  asid := 0#16
  srcq := 0#12
  seq := 0#32
  task := none
  status := .idle
  held := false
  overrun := false
  overdue := false
  stopped := false
  halted := false
  garr := false
  tarr := false
  gwait := none
  twait := none
  inRows := false
  saveRows := []
  reclaimed := false
  kept := none
  cc := CcRegs.reset

/-- A tenancy at reset: zero but WDF, which reads 4 (spec/16_isolation.md R372). -/
def Tenancy.reset : Tenancy where
  rst := false
  wdf := 4#8
  htvec := 0#64
  fqbase := 0#52
  fqirq := 0#32
  fqlog2 := 0#5
  extlim := 0#48
  fqlost := 0#32
  quiet := false
  tokens := 0
  waiting := []

/-- A queue at reset (R372), its polling interval 64 kiln cycles (spec/14_harts_kiln.md R326). -/
def Queue.reset : Queue where
  en := false
  ring := false
  uopen := false
  die := 0#3
  asid := 0#16
  rbase := 0#64
  log2 := 0#5
  nextSeq := 0
  slots := []
  widx := 0
  ridx := 0
  interval := 64
  due := 0
  pending := []
  ends := []
  dropped := 0
  doomed := 0
  stall := none

/-- A share at reset (R372). -/
def Share.reset : Share := { share := 0#40, maxCores := 0#6, maxLanes := 0#13, maxRows := 0#18 }

/-- An address space at reset (R372). -/
def ASpace.reset : ASpace := { valid := false, ten := 0#6, root := 0#36 }

/-- A port at reset (R372). -/
def Port.reset : Port where
  station := 0#48
  tagPrio := 0#3
  vlan := 0#12
  tag := false
  prio := 0#3
  rxbase := 0#64
  txbase := 0#64
  txlog2 := 0#5
  rxlog2 := 0#5
  drops := 0#32
  paused := false

/-- A group registration at reset (R372). -/
def GroupReg.reset : GroupReg := { valid := false, ten := 0#6, group := 0#32 }

/-- A migration object at reset (R372). -/
def Migration.reset : Migration where
  busy := false
  line := 0#10
  result := 0#8
  src := 0#36
  dst := 0#36
  ten := 0#6
  next := 0

/-- A hart debug object at reset (R372, R414). -/
def DebugObj.reset : DebugObj := { halt := false, space := false, reg := 0#12, image := 0#64, imgop := 0#2 }

/-- A link at reset. -/
def Link.reset : Link := { out := [], inn := [] }

/-- The package right after reset: boot phase 0x00 (R380), memory zero and unpoisoned (spec/18_ras.md R426), every object
at R372, no task, and control core 0 as the agent that acts. What the spec states no reset value for is in logs 3, 4, 6, 7,
8 and 9. -/
def State.reset : State where
  me := Agent.fresh (.cc 0)
  others := []
  mem := []
  poison := []
  istore := []
  tlb := []
  laneOwner := []
  tenancies := []
  shares := []
  aspaces := []
  queues := []
  ports := []
  groups := []
  migrations := []
  debug := []
  links := []
  entries := []
  delivered := 0
  rotation := []
  scanNext := 0
  scanAt := 0
  drain := []
  records := []
  cmds := []
  colls := []
  early := []
  groupSeq := []
  kclock := 0
  cycles := 0
  clockStep := 0
  bootstat := 0#8
  bmeas := .replicate 8 0#512
  staging := []
  stageAddr := 0#64
  mailbox := { owner := 0#2, length := 0#64, bytes := [] }
  spdm := 0
  ccLoad := 0#64
  sent := []
  coresOut := []
  fenced := []
  withheld := []
  inside := []
  heldFrames := []
  spares := []
  tick := 0
  agenda := []

end Machine
end Sys2Proof
end

