-- ==== Sys2Proof/Machine/Ops.lean ====
section
/-! DEFINITION. The named operations over memory, registers, translation, fault records and traps. -/

namespace Sys2Proof
namespace Machine

/-! ### Sparse tables -/

/-- The value at a key, or the reset value d. -/
def tget {α : Type} (d : α) (k : Nat) : List (Nat × α) → α
  | [] => d
  | (j, v) :: l => if j = k then v else tget d k l

/-- Set the value at a key, keys rising. -/
def tset {α : Type} (k : Nat) (v : α) : List (Nat × α) → List (Nat × α)
  | [] => [(k, v)]
  | (j, w) :: l => if j = k then (k, v) :: l else if k < j then (k, v) :: (j, w) :: l else (j, w) :: tset k v l

/-! ### Memory -/

/-- Memory as cells: addresses strictly rising, none zero, since an unlisted byte reads as zero (spec/18_ras.md R426). -/
abbrev Memory := List Host.Cell

/-- The canonical form, above a lower bound. -/
def Memory.wfFrom : Nat → Memory → Bool
  | _, [] => true
  | lo, (a, b) :: l => decide (lo ≤ a) && decide (b ≠ 0#8) && Memory.wfFrom (a + 1) l

/-- The canonical form. -/
def Memory.wf (m : Memory) : Bool := Memory.wfFrom 0 m

/-- One byte. -/
def Memory.read : Memory → Nat → Byte
  | [], _ => 0#8
  | (a, b) :: l, k => if a = k then b else if k < a then 0#8 else Memory.read l k

/-- Write one byte, keeping the canonical form. -/
def Memory.write : Memory → Nat → Byte → Memory
  | [], k, v => if v = 0#8 then [] else [(k, v)]
  | (a, b) :: l, k, v =>
    if a = k then (if v = 0#8 then l else (k, v) :: l)
    else if k < a then (if v = 0#8 then (a, b) :: l else (k, v) :: (a, b) :: l)
    else (a, b) :: Memory.write l k v

/-- n bytes from a key, least significant first (spec/00_scope.md R3). -/
def Memory.readLE (m : Memory) (k : Nat) : Nat → Nat
  | 0 => 0
  | n + 1 => (m.read k).toNat + 256 * Memory.readLE m (k + 1) n

/-- Write the n low bytes of a value, least significant first. -/
def Memory.writeLE (m : Memory) (k : Nat) : Nat → Nat → Memory
  | 0, _ => m
  | n + 1, v => Memory.writeLE (m.write k (BitVec.ofNat 8 v)) (k + 1) n (v / 256)

/-- Zero n bytes. -/
def Memory.zeroRange (m : Memory) (k n : Nat) : Memory := m.filter (fun c => c.1 < k || k + n ≤ c.1)

/-- The end of HBM4E (spec/10_memory.md R209, spec/16_isolation.md R361). -/
def hbmEnd : Nat := 0x7735940000
/-- Where the model keys the cores' tile memories. -/
def tileBase : Nat := 0x1000000000000000
/-- Where the model keys the cores' scalar data memories. -/
def sdmBase : Nat := 0x2000000000000000
/-- The key of byte 0 of a core's tile memory (R211). -/
def tileKey (core : Nat) : Nat := tileBase + core * 0x3000000
/-- The key of byte 0 of a core's scalar data memory (R210). -/
def sdmKey (core : Nat) : Nat := sdmBase + core * 0x80000

/-- A line is poisoned (spec/18_ras.md R418). -/
def isPoisoned (s : State) (k : Nat) : Bool := s.poison.contains (k / 64)

/-- Insert into a rising list. -/
def insertNat (k : Nat) : List Nat → List Nat
  | [] => [k]
  | j :: l => if j = k then j :: l else if k < j then k :: j :: l else j :: insertNat k l

/-- Poison a line. -/
def addPoison (s : State) (line : Nat) : State := { s with poison := insertNat line s.poison }
/-- Clear a line's poison. -/
def dropPoison (s : State) (line : Nat) : State := { s with poison := s.poison.filter (fun j => j != line) }

/-- Zero n bytes of storage on its release, poison bits included (R379, R419). -/
def releaseRange (s : State) (k n : Nat) : State :=
  { s with mem := Memory.zeroRange s.mem k n
           poison := s.poison.filter (fun j => j < k / 64 || (k + n) / 64 ≤ j) }

/-! ### Registers and agents -/

/-- Read a g register: g0 reads zero (spec/02_encoding.md R35). -/
def getG (a : Agent) (r : Reg) : Word := if r = 0 then 0#64 else a.g[r]
/-- Write a g register: a write to g0 is discarded, and a write clears the register's poison (R35; spec/18_ras.md
R419). -/
def setG (a : Agent) (r : Reg) (v : Word) : Agent :=
  if r = 0 then a
  else { a with g := a.g.set r v, pg := a.pg &&& ~~~(BitVec.twoPow 32 r.val) }

/-- The acting agent's register. -/
def rd (s : State) (r : Reg) : Word := getG s.me r
/-- Write the acting agent's register. -/
def wr (s : State) (r : Reg) (v : Word) : State := { s with me := setG s.me r v }
/-- Set the acting agent's PC. -/
def setPc (s : State) (pc : Word) : State := { s with me := { s.me with pc := pc } }
/-- Change the acting agent's vector state. -/
def setVec (s : State) (v : VecState) : State := { s with me := { s.me with vec := v } }

/-- A register number below 32 from a natural. -/
def regOf (n : Nat) : Reg := Fin.ofNat 32 n

/-- An agent by its name. -/
def agentOf (s : State) (i : AgentId) : Agent :=
  if s.me.id = i then s.me else (s.others.find? (fun a => a.id = i)).getD (Agent.fresh i)

/-- Replace, or add, an agent that does not act. -/
def putOther (a : Agent) : List Agent → List Agent
  | [] => [a]
  | b :: l => if b.id = a.id then a :: l else b :: putOther a l

/-- Put an agent back under its name. -/
def putAgent (s : State) (a : Agent) : State :=
  if s.me.id = a.id then { s with me := a } else { s with others := putOther a s.others }

/-- A hart context. -/
def hartOf (s : State) (h : HartId) : Agent := agentOf s (.hart h)
/-- Every listed agent. -/
def agents (s : State) : List Agent := s.me :: s.others
/-- The hart context of an agent, if it is one. -/
def AgentId.hart? : AgentId → Option HartId
  | .hart h => some h
  | .cc _ => none
/-- Make another agent the one that acts. -/
def switchTo (s : State) (i : AgentId) : State :=
  if s.me.id = i then s
  else { s with me := agentOf s i, others := putOther s.me (s.others.filter (fun a => a.id != i)) }
/-- Do a change as a hart context, then give the turn back. -/
def asHart (s : State) (h : HartId) (f : State → State) : State := switchTo (f (switchTo s (.hart h))) s.me.id

/-- The number of a core in the package (spec/01_machine.md R13). -/
def hartCore (h : HartId) : Nat := 40 * h.die.val + h.core.val
/-- The package row of a core (R13). -/
def coreY (g : Nat) : Nat := 5 * (g / 40 / 4) + g % 40 / 8
/-- The package column of a core (R13). -/
def coreX (g : Nat) : Nat := 8 * (g / 40 % 4) + g % 40 % 8
/-- The core at a package row and column (R13). -/
def coreAt (y x : Nat) : Nat := 40 * (4 * (y / 5) + x / 8) + (8 * (y % 5) + x % 8)
/-- The neighbouring core in a direction 0 N, 1 E, 2 S, 3 W; none at the package edge (R14). -/
def neighbour (g dir : Nat) : Option Nat :=
  match dir with
  | 0 => if coreY g = 0 then none else some (coreAt (coreY g - 1) (coreX g))
  | 1 => if coreX g = 31 then none else some (coreAt (coreY g) (coreX g + 1))
  | 2 => if coreY g = 9 then none else some (coreAt (coreY g + 1) (coreX g))
  | _ => if coreX g = 0 then none else some (coreAt (coreY g) (coreX g - 1))

/-! ### Objects -/

/-- A tenancy. -/
def tenOf (s : State) (t : Nat) : Tenancy := tget Tenancy.reset t s.tenancies
/-- Put a tenancy back. -/
def putTen (s : State) (t : Nat) (v : Tenancy) : State := { s with tenancies := tset t v s.tenancies }
/-- An address space. -/
def aspOf (s : State) (a : Nat) : ASpace := tget ASpace.reset a s.aspaces
/-- A queue. -/
def queueOf (s : State) (q : Nat) : Queue := tget Queue.reset q s.queues
/-- Put a queue back. -/
def putQueue (s : State) (q : Nat) (v : Queue) : State := { s with queues := tset q v s.queues }
/-- The tenancy of a queue is its address space's (spec/16_isolation.md R371). -/
def queueTen (s : State) (q : Nat) : BitVec 6 := (aspOf s (queueOf s q).asid.toNat).ten
/-- A delivered entry that is not final. -/
def entryOf (s : State) (e : EntryId) : Option Entry := s.entries.find? (fun x => x.id = e && !x.state.final)
/-- Put an entry back. -/
def putEntry (s : State) (e : Entry) : State :=
  { s with entries := s.entries.map (fun x => if x.id = e.id then e else x) }
/-- The gang of a task on a core of its die. -/
def gangOf (e : Entry) (core : Nat) : Option Gang := e.gangs.find? (fun g => g.core.val = core)
/-- The gang of a hart. -/
def hartGang (s : State) (t : Option EntryId) (core : Nat) : Option Gang :=
  match t with
  | none => none
  | some e => (entryOf s e).bind (fun x => gangOf x core)

/-! ### Trap causes (spec/17_traps.md R387) -/

def cIllegal : Nat := 1
def cFeature : Nat := 2
def cAlign : Nat := 3
def cPfault : Nat := 4
def cProt : Nat := 5
def cPoison : Nat := 6
def cCidmis : Nat := 7
def cStride : Nat := 8
def cChfetch : Nat := 9
def cChlen : Nat := 10
def cThdata : Nat := 11
def cQerr : Nat := 13
def cBarrier : Nat := 14
def cOverrun : Nat := 15
def cEcall : Nat := 16
def cEbreak : Nat := 17
def cFqueue : Nat := 64

/-- A synchronous trap. -/
def Trap.sync (cause : Nat) (xval : Word) : Trap :=
  { cause := cause, xval := xval, async := false, runrep := false, access := 0 }

/-- A plain fault of an access. -/
def Flt.mk' (cause va : Nat) (acc : Acc) : Flt := { cause := cause, va := va, acc := acc, perm := false, peer := false }
/-- The trap of a fault, `XVAL` the faulting address (R389). -/
def Flt.trap (f : Flt) : Trap :=
  { cause := f.cause, xval := BitVec.ofNat 64 f.va, async := false, runrep := false, access := f.acc.code, offset := f.offset }

/-! ### Translation (spec/16_isolation.md R357-R365) -/

/-- The first address of the local window (spec/10_memory.md R207). -/
def winBase : Nat := 0x7FFF0000000000
/-- The SDM window. -/
def winSdm : Nat := 0x7FFF0010000000
/-- The PEERTILE windows. -/
def winPeer : Nat := 0x7FFF0020000000
/-- Bytes of a core's tile memory. -/
def tileBytes : Nat := 0x3000000
/-- The first address of the poison map view (R361). -/
def poisonView : Nat := 0x10000000000
/-- The end of the poison map view (R361). -/
def poisonViewEnd : Nat := 0x1003B9ACA00
/-- The management window (R361). -/
def mgmtView : Nat := 0x20000000000

/-- Bits hi..lo of an entry. -/
def fld (e : Word) (hi lo : Nat) : Nat := e.toNat / 2 ^ lo % 2 ^ (hi - lo + 1)
/-- Bit n of an entry. -/
def bit (e : Word) (n : Nat) : Bool := e.getLsbD n

/-- log2 of the bytes that a leaf maps at a level 1, 2 or 3 (R357). -/
def pageLog (level : Nat) : Nat := 55 - 13 * level

/-- A page of HBM4E, or of the poison map view for a control core in S mode, lies whole in what R361 opens. -/
def pageOpen (c : XCtx) (pa size : Nat) : Bool :=
  decide (pa + size ≤ hbmEnd) ||
  (c.isCc && c.mode != .u && decide (poisonView ≤ pa) && decide (pa + size ≤ poisonViewEnd))

/-- A table entry keeps R358's zero bits, and its table lies in HBM4E (R359, R361). -/
def tableOk (e : Word) : Bool :=
  fld e 63 52 == 0 && fld e 15 2 == 0 && decide (fld e 51 16 * 65536 + 65536 ≤ hbmEnd)

/-- A leaf found at a level is valid (R359): zero bits, W without R, FRAME alignment, the TILE window only at level 3, the
page inside what is open, and the skew rules of R212. `base` is the first virtual address it maps. -/
def leafOk (c : XCtx) (level base : Nat) (e : Word) : Bool :=
  let size := 2 ^ pageLog level
  let tile := !c.isCc && decide (base < winBase + tileBytes) && decide (winBase < base + size)
  fld e 15 6 == 0 && !(bit e 3 && !bit e 2) && fld e 53 52 != 3 &&
  (fld e 53 52 != 2 || Config.hasFeature 96) &&
  (if tile then level == 3 && fld e 51 29 == 0
   else fld e 53 52 == 0 && (fld e 51 16 * 65536) % size == 0 && pageOpen c (fld e 51 16 * 65536) size)

/-- The entry that a walk uses at a level: the one its unit's cache holds for the path, else memory's (R357, R362). -/
def entryFor (s : State) (c : XCtx) (level path table : Nat) : Word :=
  match s.tlb.find? (fun t => t.unit = c.unit && t.asid == c.asid && t.level == level && t.path == path) with
  | some t => t.entry
  | none => BitVec.ofNat 64 (Memory.readLE s.mem (table + 8 * (path % 8192)) 8)

/-- A cached entry stands for the path. -/
def cached (s : State) (c : XCtx) (level path : Nat) : Bool :=
  s.tlb.any (fun t => t.unit = c.unit && t.asid == c.asid && t.level == level && t.path == path)

/-- The walk of R357 with the checks of R359: the leaf and log2 of its page. A poisoned table line is poisoned data that
the walk reads (spec/18_ras.md R419). `left` counts the levels left. -/
def walk (s : State) (c : XCtx) (acc : Acc) (va : Nat) : Nat → Nat → Except Flt (Word × Nat)
  | 0, _ => .error (Flt.mk' cPfault va acc)
  | left + 1, table =>
    let level := 3 - left
    let path := va / 2 ^ pageLog level
    let at_ := table + 8 * (path % 8192)
    if hbmEnd < table + 65536 then .error (Flt.mk' cPfault va acc)
    else if !cached s c level path && isPoisoned s at_ then .error (Flt.mk' cPoison va acc)
    else
      let e := entryFor s c level path table
      if !bit e 0 then .error (Flt.mk' cPfault va acc)
      else if bit e 1 then
        if leafOk c level (path * 2 ^ pageLog level) e then .ok (e, pageLog level) else .error (Flt.mk' cPfault va acc)
      else if tableOk e then walk s c acc va left (fld e 51 16 * 65536)
      else .error (Flt.mk' cPfault va acc)

/-- An access reads data (R360): PZ and poison bear on it. -/
def Acc.reads : Acc → Bool
  | .write => false
  | _ => true
/-- An access writes (R360). -/
def Acc.writes : Acc → Bool
  | .write | .both => true
  | _ => false

/-- The leaf grants the permissions of the access in the mode (R360, first three rows). -/
def permOk (c : XCtx) (acc : Acc) (e : Word) : Bool :=
  (match acc with
   | .read => bit e 2
   | .write => bit e 3
   | .both => bit e 2 && bit e 3
   | .fetch => bit e 4) &&
  !(c.mode == .u && !bit e 5) && !(c.mode == .s && acc == .fetch && bit e 5)

/-- The leaf's configuration identity admits the access (R365). -/
def cidOk (c : XCtx) (e : Word) : Bool :=
  match c.cid with
  | none => true
  | some n => !Config.hasFeature 100 || fld e 61 54 == 0 || fld e 61 54 == n

/-- R360 in its order, with the grant row of spec/10_memory.md R211 after the leaf's own `PROT` and `CIDMIS` checks, as
R218 puts every `PROT` before `PFAULT` (DEDUCED, log 13). -/
def checkLeaf (c : XCtx) (acc : Acc) (va : Nat) (e : Word) (rowOk : Bool) (peer : Bool) : Except Flt Unit :=
  if !permOk c acc e then .error { cause := cProt, va := va, acc := acc, perm := true, peer := false }
  else if !cidOk c e then .error (Flt.mk' cCidmis va acc)
  else if !rowOk then .error { cause := cProt, va := va, acc := acc, perm := false, peer := peer }
  else if bit e 62 && acc.writes then .error (Flt.mk' cPfault va acc)
  else if bit e 63 && acc.reads then .error (Flt.mk' cPoison va acc)
  else .ok ()

/-- Bank and row within the page of line l of a tile page, by skew code (R211). -/
def skewLine (code l : Nat) : Nat × Nat :=
  match code with
  | 0 => (l % 128, l / 128)
  | 1 => (Nat.xor (l % 128) (l / 128 % 8), l / 128)
  | _ => (l % 127, l / 127)

/-- The first row that the reserves of a core's chains take from a gang's grant, or its end: reserves take its highest
rows (spec/13_chains.md R288). A row in any reserve is outside the window. -/
def rowReserved (s : State) (t : Option EntryId) (core die row : Nat) : Bool :=
  (agents s).any (fun a => match a.id with
    | .hart h => h.core.val == core && h.die.val == die && a.task == t &&
        (match a.vec.chain with
         | some ch => ch.rowLo ≤ row && row < ch.rowLo + ch.rows
         | none => false)
    | .cc _ => false)

/-- The tile byte of a page offset: its physical row if the row is inside the grant of the task's gang on the core and in
no reserve (R211, R288), and its key. -/
def tileByte (s : State) (t : Option EntryId) (die core : Nat) (e : Word) (off : Nat) : Bool × Nat :=
  match hartGang s t core with
  | none => (false, 0)
  | some g =>
    let (bank, r) := skewLine (fld e 53 52) (off / 64)
    let row := fld e 28 16 + r
    (decide (row < g.rows) && !rowReserved s t core die (g.row + row),
     tileKey (40 * die + core) + (g.row + row) * 8192 + bank * 64 + off % 64)

/-- The SDM slot belongs to a hart of the acting hart's gang (R210). -/
def slotOk (s : State) (h : HartId) (t : Option EntryId) (slot : Nat) : Bool :=
  slot == h.ctx.val ||
  (t.isSome && (agents s).any (fun a => match a.id with
    | .hart k => k.ctx.val == slot && k.core == h.core && k.die == h.die && a.task == t
    | .cc _ => false))

/-- A tile access through a leaf of the TILE window. -/
def resolveTile (s : State) (c : XCtx) (acc : Acc) (va tva die core : Nat) (peer : Bool) : Except Flt Loc :=
  match walk s c acc tva 3 (c.root * 65536) with
  | .error f => .error { f with va := va }
  | .ok (e, _) =>
    let (ok, key) := tileByte s c.task die core e (tva % 65536)
    match checkLeaf c acc va e ok peer with
    | .error f => .error f
    | .ok () => if acc.reads && isPoisoned s key then .error (Flt.mk' cPoison va acc) else .ok (.mem key)

/-- A `PROT` under R216. -/
def peerProt (va : Nat) (acc : Acc) : Flt := { cause := cProt, va := va, acc := acc, perm := false, peer := true }

/-- The window's spaces (R207, R210, R211, R216). -/
def resolveWindow (s : State) (c : XCtx) (acc : Acc) (va : Nat) : Except Flt Loc :=
  match c.hart with
  | none => .error (Flt.mk' cProt va acc)
  | some h =>
    if acc = .fetch then .error (Flt.mk' cProt va acc)
    else if va < winBase + tileBytes then resolveTile s c acc va va h.die.val h.core.val false
    else if winSdm ≤ va && va < winSdm + 0x80000 then
      if c.cid.isSome || !slotOk s h c.task ((va - winSdm) / 0x4000) then .error (Flt.mk' cProt va acc)
      else
        let key := sdmKey (hartCore h) + (va - winSdm)
        if acc.reads && isPoisoned s key then .error (Flt.mk' cPoison va acc) else .ok (.mem key)
    else if winPeer ≤ va && va < winPeer + 4 * 0x4000000 && (va - winPeer) % 0x4000000 < tileBytes then
      let dir := (va - winPeer) / 0x4000000
      if acc.writes then .error (peerProt va acc)
      else match neighbour (hartCore h) dir with
        | none => .error (peerProt va acc)
        | some n =>
          if n / 40 = h.die.val && (hartGang s c.task (n % 40)).isSome then
            resolveTile s c acc va (winBase + (va - winPeer) % 0x4000000) (n / 40) (n % 40) true
          else .error (peerProt va acc)
    else .error (Flt.mk' cProt va acc)

/-- A physical address as R361 opens it to a control core's mode. -/
def resolvePhys (s : State) (md : Mode) (acc : Acc) (pa : Nat) : Except Flt Loc :=
  if pa < hbmEnd then
    if acc.reads && isPoisoned s pa then .error (Flt.mk' cPoison pa acc) else .ok (.mem pa)
  else if poisonView ≤ pa && pa < poisonViewEnd && md != .u then .ok (.poisonMap (pa - poisonView))
  else if mgmtView ≤ pa && pa < mgmtView + 4096 && md == .m then .ok (.mgmt (pa - mgmtView))
  else .error (Flt.mk' cProt pa acc)

/-- A virtual address in the context of an agent (R207, R357-R361). -/
def resolve (s : State) (c : XCtx) (acc : Acc) (va : Nat) : Except Flt Loc :=
  if 2 ^ 55 ≤ va then .error (Flt.mk' cProt va acc)
  else if winBase ≤ va then resolveWindow s c acc va
  else match walk s c acc va 3 (c.root * 65536) with
    | .error f => .error f
    | .ok (e, lg) =>
      match checkLeaf c acc va e true false with
      | .error f => .error f
      | .ok () =>
        let pa := fld e 51 16 * 65536 + va % 2 ^ lg
        if pa < hbmEnd then
          if acc.reads && isPoisoned s pa then .error (Flt.mk' cPoison va acc) else .ok (.mem pa)
        else .ok (.poisonMap (pa - poisonView))

/-- The context of a hart's accesses by a unit, in a mode, for a chain identity. -/
def hartCtx (s : State) (a : Agent) (h : HartId) (u : XUnit) (md : Mode) (cid : Option Nat) : XCtx where
  unit := u
  mode := md
  asid := a.asid.toNat
  root := (aspOf s a.asid.toNat).root.toNat
  hart := some h
  task := a.task
  cid := cid
  isCc := false

/-- The context of a control core's translated accesses (R369). -/
def ccCtx (a : Agent) (n : Fin 32) : XCtx where
  unit := .scalar (.cc n)
  mode := a.mode
  asid := a.cc.asid.toNat
  root := a.cc.root.toNat
  hart := none
  task := none
  cid := none
  isCc := true

/-- The context of Kiln's accesses through a queue's address space (R323, R326, R332), in a mode (log 14). -/
def kilnCtx (s : State) (die : Fin 8) (asid : Nat) (md : Mode) : XCtx where
  unit := .kiln die
  mode := md
  asid := asid
  root := (aspOf s asid).root.toNat
  hart := none
  task := none
  cid := none
  isCc := false

/-- Where the acting agent's scalar access or fetch lands (R208, R369). -/
def resolveScalar (s : State) (acc : Acc) (va : Nat) : Except Flt Loc :=
  match s.me.id with
  | .hart h => resolve s (hartCtx s s.me h (.scalar s.me.id) s.me.mode none) acc va
  | .cc n =>
    if s.me.mode = .m ∨ s.me.cc.rootOn = false then resolvePhys s s.me.mode acc va
    else resolve s (ccCtx s.me n) acc va

/-- The context of the acting hart's vector accesses (R215): a control core has none, and its word never comes here. -/
def vectorCtx (s : State) : XCtx :=
  match s.me.id with
  | .hart h => hartCtx s s.me h (.vector h) s.me.mode none
  | .cc n => ccCtx s.me n

/-! ### Device views (R361, R386) -/

/-- Bytes of the staging area (R386). -/
def stagingBytes : Nat := 0x4000000

/-- A doubleword of the management window; none where R386 gives RANGE. A write-only register reads zero (log 15). -/
def mgmtRead (s : State) (off : Nat) : Option Word :=
  if off = 0x000 then some (s.bootstat.setWidth 64)
  else if off = 0x008 then some Config.serial
  else if off = 0x010 then some Config.fver
  else if 0x040 ≤ off ∧ off < 0x240 then
    some (BitVec.ofNat 64 ((s.bmeas[(off - 0x040) / 64 % 8]'(Nat.mod_lt _ (by decide))).toNat / 2 ^ (8 * ((off - 0x040) % 64))))
  else if off = 0x300 then some 0#64
  else if off = 0x308 then some s.stageAddr
  else if off = 0x400 then some (s.mailbox.owner.setWidth 64)
  else if off = 0x408 then some s.mailbox.length
  else if 0x410 ≤ off ∧ off < 0x800 then some (BitVec.ofNat 64 (Memory.readLE s.mailbox.bytes (off - 0x410) 8))
  else if 0x800 ≤ off ∧ off < 0x1000 then
    if s.stageAddr.toNat + (off - 0x800) + 8 ≤ stagingBytes then
      some (BitVec.ofNat 64 (Memory.readLE s.staging (s.stageAddr.toNat + (off - 0x800)) 8))
    else none
  else none

/-- Write a doubleword of the management window; none where R386 gives RANGE. A write to a read-only register is ignored
(spec/00_scope.md R7). OWNER keeps the low two bits of what is written: the spec gives its three values and no width (DESIGN
CHOICE, log 15). -/
def mgmtWrite (s : State) (off : Nat) (v : Word) : Option State :=
  if off = 0x000 ∨ off = 0x008 ∨ off = 0x010 ∨ (0x040 ≤ off ∧ off < 0x240) then some s
  else if off = 0x300 then
    some (if v = 1#64 ∧ s.bootstat = 1#8 then { s with bootstat := 2#8 } else s)
  else if off = 0x308 then some { s with stageAddr := v }
  else if off = 0x400 then some { s with mailbox := { s.mailbox with owner := v.setWidth 2 } }
  else if off = 0x408 then some { s with mailbox := { s.mailbox with length := v } }
  else if 0x410 ≤ off ∧ off < 0x800 then
    some { s with mailbox := { s.mailbox with bytes := Memory.writeLE s.mailbox.bytes (off - 0x410) 8 v.toNat } }
  else if 0x800 ≤ off ∧ off < 0x1000 then
    if s.stageAddr.toNat + (off - 0x800) + 8 ≤ stagingBytes then
      some { s with staging := Memory.writeLE s.staging (s.stageAddr.toNat + (off - 0x800)) 8 v.toNat }
    else none
  else none

/-- A byte of the poison map view: eight lines (spec/18_ras.md R418, R422). -/
def poisonByte (s : State) (off : Nat) : Byte :=
  (List.range 8).foldl (fun b j => if s.poison.contains (8 * off + j) then b ||| BitVec.twoPow 8 j else b) 0#8

/-- Write a byte of the poison map view. -/
def setPoisonByte (s : State) (off : Nat) (b : Byte) : State :=
  (List.range 8).foldl (fun s j => if b.getLsbD j then addPoison s (8 * off + j) else dropPoison s (8 * off + j)) s

/-- n bytes of the poison map view. -/
def poisonLE (s : State) (off : Nat) : Nat → Nat
  | 0 => 0
  | n + 1 => (poisonByte s off).toNat + 256 * poisonLE s (off + 1) n

/-- Write n bytes of the poison map view. -/
def setPoisonLE (s : State) (off : Nat) : Nat → Nat → State
  | 0, _ => s
  | n + 1, v => setPoisonLE (setPoisonByte s off (BitVec.ofNat 8 v)) (off + 1) n (v / 256)

/-- Read the n ≤ 8 aligned bytes at a place. A reserved offset of the management window reads zero (log 15). -/
def readLoc (s : State) (l : Loc) (n : Nat) : Nat :=
  match l with
  | .mem k => Memory.readLE s.mem k n
  | .poisonMap o => poisonLE s o n
  | .mgmt o => ((mgmtRead s (o / 8 * 8)).getD 0#64).toNat / 2 ^ (8 * (o % 8)) % 2 ^ (8 * n)

/-- Write the n ≤ 8 aligned bytes at a place. A write of part of a doubleword of the management window keeps its other
bytes, and a write to a reserved offset is ignored (log 15). -/
def writeLoc (s : State) (l : Loc) (n v : Nat) : State :=
  match l with
  | .mem k => { s with mem := Memory.writeLE s.mem k n v }
  | .poisonMap o => setPoisonLE s o n v
  | .mgmt o =>
    let old := ((mgmtRead s (o / 8 * 8)).getD 0#64).toNat
    let sh := 2 ^ (8 * (o % 8))
    let new := old - old / sh % 2 ^ (8 * n) * sh + v % 2 ^ (8 * n) * sh
    (mgmtWrite s (o / 8 * 8) (BitVec.ofNat 64 new)).getD s

/-- Read n aligned bytes in a context. -/
def readIn (s : State) (c : XCtx) (va n : Nat) : Except Flt Nat :=
  match resolve s c .read va with
  | .error f => .error f
  | .ok l => .ok (readLoc s l n)

/-- Write n aligned bytes in a context. -/
def writeIn (s : State) (c : XCtx) (va n v : Nat) : Except Flt State :=
  match resolve s c .write va with
  | .error f => .error f
  | .ok l => .ok (writeLoc s l n v)

/-- Read `count` doublewords from an address, ascending. -/
def readDwords (s : State) (c : XCtx) (va : Nat) : Nat → Except Flt (List Word)
  | 0 => .ok []
  | n + 1 =>
    match readIn s c va 8 with
    | .error f => .error f
    | .ok v =>
      match readDwords s c (va + 8) n with
      | .error f => .error f
      | .ok l => .ok (BitVec.ofNat 64 v :: l)

/-- Eight words of a list, zeros where it is short. -/
def vec8 (l : List Word) : Vector Word 8 := Vector.ofFn (fun i => l.getD i.val 0#64)

/-! ### Fault records (R375, R376) -/

/-- Word 2 of a record: the agent of a hart and where it stands. -/
def recordWho (h : HartId) (agent asid : Nat) : Word :=
  BitVec.ofNat 64 (h.ctx.val * 2 ^ 32 + h.core.val * 2 ^ 24 + h.die.val * 2 ^ 20 + agent * 2 ^ 16 + asid)

/-- Word 2 of a record of a die's Kiln. -/
def recordKiln (die asid : Nat) : Word := BitVec.ofNat 64 (die * 2 ^ 20 + 6 * 2 ^ 16 + asid)

/-- Word 2 of a record about a core by its package number, but no hart. -/
def recordPlace (core agent : Nat) : Word := BitVec.ofNat 64 (core % 40 * 2 ^ 24 + core / 40 * 2 ^ 20 + agent * 2 ^ 16)

/-- Word 3 of a record: the entry concerned. -/
def recordEntry : Option EntryId → Word
  | some e => BitVec.ofNat 64 (e.seq % 2 ^ 32 * 2 ^ 32 + e.queue.val)
  | none => 0#64

/-- Write to physical HBM4E; nothing outside it. -/
def writePhys (s : State) (pa n v : Nat) : State :=
  if pa + n ≤ hbmEnd then { s with mem := Memory.writeLE s.mem pa n v } else s

/-- Write eight words from an address. -/
def writeWords (s : State) (pa : Nat) (w : Vector Word 8) : State :=
  (List.range 8).foldl (fun s i => writePhys s (pa + 8 * i) 8 (w.toList.getD i 0#64).toNat) s

/-- The fault queue is configured and has room. -/
def ringRoom (s : State) (t : Tenancy) : Bool :=
  let b := t.fqbase.toNat
  t.fqlog2 != 0#5 &&
  decide ((Memory.readLE s.mem b 8 + 2 ^ 64 - Memory.readLE s.mem (b + 8) 8) % 2 ^ 64 < 2 ^ t.fqlog2.toNat)

/-- Interrupt a control core (spec/17_traps.md R392). -/
def interruptCc (s : State) (n : Nat) : State :=
  let a := agentOf s (.cc (Fin.ofNat 32 n))
  putAgent s { a with cc := { a.cc with fqueue := true } }

/-- Write a record, then WIDX, then interrupt the control cores of FQIRQ (R375). -/
def writeRecord (s : State) (t : Tenancy) (w : Vector Word 8) : State :=
  let b := t.fqbase.toNat
  let widx := Memory.readLE s.mem b 8
  let s := writeWords s (b + 64 + 64 * (widx % 2 ^ t.fqlog2.toNat)) w
  let s := writePhys s b 8 (widx + 1)
  ((List.range 32).filter (fun n => t.fqirq.getLsbD n)).foldl interruptCc s

/-- Write the records that wait in Kiln, as far as the ring has room (R376). `fuel` bounds them. -/
def flushRecords (ten : Nat) : Nat → State → State
  | 0, s => s
  | fuel + 1, s =>
    let t := tenOf s ten
    match t.waiting with
    | [] => s
    | w :: rest =>
      if ringRoom s t then flushRecords ten fuel (putTen (writeRecord s t w) ten { t with waiting := rest }) else s

/-- The token at a count of a tenancy's records: 64 times the count plus the tenancy, modulo 2^32 (DESIGN CHOICE, log 16). -/
def tokenAt (ten count : Nat) : Nat := (count * 64 + ten) % 2 ^ 32

/-- The first count, from one on, whose token no unanswered record of the tenancy holds (R375). `fuel` bounds the records. -/
def freeCount (s : State) (ten : Nat) : Nat → Nat → Nat
  | 0, k => k
  | fuel + 1, k =>
    if s.records.any (fun r => r.ten.toNat == ten && r.token == tokenAt ten k) then freeCount s ten fuel (k + 1) else k

/-- Post a record (R375, R376): kind, cause, STRUCT, address, words 2 to 4, and what it stands for if it needs an answer. -/
def postRecord (s : State) (ten : BitVec 6) (kind cause struct_ : Nat) (va who entry access : Word)
    (subject : Option Subject) : State × Nat :=
  let tn := ten.toNat
  let s := flushRecords tn (tenOf s tn).waiting.length s
  let t := tenOf s tn
  let count := freeCount s tn s.records.length t.tokens
  let token := tokenAt tn count
  let w : Vector Word 8 := vec8
    [BitVec.ofNat 64 (token * 2 ^ 32 + struct_ % 256 * 2 ^ 24 + cause % 256 * 2 ^ 16 + kind % 65536), va, who, entry, access]
  let t := { t with tokens := count + 1 }
  let s := putTen s tn t
  match subject with
  | some sub =>
    let s := { s with records := s.records ++ [{ ten := ten, token := token, words := w, subject := sub, answered := none }] }
    if t.waiting.isEmpty && ringRoom s t then (writeRecord s t w, token)
    else (putTen s tn { t with waiting := t.waiting ++ [w] }, token)
  | none =>
    if t.waiting.isEmpty && ringRoom s t then (writeRecord s t w, token)
    else (putTen s tn { t with fqlost := t.fqlost + 1#32 }, token)

/-- Post a record that needs no answer; `acc` is the access that faulted, if one did. -/
def postNote (s : State) (ten : BitVec 6) (kind cause struct_ : Nat) (va who entry : Word) (acc : Option Acc) : State :=
  (postRecord s ten kind cause struct_ va who entry (match acc with
    | some a => BitVec.ofNat 64 a.code
    | none => 0#64) none).1

/-- Drop an unanswered record, in the table and in Kiln. -/
def dropRecord (s : State) (ten : BitVec 6) (token : Nat) : State :=
  let t := tenOf s ten.toNat
  putTen { s with records := s.records.filter (fun r => !(r.ten == ten && r.token == token)) } ten.toNat
    { t with waiting := t.waiting.filter (fun w => w[0].toNat / 2 ^ 32 != token) }

/-! ### Taking a trap, and returning (spec/17_traps.md R391, R392, R408; spec/16_isolation.md R367) -/

/-- The trap updates of R391, to a mode and handler address. -/
def enter (a : Agent) (t : Trap) (md : Mode) (pc : Word) : Agent :=
  { a with
    xpc := a.pc &&& ~~~3#64
    xasync := t.async
    xcause := BitVec.ofNat 8 t.cause
    xval := t.xval
    runrep := t.runrep
    pm := BitVec.ofNat 2 a.mode.code
    mode := md
    pc := pc }

/-- The address a record names (R375): the `XVAL` of `ALIGN` and of the address causes (spec/17_traps.md R389), else 0; an offset is
no virtual address, and the poison of a register concerns none (spec/18_ras.md R419; DEDUCED, log 16). -/
def recordVa (t : Trap) : Word :=
  if t.offset then 0#64
  else if t.cause = cAlign ∨ (4 ≤ t.cause ∧ t.cause ≤ 7 ∧ ¬(t.cause = cPoison ∧ t.xval.getLsbD 63)) then t.xval else 0#64

/-- Park the acting hart on a new record: none of the trap registers changes, and the PC stays (R367, R391). -/
def park (s : State) (h : HartId) (t : Trap) (page : Bool) : State :=
  let a := s.me
  let (s', token) := postRecord s a.ten (if page then 1 else 2) t.cause 0 (recordVa t)
    (recordWho h 0 a.asid.toNat) (recordEntry a.task) (BitVec.ofNat 64 t.access)
    (some (if page then .hartPage h else .hartFault h))
  { s' with me := { s'.me with status := .parked token page } }

/-- Taking a trap at the acting agent's PC. On a control core, M mode at LOAD + 0x100. On a hart: `PFAULT`, but for a run
report, parks with a PAGE record; another cause in U mode enters the tenancy's handler; in S mode it parks with an HFAULT
record. So a fetch of the handler at HTVEC = 0 that no page maps posts a PAGE record (spec/16_isolation.md R367, first row), and an
HFAULT record only where the fetch stops by another cause (R372; DESIGN CHOICE, log 16). -/
def takeTrap (s : State) (t : Trap) : State :=
  match s.me.id with
  | .cc _ => { s with me := enter s.me t .m (s.ccLoad + 0x100#64) }
  | .hart h =>
    if t.cause = cPfault ∧ t.runrep = false then park s h t true
    else if s.me.mode = .u then { s with me := enter s.me t .s (tenOf s s.me.ten.toNat).htvec }
    else park s h t false

/-- The mode that `XSTAT.PM` names; 2 is read as 1 (R408). -/
def modeOf (pm : BitVec 2) : Mode :=
  if pm = 0#2 then .u else if pm = 3#2 then .m else .s

/-- The return of `xret`: mode, RUNREP and PC; nothing else changes (R408). An `OVERRUN` that the handler's mode has held is due
before the next instruction in U mode (R400). -/
def leave (a : Agent) : Agent := { a with mode := modeOf a.pm, runrep := false, pc := a.xpc, overdue := a.overrun }

/-- How an instruction of `len` bytes ends. -/
def finish (len : Nat) : Ans → Host.Outcome State Fault Refusal
  | .done s => .next (setPc s (s.me.pc + BitVec.ofNat 64 len))
  | .jump s pc => .next (setPc s pc)
  | .trap s t => .next (takeTrap s t)
  | .wait s => .next s

/-! ### What every instruction checks of its operands -/

/-- The kinds of register in the `XVAL` of a register's poison (spec/18_ras.md R419): 0 v, 1 m, 2 acc, 3 g. -/
def poisonTrap (kind number : Nat) : Trap :=
  Trap.sync cPoison (BitVec.ofNat 64 (0x8000000000000000 + kind * 256 + number))

/-- The first poisoned g register among those an instruction reads. -/
def poisonedG (a : Agent) (rs : List Reg) : Option Trap :=
  (rs.find? (fun r => r != 0 && a.pg.getLsbD r.val)).map (fun r => poisonTrap 3 r.val)

/-- An instruction that reads these registers: `POISON` for a poisoned one (R419), else its own effect. -/
def withG (s : State) (rs : List Reg) (k : Ans) : Ans :=
  match poisonedG s.me rs with
  | some t => .trap s t
  | none => k

/-- A 32-bit instruction that reads these registers. -/
def scalar (s : State) (rs : List Reg) (k : Ans) : Host.Outcome State Fault Refusal := finish 4 (withG s rs k)

/-- An `ILLEGAL` trap for a word. -/
def illegal (s : State) (w : Nat) : Ans := .trap s (Trap.sync cIllegal (BitVec.ofNat 64 w))

/-- A word that only a hart executes (spec/17_traps.md R406): `ILLEGAL` on a control core. -/
def hartOnly (s : State) (w : Nat) (k : Ans) : Ans :=
  match s.me.id with
  | .hart _ => k
  | .cc _ => illegal s w

/-- A word that needs S mode or above: `ILLEGAL` in U mode (spec/02_encoding.md R51, test 6). -/
def needS (s : State) (w : Nat) (k : Ans) : Ans := if s.me.mode = .u then illegal s w else k

/-- A fresh tick, for a free value (log 5). -/
def nextTick (s : State) : State := { s with tick := s.tick + 1 }

end Machine
end Sys2Proof
end

