-- ==== Sys2Proof/Machine/ScalarInt.lean ====
section
/-! DEFINITION. The scalar integer instructions (spec/05_scalar_ops.md R104-R111): registers, immediates, shifts, multiply and
divide, bit manipulation. None changes `FFLAGS` and none traps for its values. -/

namespace Sys2Proof
namespace Machine

/-- sext(trunc(x, 32), 64) (R106). -/
def w32 (x : Word) : Word := (x.setWidth 32).signExtend 64
/-- The low 32 bits. -/
def lo32 (x : Word) : BitVec 32 := x.setWidth 32
/-- A 32-bit result, sign-extended. -/
def s32 (x : BitVec 32) : Word := x.signExtend 64
/-- sext(imm14, 64) (R34). -/
def imm14 (i : Fin 16384) : Word := (BitVec.ofNat 14 i.val).signExtend 64
/-- sext(imm19, 64) << 14 (R109). -/
def imm19hi (i : Fin 524288) : Word := (BitVec.ofNat 19 i.val).signExtend 64 <<< 14
/-- 1 or 0. -/
def boolW (b : Bool) : Word := if b then 1#64 else 0#64
/-- The shift count sh: b[5:0] (R106). -/
def sh6 (b : Word) : Nat := b.toNat % 64
/-- The shift count shw: b[4:0] (R106). -/
def sh5 (b : Word) : Nat := b.toNat % 32

/-- Two sources, one result. -/
def alu2 (f : Word → Word → Word) (d a b : Reg) (s : State) : Host.Outcome State Fault Refusal :=
  scalar s [a, b] (.done (wr s d (f (rd s a) (rd s b))))
/-- One source, one result. -/
def alu1 (f : Word → Word) (d a : Reg) (s : State) : Host.Outcome State Fault Refusal :=
  scalar s [a] (.done (wr s d (f (rd s a))))

/-- ADD: Writes the 64-bit wrapping sum of rs1 and rs2 to rd. (R106) -/
def execAdd (rd rs1 rs2 : Reg) (s : State) : Host.Outcome State Fault Refusal :=
  alu2 (fun a b => a + b) rd rs1 rs2 s

/-- SUB: Writes the 64-bit wrapping difference rs1 minus rs2 to rd. (R106) -/
def execSub (rd rs1 rs2 : Reg) (s : State) : Host.Outcome State Fault Refusal :=
  alu2 (fun a b => a - b) rd rs1 rs2 s

/-- AND: Writes the bitwise AND of rs1 and rs2 to rd. (R106) -/
def execAnd (rd rs1 rs2 : Reg) (s : State) : Host.Outcome State Fault Refusal :=
  alu2 (fun a b => a &&& b) rd rs1 rs2 s

/-- ANDN: Writes rs1 AND NOT rs2 to rd. (R106) -/
def execAndn (rd rs1 rs2 : Reg) (s : State) : Host.Outcome State Fault Refusal :=
  alu2 (fun a b => a &&& ~~~b) rd rs1 rs2 s

/-- OR: Writes the bitwise OR of rs1 and rs2 to rd. (R106) -/
def execOr (rd rs1 rs2 : Reg) (s : State) : Host.Outcome State Fault Refusal :=
  alu2 (fun a b => a ||| b) rd rs1 rs2 s

/-- ORN: Writes rs1 OR NOT rs2 to rd. (R106) -/
def execOrn (rd rs1 rs2 : Reg) (s : State) : Host.Outcome State Fault Refusal :=
  alu2 (fun a b => a ||| ~~~b) rd rs1 rs2 s

/-- XOR: Writes the bitwise XOR of rs1 and rs2 to rd. (R106) -/
def execXor (rd rs1 rs2 : Reg) (s : State) : Host.Outcome State Fault Refusal :=
  alu2 (fun a b => a ^^^ b) rd rs1 rs2 s

/-- XNOR: Writes the complement of rs1 XOR rs2 to rd. (R106) -/
def execXnor (rd rs1 rs2 : Reg) (s : State) : Host.Outcome State Fault Refusal :=
  alu2 (fun a b => ~~~(a ^^^ b)) rd rs1 rs2 s

/-- SLL: Shifts rs1 left by rs2[5:0] into rd. (R106) -/
def execSll (rd rs1 rs2 : Reg) (s : State) : Host.Outcome State Fault Refusal :=
  alu2 (fun a b => a <<< sh6 b) rd rs1 rs2 s

/-- SRL: Shifts rs1 right logically by rs2[5:0] into rd. (R106) -/
def execSrl (rd rs1 rs2 : Reg) (s : State) : Host.Outcome State Fault Refusal :=
  alu2 (fun a b => a >>> sh6 b) rd rs1 rs2 s

/-- SRA: Shifts rs1 right arithmetically by rs2[5:0] into rd. (R106) -/
def execSra (rd rs1 rs2 : Reg) (s : State) : Host.Outcome State Fault Refusal :=
  alu2 (fun a b => a.sshiftRight (sh6 b)) rd rs1 rs2 s

/-- ROL: Rotates rs1 left by rs2[5:0] into rd. (R106) -/
def execRol (rd rs1 rs2 : Reg) (s : State) : Host.Outcome State Fault Refusal :=
  alu2 (fun a b => a.rotateLeft (sh6 b)) rd rs1 rs2 s

/-- ROR: Rotates rs1 right by rs2[5:0] into rd. (R106) -/
def execRor (rd rs1 rs2 : Reg) (s : State) : Host.Outcome State Fault Refusal :=
  alu2 (fun a b => a.rotateRight (sh6 b)) rd rs1 rs2 s

/-- MIN: Writes the signed minimum of rs1 and rs2 to rd. (R106) -/
def execMin (rd rs1 rs2 : Reg) (s : State) : Host.Outcome State Fault Refusal :=
  alu2 (fun a b => if a.slt b then a else b) rd rs1 rs2 s

/-- MAX: Writes the signed maximum of rs1 and rs2 to rd. (R106) -/
def execMax (rd rs1 rs2 : Reg) (s : State) : Host.Outcome State Fault Refusal :=
  alu2 (fun a b => if a.slt b then b else a) rd rs1 rs2 s

/-- MINN: Writes the unsigned minimum of rs1 and rs2 to rd. (R106) -/
def execMinn (rd rs1 rs2 : Reg) (s : State) : Host.Outcome State Fault Refusal :=
  alu2 (fun a b => if a < b then a else b) rd rs1 rs2 s

/-- MAXN: Writes the unsigned maximum of rs1 and rs2 to rd. (R106) -/
def execMaxn (rd rs1 rs2 : Reg) (s : State) : Host.Outcome State Fault Refusal :=
  alu2 (fun a b => if a < b then b else a) rd rs1 rs2 s

/-- CMPLT: Writes 1 if rs1 is less than rs2 as signed, else 0. (R106) -/
def execCmplt (rd rs1 rs2 : Reg) (s : State) : Host.Outcome State Fault Refusal :=
  alu2 (fun a b => boolW (a.slt b)) rd rs1 rs2 s

/-- CMPLTN: Writes 1 if rs1 is less than rs2 as unsigned, else 0. (R106) -/
def execCmpltn (rd rs1 rs2 : Reg) (s : State) : Host.Outcome State Fault Refusal :=
  alu2 (fun a b => boolW (decide (a < b))) rd rs1 rs2 s

/-- CMPEQ: Writes 1 if rs1 equals rs2, else 0. (R106) -/
def execCmpeq (rd rs1 rs2 : Reg) (s : State) : Host.Outcome State Fault Refusal :=
  alu2 (fun a b => boolW (a == b)) rd rs1 rs2 s

/-- ADD_I32: Writes the sign-extended 32-bit sum of rs1 and rs2. (R106) -/
def execAddI32 (rd rs1 rs2 : Reg) (s : State) : Host.Outcome State Fault Refusal :=
  alu2 (fun a b => w32 (a + b)) rd rs1 rs2 s

/-- SUB_I32: Writes the sign-extended 32-bit difference of rs1 and rs2. (R106) -/
def execSubI32 (rd rs1 rs2 : Reg) (s : State) : Host.Outcome State Fault Refusal :=
  alu2 (fun a b => w32 (a - b)) rd rs1 rs2 s

/-- SLL_I32: Shifts rs1[31:0] left by rs2[4:0] and sign-extends the result. (R106) -/
def execSllI32 (rd rs1 rs2 : Reg) (s : State) : Host.Outcome State Fault Refusal :=
  alu2 (fun a b => s32 (lo32 a <<< sh5 b)) rd rs1 rs2 s

/-- SRL_I32: Shifts rs1[31:0] right logically by rs2[4:0] and sign-extends the result. (R106) -/
def execSrlI32 (rd rs1 rs2 : Reg) (s : State) : Host.Outcome State Fault Refusal :=
  alu2 (fun a b => s32 (lo32 a >>> sh5 b)) rd rs1 rs2 s

/-- SRA_I32: Shifts rs1[31:0] right arithmetically by rs2[4:0] and sign-extends the result. (R106) -/
def execSraI32 (rd rs1 rs2 : Reg) (s : State) : Host.Outcome State Fault Refusal :=
  alu2 (fun a b => s32 ((lo32 a).sshiftRight (sh5 b))) rd rs1 rs2 s

/-- ROL_I32: Rotates rs1[31:0] left within 32 bits and sign-extends the result. (R106) -/
def execRolI32 (rd rs1 rs2 : Reg) (s : State) : Host.Outcome State Fault Refusal :=
  alu2 (fun a b => s32 ((lo32 a).rotateLeft (sh5 b))) rd rs1 rs2 s

/-- ROR_I32: Rotates rs1[31:0] right within 32 bits and sign-extends the result. (R106) -/
def execRorI32 (rd rs1 rs2 : Reg) (s : State) : Host.Outcome State Fault Refusal :=
  alu2 (fun a b => s32 ((lo32 a).rotateRight (sh5 b))) rd rs1 rs2 s

/-- MUL: Writes the low 64 bits of rs1 times rs2. (R110) -/
def execMul (rd rs1 rs2 : Reg) (s : State) : Host.Outcome State Fault Refusal :=
  alu2 (fun a b => a * b) rd rs1 rs2 s

/-- MULH: Writes the high 64 bits of the signed product. (R110) -/
def execMulh (rd rs1 rs2 : Reg) (s : State) : Host.Outcome State Fault Refusal :=
  alu2 (fun a b => BitVec.ofNat 64 (mulHigh true true 64 a.toNat b.toNat)) rd rs1 rs2 s

/-- MULHU: Writes the high 64 bits of the unsigned product. (R110) -/
def execMulhu (rd rs1 rs2 : Reg) (s : State) : Host.Outcome State Fault Refusal :=
  alu2 (fun a b => BitVec.ofNat 64 (mulHigh false false 64 a.toNat b.toNat)) rd rs1 rs2 s

/-- MULHSU: Writes the high 64 bits of the signed-by-unsigned product. (R110) -/
def execMulhsu (rd rs1 rs2 : Reg) (s : State) : Host.Outcome State Fault Refusal :=
  alu2 (fun a b => BitVec.ofNat 64 (mulHigh true false 64 a.toNat b.toNat)) rd rs1 rs2 s

/-- MUL_I32: Writes the sign-extended low 32 bits of the product. (R110) -/
def execMulI32 (rd rs1 rs2 : Reg) (s : State) : Host.Outcome State Fault Refusal :=
  alu2 (fun a b => w32 (a * b)) rd rs1 rs2 s

/-- DIV: Writes the signed 64-bit quotient truncated toward zero. (R110) -/
def execDiv (rd rs1 rs2 : Reg) (s : State) : Host.Outcome State Fault Refusal :=
  alu2 (fun a b => BitVec.ofNat 64 (divI true 64 a.toNat b.toNat)) rd rs1 rs2 s

/-- DIVU: Writes the unsigned 64-bit quotient. (R110) -/
def execDivu (rd rs1 rs2 : Reg) (s : State) : Host.Outcome State Fault Refusal :=
  alu2 (fun a b => BitVec.ofNat 64 (divI false 64 a.toNat b.toNat)) rd rs1 rs2 s

/-- REM: Writes the signed 64-bit remainder. (R110) -/
def execRem (rd rs1 rs2 : Reg) (s : State) : Host.Outcome State Fault Refusal :=
  alu2 (fun a b => BitVec.ofNat 64 (remI true 64 a.toNat b.toNat)) rd rs1 rs2 s

/-- REMU: Writes the unsigned 64-bit remainder. (R110) -/
def execRemu (rd rs1 rs2 : Reg) (s : State) : Host.Outcome State Fault Refusal :=
  alu2 (fun a b => BitVec.ofNat 64 (remI false 64 a.toNat b.toNat)) rd rs1 rs2 s

/-- DIV_I32: Writes the sign-extended signed 32-bit quotient. (R110) -/
def execDivI32 (rd rs1 rs2 : Reg) (s : State) : Host.Outcome State Fault Refusal :=
  alu2 (fun a b => s32 (BitVec.ofNat 32 (divI true 32 a.toNat b.toNat))) rd rs1 rs2 s

/-- DIVU_I32: Writes the sign-extended unsigned 32-bit quotient. (R110) -/
def execDivuI32 (rd rs1 rs2 : Reg) (s : State) : Host.Outcome State Fault Refusal :=
  alu2 (fun a b => s32 (BitVec.ofNat 32 (divI false 32 a.toNat b.toNat))) rd rs1 rs2 s

/-- REM_I32: Writes the sign-extended signed 32-bit remainder. (R110) -/
def execRemI32 (rd rs1 rs2 : Reg) (s : State) : Host.Outcome State Fault Refusal :=
  alu2 (fun a b => s32 (BitVec.ofNat 32 (remI true 32 a.toNat b.toNat))) rd rs1 rs2 s

/-- REMU_I32: Writes the sign-extended unsigned 32-bit remainder. (R110) -/
def execRemuI32 (rd rs1 rs2 : Reg) (s : State) : Host.Outcome State Fault Refusal :=
  alu2 (fun a b => s32 (BitVec.ofNat 32 (remI false 32 a.toNat b.toNat))) rd rs1 rs2 s

/-- ADDI: Writes rs1 plus the sign-extended immediate to rd. (R107) -/
def execAddi (rd rs1 : Reg) (imm : Fin 16384) (s : State) : Host.Outcome State Fault Refusal :=
  alu1 (fun a => a + imm14 imm) rd rs1 s

/-- ANDI: Writes rs1 AND the sign-extended immediate to rd. (R107) -/
def execAndi (rd rs1 : Reg) (imm : Fin 16384) (s : State) : Host.Outcome State Fault Refusal :=
  alu1 (fun a => a &&& imm14 imm) rd rs1 s

/-- ORI: Writes rs1 OR the sign-extended immediate to rd. (R107) -/
def execOri (rd rs1 : Reg) (imm : Fin 16384) (s : State) : Host.Outcome State Fault Refusal :=
  alu1 (fun a => a ||| imm14 imm) rd rs1 s

/-- XORI: Writes rs1 XOR the sign-extended immediate to rd. (R107) -/
def execXori (rd rs1 : Reg) (imm : Fin 16384) (s : State) : Host.Outcome State Fault Refusal :=
  alu1 (fun a => a ^^^ imm14 imm) rd rs1 s

/-- CMPLTI: Writes 1 if rs1 is less than the immediate as signed. (R107) -/
def execCmplti (rd rs1 : Reg) (imm : Fin 16384) (s : State) : Host.Outcome State Fault Refusal :=
  alu1 (fun a => boolW (a.slt (imm14 imm))) rd rs1 s

/-- CMPLTNI: Writes 1 if rs1 is less than the immediate as unsigned. (R107) -/
def execCmpltni (rd rs1 : Reg) (imm : Fin 16384) (s : State) : Host.Outcome State Fault Refusal :=
  alu1 (fun a => boolW (decide (a < imm14 imm))) rd rs1 s

/-- ADDI_I32: Writes the sign-extended 32-bit sum of rs1 and the immediate. (R107) -/
def execAddiI32 (rd rs1 : Reg) (imm : Fin 16384) (s : State) : Host.Outcome State Fault Refusal :=
  alu1 (fun a => w32 (a + imm14 imm)) rd rs1 s

/-- SLLI: Shifts rs1 left by an immediate amount. (R108) -/
def execSlli (rd rs1 : Reg) (sh : Fin 64) (s : State) : Host.Outcome State Fault Refusal :=
  alu1 (fun a => a <<< sh.val) rd rs1 s

/-- SRLI: Shifts rs1 right logically by an immediate amount. (R108) -/
def execSrli (rd rs1 : Reg) (sh : Fin 64) (s : State) : Host.Outcome State Fault Refusal :=
  alu1 (fun a => a >>> sh.val) rd rs1 s

/-- SRAI: Shifts rs1 right arithmetically by an immediate amount. (R108) -/
def execSrai (rd rs1 : Reg) (sh : Fin 64) (s : State) : Host.Outcome State Fault Refusal :=
  alu1 (fun a => a.sshiftRight sh.val) rd rs1 s

/-- RORI: Rotates rs1 right by an immediate amount. (R108) -/
def execRori (rd rs1 : Reg) (sh : Fin 64) (s : State) : Host.Outcome State Fault Refusal :=
  alu1 (fun a => a.rotateRight sh.val) rd rs1 s

/-- SLLI_I32: Shifts rs1[31:0] left by an immediate and sign-extends. (R108) -/
def execSlliI32 (rd rs1 : Reg) (sh : Fin 32) (s : State) : Host.Outcome State Fault Refusal :=
  alu1 (fun a => s32 (lo32 a <<< sh.val)) rd rs1 s

/-- SRLI_I32: Shifts rs1[31:0] right logically by an immediate and sign-extends. (R108) -/
def execSrliI32 (rd rs1 : Reg) (sh : Fin 32) (s : State) : Host.Outcome State Fault Refusal :=
  alu1 (fun a => s32 (lo32 a >>> sh.val)) rd rs1 s

/-- SRAI_I32: Shifts rs1[31:0] right arithmetically by an immediate and sign-extends. (R108) -/
def execSraiI32 (rd rs1 : Reg) (sh : Fin 32) (s : State) : Host.Outcome State Fault Refusal :=
  alu1 (fun a => s32 ((lo32 a).sshiftRight sh.val)) rd rs1 s

/-- LUI: Writes the sign-extended imm19 shifted left by 14 to rd. (R109) -/
def execLui (rd : Reg) (imm : Fin 524288) (s : State) : Host.Outcome State Fault Refusal :=
  scalar s [] (.done (wr s rd (imm19hi imm)))

/-- LHI: Replaces rd[63:45] with imm19 and keeps the rest of rd. (R109) -/
def execLhi (rd : Reg) (imm : Fin 524288) (s : State) : Host.Outcome State Fault Refusal :=
  alu1 (fun a => (BitVec.ofNat 64 imm.val <<< 45) ||| ((a.setWidth 45).setWidth 64)) rd rd s

/-- AUIPC: Writes PC plus sext(imm19) times 2^14 to rd. (R109) -/
def execAuipc (rd : Reg) (imm : Fin 524288) (s : State) : Host.Outcome State Fault Refusal :=
  scalar s [] (.done (wr s rd (s.me.pc + imm19hi imm)))

/-- CLZ: Counts the leading zero bits of rs1. (R111) -/
def execClz (rd rs1 : Reg) (s : State) : Host.Outcome State Fault Refusal :=
  alu1 (fun a => BitVec.ofNat 64 (clzN 64 a.toNat)) rd rs1 s

/-- CTZ: Counts the trailing zero bits of rs1. (R111) -/
def execCtz (rd rs1 : Reg) (s : State) : Host.Outcome State Fault Refusal :=
  alu1 (fun a => BitVec.ofNat 64 (ctzN 64 a.toNat)) rd rs1 s

/-- POPC: Counts the one bits of rs1. (R111) -/
def execPopc (rd rs1 : Reg) (s : State) : Host.Outcome State Fault Refusal :=
  alu1 (fun a => BitVec.ofNat 64 (popN 64 a.toNat)) rd rs1 s

/-- CLZW: Counts the leading zeros of rs1[31:0]. (R111) -/
def execClzw (rd rs1 : Reg) (s : State) : Host.Outcome State Fault Refusal :=
  alu1 (fun a => BitVec.ofNat 64 (clzN 32 a.toNat)) rd rs1 s

/-- CTZW: Counts the trailing zeros of rs1[31:0]. (R111) -/
def execCtzw (rd rs1 : Reg) (s : State) : Host.Outcome State Fault Refusal :=
  alu1 (fun a => BitVec.ofNat 64 (ctzN 32 a.toNat)) rd rs1 s

/-- POPCW: Counts the one bits of rs1[31:0]. (R111) -/
def execPopcw (rd rs1 : Reg) (s : State) : Host.Outcome State Fault Refusal :=
  alu1 (fun a => BitVec.ofNat 64 (popN 32 a.toNat)) rd rs1 s

/-- REV8: Reverses the byte order of rs1. (R111) -/
def execRev8 (rd rs1 : Reg) (s : State) : Host.Outcome State Fault Refusal :=
  alu1 (fun a => BitVec.ofNat 64 (leNat (leBytes 8 a.toNat).reverse)) rd rs1 s

/-- BREV: Reverses the bit order of rs1. (R111) -/
def execBrev (rd rs1 : Reg) (s : State) : Host.Outcome State Fault Refusal :=
  alu1 (fun a => BitVec.ofNat 64 (revBits 64 a.toNat)) rd rs1 s

/-- SEXTB: Sign-extends rs1[7:0]. (R111) -/
def execSextb (rd rs1 : Reg) (s : State) : Host.Outcome State Fault Refusal :=
  alu1 (fun a => (a.setWidth 8).signExtend 64) rd rs1 s

/-- SEXTH: Sign-extends rs1[15:0]. (R111) -/
def execSexth (rd rs1 : Reg) (s : State) : Host.Outcome State Fault Refusal :=
  alu1 (fun a => (a.setWidth 16).signExtend 64) rd rs1 s

/-- SEXTW: Sign-extends rs1[31:0]. (R111) -/
def execSextw (rd rs1 : Reg) (s : State) : Host.Outcome State Fault Refusal :=
  alu1 (fun a => (a.setWidth 32).signExtend 64) rd rs1 s

/-- ZEXTB: Zero-extends rs1[7:0]. (R111) -/
def execZextb (rd rs1 : Reg) (s : State) : Host.Outcome State Fault Refusal :=
  alu1 (fun a => (a.setWidth 8).setWidth 64) rd rs1 s

/-- ZEXTH: Zero-extends rs1[15:0]. (R111) -/
def execZexth (rd rs1 : Reg) (s : State) : Host.Outcome State Fault Refusal :=
  alu1 (fun a => (a.setWidth 16).setWidth 64) rd rs1 s

/-- ZEXTW: Zero-extends rs1[31:0]. (R111) -/
def execZextw (rd rs1 : Reg) (s : State) : Host.Outcome State Fault Refusal :=
  alu1 (fun a => (a.setWidth 32).setWidth 64) rd rs1 s

end Machine
end Sys2Proof
end

