-- ==== Sys2Proof/Machine/Branch.lean ====
section
/-! DEFINITION. Branches and jumps (spec/05_scalar_ops.md R120-R123; spec/02_encoding.md R32). -/

namespace Sys2Proof
namespace Machine

/-- The target of off14: PC + sext(off14, 64) * 4 (R120). -/
def target14 (s : State) (off : Fin 16384) : Word := s.me.pc + (BitVec.ofNat 14 off.val).signExtend 64 * 4#64
/-- The target of off19 (R121). -/
def target19 (s : State) (off : Fin 524288) : Word := s.me.pc + (BitVec.ofNat 19 off.val).signExtend 64 * 4#64

/-- A jump to a target: `ALIGN` at the jump when the target's bits [1:0] are not zero, with no effect (R32, R122). -/
def jumpTo (s s' : State) (t : Word) : Ans :=
  if t &&& 3#64 = 0#64 then .jump s' t else .trap s (Trap.sync cAlign t)

/-- A conditional branch (R120). -/
def branch (c : Word → Word → Bool) (a b : Reg) (off : Fin 16384) (s : State) : Host.Outcome State Fault Refusal :=
  scalar s [a, b] (if c (rd s a) (rd s b) then jumpTo s s (target14 s off) else .done s)

/-- BEQ: Branches when rs1 equals rs2. (R120) -/
def execBeq (rs1 rs2 : Reg) (off : Fin 16384) (s : State) : Host.Outcome State Fault Refusal :=
  branch (fun a b => a == b) rs1 rs2 off s

/-- BNE: Branches when rs1 differs from rs2. (R120) -/
def execBne (rs1 rs2 : Reg) (off : Fin 16384) (s : State) : Host.Outcome State Fault Refusal :=
  branch (fun a b => a != b) rs1 rs2 off s

/-- BLT: Branches when rs1 is less than rs2 as signed. (R120) -/
def execBlt (rs1 rs2 : Reg) (off : Fin 16384) (s : State) : Host.Outcome State Fault Refusal :=
  branch (fun a b => a.slt b) rs1 rs2 off s

/-- BGE: Branches when rs1 is at least rs2 as signed. (R120) -/
def execBge (rs1 rs2 : Reg) (off : Fin 16384) (s : State) : Host.Outcome State Fault Refusal :=
  branch (fun a b => !a.slt b) rs1 rs2 off s

/-- BLTU: Branches when rs1 is less than rs2 as unsigned. (R120) -/
def execBltu (rs1 rs2 : Reg) (off : Fin 16384) (s : State) : Host.Outcome State Fault Refusal :=
  branch (fun a b => decide (a < b)) rs1 rs2 off s

/-- BGEU: Branches when rs1 is at least rs2 as unsigned. (R120) -/
def execBgeu (rs1 rs2 : Reg) (off : Fin 16384) (s : State) : Host.Outcome State Fault Refusal :=
  branch (fun a b => !decide (a < b)) rs1 rs2 off s

/-- JAL: Links PC plus 4 into rd and jumps by off19 parcels. (R121) -/
def execJal (rd : Reg) (off : Fin 524288) (s : State) : Host.Outcome State Fault Refusal :=
  scalar s [] (jumpTo s (wr s rd (s.me.pc + 4#64)) (target19 s off))

/-- JALR: Links PC plus 4 into rd and jumps to rs1 plus a byte offset. (R122) -/
def execJalr (rd rs1 : Reg) (imm : Fin 16384) (s : State) : Host.Outcome State Fault Refusal :=
  scalar s [rs1] (jumpTo s (wr s rd (s.me.pc + 4#64)) (Machine.rd s rs1 + imm14 imm))

end Machine
end Sys2Proof
end

