-- ==== Sys2Proof/Machine/Crypto.lean ====
section
/-! DEFINITION. SHA-512 and the verification of RSASSA-PSS with SHA-512, MGF1-SHA-512 and a 64-byte salt, which
spec/16_isolation.md R381 and R382 name, as FIPS 180-4 and RFC 8017 state them (PRESUMED, log 11). -/

namespace Sys2Proof
namespace Machine

/-! ### SHA-512 -/

/-- Rotate a word right. -/
def ror64 (x : Word) (n : Nat) : Word := (x >>> n) ||| (x <<< (64 - n))
/-- The round constants 0 to 39. -/
def shaK0 : List Word :=
  [0x428A2F98D728AE22#64, 0x7137449123EF65CD#64, 0xB5C0FBCFEC4D3B2F#64, 0xE9B5DBA58189DBBC#64, 0x3956C25BF348B538#64,
   0x59F111F1B605D019#64, 0x923F82A4AF194F9B#64, 0xAB1C5ED5DA6D8118#64, 0xD807AA98A3030242#64, 0x12835B0145706FBE#64,
   0x243185BE4EE4B28C#64, 0x550C7DC3D5FFB4E2#64, 0x72BE5D74F27B896F#64, 0x80DEB1FE3B1696B1#64, 0x9BDC06A725C71235#64,
   0xC19BF174CF692694#64, 0xE49B69C19EF14AD2#64, 0xEFBE4786384F25E3#64, 0x0FC19DC68B8CD5B5#64, 0x240CA1CC77AC9C65#64,
   0x2DE92C6F592B0275#64, 0x4A7484AA6EA6E483#64, 0x5CB0A9DCBD41FBD4#64, 0x76F988DA831153B5#64, 0x983E5152EE66DFAB#64,
   0xA831C66D2DB43210#64, 0xB00327C898FB213F#64, 0xBF597FC7BEEF0EE4#64, 0xC6E00BF33DA88FC2#64, 0xD5A79147930AA725#64,
   0x06CA6351E003826F#64, 0x142929670A0E6E70#64, 0x27B70A8546D22FFC#64, 0x2E1B21385C26C926#64, 0x4D2C6DFC5AC42AED#64,
   0x53380D139D95B3DF#64, 0x650A73548BAF63DE#64, 0x766A0ABB3C77B2A8#64, 0x81C2C92E47EDAEE6#64, 0x92722C851482353B#64]
/-- The round constants 40 to 79. -/
def shaK1 : List Word :=
  [0xA2BFE8A14CF10364#64, 0xA81A664BBC423001#64, 0xC24B8B70D0F89791#64, 0xC76C51A30654BE30#64, 0xD192E819D6EF5218#64,
   0xD69906245565A910#64, 0xF40E35855771202A#64, 0x106AA07032BBD1B8#64, 0x19A4C116B8D2D0C8#64, 0x1E376C085141AB53#64,
   0x2748774CDF8EEB99#64, 0x34B0BCB5E19B48A8#64, 0x391C0CB3C5C95A63#64, 0x4ED8AA4AE3418ACB#64, 0x5B9CCA4F7763E373#64,
   0x682E6FF3D6B2B8A3#64, 0x748F82EE5DEFB2FC#64, 0x78A5636F43172F60#64, 0x84C87814A1F0AB72#64, 0x8CC702081A6439EC#64,
   0x90BEFFFA23631E28#64, 0xA4506CEBDE82BDE9#64, 0xBEF9A3F7B2C67915#64, 0xC67178F2E372532B#64, 0xCA273ECEEA26619C#64,
   0xD186B8C721C0C207#64, 0xEADA7DD6CDE0EB1E#64, 0xF57D4F7FEE6ED178#64, 0x06F067AA72176FBA#64, 0x0A637DC5A2C898A6#64,
   0x113F9804BEF90DAE#64, 0x1B710B35131C471B#64, 0x28DB77F523047D84#64, 0x32CAAB7B40C72493#64, 0x3C9EBE0A15C9BEBC#64,
   0x431D67C49C100D4C#64, 0x4CC5D4BECB3E42B6#64, 0x597F299CFC657E2A#64, 0x5FCB6FAB3AD6FAEC#64, 0x6C44198C4A475817#64]
/-- The initial hash value. -/
def shaH : List Word :=
  [0x6A09E667F3BCC908#64, 0xBB67AE8584CAA73B#64, 0x3C6EF372FE94F82B#64, 0xA54FF53A5F1D36F1#64, 0x510E527FADE682D1#64,
   0x9B05688C2B3E6C1F#64, 0x1F83D9ABFB41BD6B#64, 0x5BE0CD19137E2179#64]

/-- The words of the message schedule after the sixteen of a block, newest first: n more. -/
def shaSchedule : Nat → List Word → List Word
  | 0, w => w
  | n + 1, w =>
    let x := w.getD 1 0#64
    let y := w.getD 14 0#64
    let a := ror64 x 19 ^^^ ror64 x 61 ^^^ (x >>> 6)
    let b := ror64 y 1 ^^^ ror64 y 8 ^^^ (y >>> 7)
    shaSchedule n ((a + w.getD 6 0#64 + b + w.getD 15 0#64) :: w)

/-- One round on the eight working variables, with the sum of its constant and schedule word. -/
def shaRound (v : List Word) (kw : Word) : List Word :=
  match v with
  | [a, b, c, d, e, f, g, h] =>
    let t1 := h + (ror64 e 14 ^^^ ror64 e 18 ^^^ ror64 e 41) + ((e &&& f) ^^^ (~~~e &&& g)) + kw
    let t2 := (ror64 a 28 ^^^ ror64 a 34 ^^^ ror64 a 39) + ((a &&& b) ^^^ (a &&& c) ^^^ (b &&& c))
    [t1 + t2, a, b, c, d + t1, e, f, g]
  | _ => v

/-- A number of bytes, most significant first. -/
def beNat (b : List Byte) : Nat := leNat b.reverse

/-- The hash value after a block of 128 bytes. -/
def shaBlock (h : List Word) (b : List Byte) : List Word :=
  let w := ((List.range 16).map (fun k => BitVec.ofNat 64 (beNat ((b.drop (8 * k)).take 8)))).reverse
  let ws := (shaSchedule 64 w).reverse
  let v := (((shaK0 ++ shaK1).zip ws).map (fun p => p.1 + p.2)).foldl shaRound h
  (h.zip v).map (fun p => p.1 + p.2)

/-- The hash value after n blocks. -/
def shaBlocks : Nat → List Word → List Byte → List Word
  | 0, h, _ => h
  | n + 1, h, b => shaBlocks n (shaBlock h (b.take 128)) (b.drop 128)

/-- The padded message: a 1 bit, zeros, and the length in bits as 16 bytes. -/
def shaPad (m : List Byte) : List Byte :=
  m ++ 0x80#8 :: List.replicate ((239 - m.length % 128) % 128) 0#8 ++ (leBytes 16 (8 * m.length)).reverse

/-- The 64 bytes of the SHA-512 of a message. -/
def sha512Bytes (m : List Byte) : List Byte :=
  let p := shaPad m
  (shaBlocks (p.length / 128) shaH p).flatMap (fun w => (leBytes 8 w.toNat).reverse)

/-- The SHA-512 of a message as a value whose byte k is byte k of the digest. -/
def sha512 (m : List Byte) : BitVec 512 := BitVec.ofNat 512 (leNat (sha512Bytes m))

/-! ### RSASSA-PSS -/

/-- MGF1 with SHA-512: n blocks of the mask from a counter. -/
def mgfBlocks (seed : List Byte) : Nat → Nat → List Byte
  | 0, _ => []
  | n + 1, k => sha512Bytes (seed ++ (leBytes 4 k).reverse) ++ mgfBlocks seed n (k + 1)
/-- A mask of n bytes. -/
def mgf1 (seed : List Byte) (n : Nat) : List Byte := (mgfBlocks seed ((n + 63) / 64) 0).take n

/-- x to an exponent of `bits` bits, modulo m. -/
def powMod (x m : Nat) : Nat → Nat → Nat
  | 0, _ => 1 % m
  | bits + 1, e =>
    let r := powMod (x * x % m) m bits (e / 2)
    if e % 2 = 1 then r * x % m else r

/-- The encoded message of emBits bits is consistent with a digest (RFC 8017, EMSA-PSS-VERIFY). -/
def pssConsistent (digest em : List Byte) (emBits : Nat) : Bool :=
  let n := (emBits + 7) / 8
  let masked := em.take (n - 65)
  let h := (em.drop (n - 65)).take 64
  let top := 8 * n - emBits
  let db := (masked.zip (mgf1 h (n - 65))).map (fun p => p.1 ^^^ p.2)
  let db := BitVec.ofNat 8 ((db.headD 0#8).toNat % 2 ^ (8 - top)) :: db.drop 1
  let zeros := n - 130
  decide (130 ≤ n) && em.getD (n - 1) 0#8 == 0xBC#8 && decide ((masked.headD 0#8).toNat < 2 ^ (8 - top)) &&
  (db.take zeros).all (fun b => b == 0#8) && db.getD zeros 0#8 == 1#8 &&
  sha512Bytes (List.replicate 8 0#8 ++ digest ++ db.drop (zeros + 1)) == h

/-- The signature verifies: the modulus, exponent and signature are big-endian, the digest is of the signed message. -/
def pssVerify (modulus exponent digest signature : List Byte) : Bool :=
  let m := beNat modulus
  let emBits := Nat.log2 m
  let x := powMod (beNat signature) m (8 * exponent.length) (beNat exponent)
  let n := (emBits + 7) / 8
  decide (beNat signature < m) && decide (x < 2 ^ (8 * n)) && pssConsistent digest (leBytes n x).reverse emBits

end Machine
end Sys2Proof
end

