-- ==== Sys2Proof/Machine/Frames.lean ====
section
/-! DEFINITION. The bytes of frames: Ethernet, its check sequence, tags, the header of a collective frame and that of the
management port (spec/15_links_collectives.md R345, R353; spec/16_isolation.md R384). -/

namespace Sys2Proof
namespace Machine

/-- A port. -/
def portOf (s : State) (n : Nat) : Port := tget Port.reset n s.ports
/-- Put a port back. -/
def putPort (s : State) (n : Nat) (p : Port) : State := { s with ports := tset n p s.ports }
/-- Count a frame dropped. -/
def dropFrame (s : State) (n : Nat) : State := putPort s n { portOf s n with drops := (portOf s n).drops + 1#32 }

/-- One bit of the frame check sequence, low bit first (IEEE 802.3; PRESUMED, log 30). -/
def crcBit (r : BitVec 32) : BitVec 32 := if r.getLsbD 0 then (r >>> 1) ^^^ 0xEDB88320#32 else r >>> 1
/-- One byte of the frame check sequence. -/
def crcByte (r : BitVec 32) (b : Byte) : BitVec 32 :=
  (List.range 8).foldl (fun r _ => crcBit r) (r ^^^ b.setWidth 32)
/-- The FCS of a frame (R345). -/
def fcsOf (f : List Byte) : List Byte := leBytes 4 (~~~(f.foldl crcByte 0xFFFFFFFF#32)).toNat
/-- A frame with its FCS checks. -/
def fcsOk (f : List Byte) : Bool := f.drop (f.length - 4) == fcsOf (f.take (f.length - 4))

/-- Bytes of a number, most significant first, as Ethernet sends its fields (PRESUMED, log 30). -/
def beBytes (n v : Nat) : List Byte := (leBytes n v).reverse
/-- A two-byte Ethernet field of a frame. -/
def be16 (f : List Byte) (k : Nat) : Nat := (f.getD k 0#8).toNat * 256 + (f.getD (k + 1) 0#8).toNat
/-- Bytes of a frame before its EtherType: the addresses, and one tag if it has one. -/
def etherAt (f : List Byte) : Nat := if be16 f 12 = 0x8100 then 16 else 12
/-- The EtherType of a frame, past one tag. -/
def etherType (f : List Byte) : Nat := be16 f (etherAt f)
/-- What follows the EtherType. -/
def etherBody (f : List Byte) : List Byte := f.drop (etherAt f + 2)
/-- An Ethernet II frame of a port to a station. -/
def etherFrame (p : Port) (station ty : Nat) (body : List Byte) : List Byte :=
  beBytes 6 station ++ beBytes 6 p.station.toNat ++ beBytes 2 ty ++ body

/-- The priority of the frames that a port sends: that of its tag, else 0 (PRESUMED, log 30). -/
def framePriority (p : Port) : BitVec 3 := if p.tag then p.tagPrio else 0#3
/-- A frame as it is sent: with the port's tag after its addresses when the port has one (DEDUCED, log 30). -/
def taggedFrame (p : Port) (f : List Byte) : List Byte :=
  if p.tag then f.take 12 ++ [0x81#8, 0x00#8, BitVec.ofNat 8 (p.tagPrio.toNat * 32 + p.vlan.toNat / 256),
    BitVec.ofNat 8 p.vlan.toNat] ++ f.drop 12
  else f
/-- A frame on the wire: tagged, filled up to 60 bytes with zeros (PRESUMED, log 30), and with its FCS. -/
def onWire (p : Port) (f : List Byte) : List Byte :=
  let f := taggedFrame p f
  let f := f ++ List.replicate (60 - f.length) 0#8
  f ++ fcsOf f
/-- The port's flow control has its frames wait (R345). -/
def portHeld (p : Port) : Bool := p.paused && framePriority p == p.prio

/-! ### Collective frames (R353) -/

/-- The 32-byte header and the payload of a collective frame. -/
def frameBytes (f : Frame) : List Byte :=
  [BitVec.ofNat 8 f.ver, BitVec.ofNat 8 f.kind, BitVec.ofNat 8 f.ty, BitVec.ofNat 8 (f.form * 16 + f.rm % 16), BitVec.ofNat 8 f.op,
    if f.last then 1#8 else 0#8] ++ leBytes 2 f.payload.length ++ leBytes 4 f.group ++ leBytes 4 f.cseq ++ leBytes 4 f.src ++
  leBytes 4 f.dst ++ leBytes 4 f.chunk ++ [BitVec.ofNat 8 f.code, 0#8, 0#8, 0#8] ++ f.payload

/-- Bytes of a field as a number. -/
def fieldLE (b : List Byte) (k n : Nat) : Nat := leNat ((b.drop k).take n)

/-- The frame that bytes hold: none where they are too few, a zero field is not zero (DEDUCED, log 30), or LEN is above the 4,096 of a
chunk, of which R353 says nothing (DESIGN CHOICE, log 30). -/
def frameOf (b : List Byte) : Option Frame :=
  let n := fieldLE b 6 2
  if b.length < 32 + n ∨ 4096 < n ∨ 2 ≤ fieldLE b 5 1 ∨ fieldLE b 29 3 ≠ 0 then none
  else some { ver := fieldLE b 0 1, kind := fieldLE b 1 1, ty := fieldLE b 2 1, form := fieldLE b 3 1 / 16, rm := fieldLE b 3 1 % 16,
              op := fieldLE b 4 1, last := fieldLE b 5 1 == 1, group := fieldLE b 8 4, cseq := fieldLE b 12 4, src := fieldLE b 16 4,
              dst := fieldLE b 20 4, chunk := fieldLE b 24 4, code := fieldLE b 28 1, payload := (b.drop 32).take n }

/-- The event of a collective frame at a port (R353): none of another KIND. -/
noncomputable def frameInstr (port : Fin 16) (f : Frame) : Option Instr :=
  match f.kind with
  | 0 => some (.dataFrame port f)
  | 1 => some (.creditFrame port f)
  | 2 => some (.abortFrame port f)
  | 3 => some (.probeFrame port f)
  | 4 => some (.replyFrame port f)
  | _ => none

/-- The port of the package that has a station address (R346): each of the 16 ports counts, one that nothing has written with its
station 0 of reset too, and of several the lowest-numbered (DESIGN CHOICE, log 30). -/
def portWith (s : State) (station : Nat) : Option (Fin 16) :=
  (List.finRange 16).find? (fun n => (portOf s n.val).station.toNat == station)

/-- Send a collective frame by a port to a station: inside the package to a port of its own, else on the wire, after the frames
that flow control has made wait at the port (R345, R346). -/
def sendFrame (s : State) (port station : Nat) (f : Frame) : State :=
  match portWith s station with
  | some n => { s with inside := s.inside ++ [(n, f)] }
  | none =>
    let bytes := onWire (portOf s port) (etherFrame (portOf s port) station 0x88B5 (frameBytes f))
    if portHeld (portOf s port) then { s with heldFrames := s.heldFrames ++ [(port, bytes)] }
    else { s with sent := s.sent ++ [.frame port bytes] }

/-- Flow control lets a port send again: the frames that waited go out in order. -/
def releasePort (s : State) (port : Nat) : State :=
  { s with
    sent := s.sent ++ (s.heldFrames.filter (fun x => x.1 == port)).map (fun x => .frame port x.2)
    heldFrames := s.heldFrames.filter (fun x => x.1 != port) }

/-! ### Flow control frames (IEEE 802.1Qbb; PRESUMED, log 30) -/

/-- Whether the body of a MAC control frame pauses or resumes a priority; none where it is no priority flow control frame or does
not name the priority. -/
def pfcOf (body : List Byte) (prio : Nat) : Option Bool :=
  if be16 body 0 = 0x0101 ∧ (be16 body 2).testBit prio then some (be16 body (4 + 2 * prio) != 0) else none

/-! ### The management port (R384) -/

/-- The 16-byte header of a REPLY and its payload. OFFSET of a REPLY has no stated value (log 30). -/
def replyBytes (offset tag status : Nat) (data : List Byte) : List Byte :=
  [1#8, 3#8] ++ leBytes 2 tag ++ leBytes 4 offset ++ leBytes 2 data.length ++ [BitVec.ofNat 8 status] ++ List.replicate 5 0#8 ++ data

/-- The event of a frame at the management port (R384): none for another EtherType or VER, an OP that is no request, a zero field
that is not zero, or a payload that is short (DEDUCED, log 30). A request of SPDM is answered whatever its LEN, also above the 1,024
bytes that R384 bounds it by (DESIGN CHOICE, log 30). -/
noncomputable def mgmtInstr (ty : Nat) (b : List Byte) : Option Instr :=
  let tag := fieldLE b 2 2
  let len := fieldLE b 8 2
  let data := (b.drop 16).take len
  if ty ≠ 0x88B6 ∨ b.length < 16 ∨ fieldLE b 0 1 ≠ 1 ∨ fieldLE b 11 5 ≠ 0 then none
  else match fieldLE b 1 1 with
    | 0 => some (.mgmtRead tag (fieldLE b 4 4) len)
    | 1 => if data.length = len then some (.mgmtWrite tag (fieldLE b 4 4) data) else none
    | 2 =>
      let req : SpdmReq := { via := .port tag, code := fieldLE data 1 1, param := fieldLE data (if fieldLE data 1 1 = 0xE0 then 3 else 2) 1, bytes := data }
      if data.length ≠ len then none
      else match req.code with
        | 0x84 => some (.getVersion req)
        | 0xE1 => some (.getCapabilities req)
        | 0xE3 => some (.negotiateAlgorithms req)
        | 0x81 => some (.getDigests req)
        | 0x82 => some (.getCertificate req)
        | 0x83 => some (.challenge req)
        | 0xE0 => some (.getMeasurements req)
        | _ => some (.unsupportedRequest req)
    | _ => none

end Machine
end Sys2Proof
end

