-- ==== Sys2Proof/Machine/Guards.lean ====
section
/-! DEFINITION. What a vector-state instruction and one that waits for the run check before their effect: the lazy vector switch
(spec/17_traps.md R403, R404) and the report of a failed run (spec/13_chains.md R303). -/

namespace Sys2Proof
namespace Machine

/-- The trap that reports a failed run (R303, R391). -/
def reportTrap (v : VecState) : Trap :=
  let f := v.runFault.getD { cause := 0, xval := 0#64 }
  { cause := f.cause, xval := f.xval, async := false, runrep := true, access := f.access, offset := f.offset }

/-- Wait while a run is in progress, and take the report of one that failed; PEND is cleared at the trap (R303, R390). -/
def runGate (s : State) (k : Ans) : Ans :=
  if s.me.vec.rRun then .wait s
  else if s.me.vec.rPend then .trap (setVec s { s.me.vec with rPend := false }) (reportTrap s.me.vec)
  else k

/-- The lanes of a hart's partition, as package lane numbers: lanes taken from it are served from its save rows, which
changes only speed (spec/14_harts_kiln.md R315). -/
def lanesOf (a : Agent) (h : HartId) : List Nat :=
  let b := if a.reclaimed then (a.nfirst.toNat, a.nlanes.toNat) else (a.first.toNat, a.lanes.toNat)
  (List.range b.2).map (fun j => hartCore h * 128 + b.1 + j)

/-- `VSAVE` arises: a lane of the partition holds state other than the hart's own, or its own state lies in save rows
(R404). A lane that holds nothing since its last owner's end is taken without a service. -/
def vsaveDue (s : State) (h : HartId) : Bool :=
  s.me.inRows ||
  (lanesOf s.me h).any (fun l => s.laneOwner.any (fun p => p.1 == l && p.2 != h))

/-- The owner's task is pre-empted and not final, so its state must be kept. -/
def keepsState (s : State) (o : HartId) : Bool :=
  match (hartOf s o).task with
  | none => false
  | some e => match entryOf s e with
    | some x => x.state == .preempted
    | none => false

/-- A unit of an agent's registers is poisoned (spec/18_ras.md R418). -/
def poisonAgent (a : Agent) (u : RegUnit) : Agent :=
  let v := a.vec
  match u with
  | .g r => { a with pg := a.pg ||| BitVec.twoPow 32 r }
  | .v r g => { a with vec := { v with pv := v.pv.set (regOf r) (v.pv[regOf r] ||| BitVec.twoPow 1024 g) } }
  | .m n => { a with vec := { v with pm := v.pm ||| BitVec.twoPow 8 n } }
  | .acc row lane =>
    let p := v.pacc[row % 64]'(Nat.mod_lt _ (by decide)) ||| BitVec.twoPow 128 lane
    { a with vec := { v with pacc := v.pacc.set (row % 64) p (Nat.mod_lt _ (by decide)) } }

/-- The unit of saved vector state that a line of save rows holds (log 42). -/
def savedUnit (core line : Nat) : RegUnit :=
  let (kind, n, place) := Config.savedUnit (core * 786432 + line)
  match kind % 3 with
  | 0 => .v (n % 32) (place % 1024)
  | 1 => .m (n % 7 + 1)
  | _ => .acc (n % 64) (place % 128)

/-- State written into save rows meets the poison that their lines hold, since a write leaves a line poisoned (spec/18_ras.md
R419; log 42). -/
def poisonSaved (s : State) (core : Nat) (a : Agent) : Agent :=
  (a.saveRows.flatMap (fun r => (List.range 128).map (fun j => r * 128 + j))).foldl (fun a line =>
    if isPoisoned s (tileKey core + 64 * line) then poisonAgent a (savedUnit core line) else a) a

/-- Release rows of a core: every bit zero (R405). -/
def releaseRows (s : State) (core : Nat) (rows : List Nat) : State :=
  rows.foldl (fun s r => releaseRange s (tileKey core + r * 8192) 8192) s

/-- Kiln's service (R404): the state of each other owner that is pre-empted goes to its save rows, what finished owners
left is discarded, the hart's own is loaded and its save rows are released, but for a hart whose lanes have been taken, which keeps them
for the slices of those lanes (R405; spec/14_harts_kiln.md R315). The lanes are then the hart's. -/
def vsave (s : State) : State :=
  match s.me.id with
  | .cc _ => s
  | .hart h =>
    let ls := lanesOf s.me h
    let others := ((s.laneOwner.filter (fun p => ls.contains p.1 && p.2 != h)).map (fun p => p.2)).eraseDups
    let s := others.foldl (fun s o =>
      if keepsState s o then putAgent s (poisonSaved s (hartCore o) { hartOf s o with inRows := true }) else s) s
    let kept := s.laneOwner.filter (fun p => !(others.contains p.2) && p.2 != h)
    let s := { s with laneOwner := ls.foldl (fun l j => tset j h l) kept }
    let back := s.me.inRows && !s.me.reclaimed
    let rows := s.me.saveRows
    let s := if back then releaseRows s (hartCore h) rows else s
    { s with me := { s.me with inRows := false, saveRows := if back then [] else rows } }

/-- A vector-state instruction: `VSAVE` first, then the report (R390, tests 5 and 6). -/
def vectorState (s : State) (k : State → Ans) : Ans :=
  runGate (vsave s) (k (vsave s))

/-- The fate of a node word inline (R51, tests 3 to 5). -/
def vfate (op : VOp) (w : VWord) : Except Fate Unit :=
  (checkCand (some op) (vcheck3 .inline w) (fun o => lowestAbsent (vfeatures w o)) (vcheck5 .inline w)).map (fun _ => ())

/-- A node word executed inline: its decode fate, `ILLEGAL` on a control core, then the vector-state checks, then its own
effect. -/
def node (op : VOp) (w : VWord) (s : State) (k : State → Ans) : Host.Outcome State Fault Refusal :=
  finish 8
    (match vfate op w with
     | .error .illegal => illegal s (op.encode w)
     | .error (.feature n) => .trap s (Trap.sync cFeature (BitVec.ofNat 64 n))
     | .ok () => hartOnly s (op.encode w) (vectorState s k))

end Machine
end Sys2Proof
end

