-- ==== Sys2Proof/Machine/ScalarFloat.lean ====
section
/-! DEFINITION. Scalar floating point (spec/05_scalar_ops.md R112-R117) over the one rounding of Flags.lean. -/

namespace Sys2Proof
namespace Machine

/-- Raise flags in `FFLAGS` (R97). -/
def raiseFlags (s : State) (f : BitVec 5) : State := { s with me := { s.me with fflags := s.me.fflags ||| f } }
/-- The mode of a scalar rm field: DYN takes `RMODE`, and SR there rounds by RNE (R91, R112). -/
def scalarMode (s : State) (rm : Fin 8) : RMode :=
  let m := if rm = 7 then s.me.rmode.toNat else rm.val
  RMode.plain (if m = 5 then 0 else m)
/-- An operand of a format, from the low bits of its register (R83, R112). -/
def fop (F : Fmt) (s : State) (r : Reg) : FVal := unpack F ((rd s r).toNat % 2 ^ F.width)
/-- Write a result zero-extended and merge its flags. -/
def fdone (s : State) (d : Reg) (x : FRes) : Ans := .done (raiseFlags (wr s d (BitVec.ofNat 64 x.1)) x.2)
/-- Two floating-point sources. -/
def fp2 (t : Nat) (f : Fmt → FVal → FVal → FRes) (d a b : Reg) (s : State) : Host.Outcome State Fault Refusal :=
  scalar s [a, b] (fdone s d (f (fmtOf t) (fop (fmtOf t) s a) (fop (fmtOf t) s b)))
/-- Two sources as bit patterns of the format. -/
def fpBits (t : Nat) (f : Fmt → Nat → Nat → FRes) (d a b : Reg) (s : State) : Host.Outcome State Fault Refusal :=
  let F := fmtOf t
  scalar s [a, b] (fdone s d (f F ((rd s a).toNat % 2 ^ F.width) ((rd s b).toNat % 2 ^ F.width)))
/-- A compare that writes 1 or 0 (R112). -/
def fpCmp (t op : Nat) (d a b : Reg) (s : State) : Host.Outcome State Fault Refusal :=
  fp2 t (fun _ x y => ((compareV op x y).1.toNat, (compareV op x y).2)) d a b s
/-- The sign bit of a code. -/
def signBit (F : Fmt) (v : Nat) : Bool := v / 2 ^ (F.eb + F.f) % 2 == 1
/-- A code with another sign bit (R82). -/
def withSign (F : Fmt) (v : Nat) (s : Bool) : Nat := F.sign s (v % 2 ^ (F.eb + F.f))
/-- One source read in a format. -/
def fp1 (t : Nat) (f : FVal → FRes) (d a : Reg) (s : State) : Host.Outcome State Fault Refusal :=
  scalar s [a] (fdone s d (f (fop (fmtOf t) s a)))
/-- The fused forms of R114: the product's and the addend's signs. -/
def fused (np nc : Bool) (d a b c : Reg) (rm : Fin 8) (ty : Fin 2) (s : State) : Host.Outcome State Fault Refusal :=
  let F := fmtOf (if ty = 0 then 9 else 8)
  let z := fop F s c
  scalar s [a, b, c] (fdone s d (fmaV F (scalarMode s rm) np (fop F s a) (fop F s b) (if nc then z.neg else z)))
/-- An integer source of a conversion (R116). -/
def fromInt (signed : Bool) (w t : Nat) (d a : Reg) (rm : Fin 8) (s : State) : Host.Outcome State Fault Refusal :=
  scalar s [a] (fdone s d (ofInt (fmtOf t) (scalarMode s rm) (valOf signed w (rd s a).toNat)))
/-- An integer result of a conversion, i32 sign-extended and n32 zero-extended (R116). -/
def intoInt (signed : Bool) (w t : Nat) (d a : Reg) (rm : Fin 8) (s : State) : Host.Outcome State Fault Refusal :=
  let x := toInt signed w (scalarMode s rm) (fop (fmtOf t) s a)
  scalar s [a] (fdone s d (wrapI 64 (valOf signed w x.1), x.2))

/-- FADD_F32: Rounds the f32 sum of rs1 and rs2 into rd. (R113) -/
def execFaddF32 (rd rs1 rs2 : Reg) (rm : Fin 8) (s : State) : Host.Outcome State Fault Refusal :=
  fp2 9 (fun F x y => addV F (scalarMode s rm) x y) rd rs1 rs2 s

/-- FSUB_F32: Rounds the f32 difference into rd. (R113) -/
def execFsubF32 (rd rs1 rs2 : Reg) (rm : Fin 8) (s : State) : Host.Outcome State Fault Refusal :=
  fp2 9 (fun F x y => addV F (scalarMode s rm) x y.neg) rd rs1 rs2 s

/-- FMUL_F32: Rounds the f32 product into rd. (R113) -/
def execFmulF32 (rd rs1 rs2 : Reg) (rm : Fin 8) (s : State) : Host.Outcome State Fault Refusal :=
  fp2 9 (fun F x y => mulV F (scalarMode s rm) x y) rd rs1 rs2 s

/-- FDIV_F32: Rounds the f32 quotient into rd. (R113) -/
def execFdivF32 (rd rs1 rs2 : Reg) (rm : Fin 8) (s : State) : Host.Outcome State Fault Refusal :=
  fp2 9 (fun F x y => divV F (scalarMode s rm) x y) rd rs1 rs2 s

/-- FSQRT_F32: Rounds the f32 square root into rd. (R113) -/
def execFsqrtF32 (rd rs1 : Reg) (rm : Fin 8) (s : State) : Host.Outcome State Fault Refusal :=
  fp1 9 (fun x => sqrtV (fmtOf 9) (scalarMode s rm) x) rd rs1 s

/-- FMIN_F32: Writes the lesser f32 operand under R95. (R113) -/
def execFminF32 (rd rs1 rs2 : Reg) (s : State) : Host.Outcome State Fault Refusal :=
  fpBits 9 (fun F x y => minmax F false x y) rd rs1 rs2 s

/-- FMAX_F32: Writes the greater f32 operand under R95. (R113) -/
def execFmaxF32 (rd rs1 rs2 : Reg) (s : State) : Host.Outcome State Fault Refusal :=
  fpBits 9 (fun F x y => minmax F true x y) rd rs1 rs2 s

/-- FSGNJ_F32: Writes rs1 with the sign of rs2. (R113) -/
def execFsgnjF32 (rd rs1 rs2 : Reg) (s : State) : Host.Outcome State Fault Refusal :=
  fpBits 9 (fun F x y => (withSign F x (signBit F y), 0#5)) rd rs1 rs2 s

/-- FSGNJN_F32: Writes rs1 with the inverted sign of rs2. (R113) -/
def execFsgnjnF32 (rd rs1 rs2 : Reg) (s : State) : Host.Outcome State Fault Refusal :=
  fpBits 9 (fun F x y => (withSign F x (!signBit F y), 0#5)) rd rs1 rs2 s

/-- FSGNJX_F32: Writes rs1 with the XOR of both signs. (R113) -/
def execFsgnjxF32 (rd rs1 rs2 : Reg) (s : State) : Host.Outcome State Fault Refusal :=
  fpBits 9 (fun F x y => (withSign F x (signBit F x != signBit F y), 0#5)) rd rs1 rs2 s

/-- FEQ_F32: Writes 1 if the f32 operands are equal. (R113) -/
def execFeqF32 (rd rs1 rs2 : Reg) (s : State) : Host.Outcome State Fault Refusal :=
  fpCmp 9 0 rd rs1 rs2 s

/-- FLT_F32: Writes 1 if rs1 is less than rs2 in f32. (R113) -/
def execFltF32 (rd rs1 rs2 : Reg) (s : State) : Host.Outcome State Fault Refusal :=
  fpCmp 9 2 rd rs1 rs2 s

/-- FLE_F32: Writes 1 if rs1 is at most rs2 in f32. (R113) -/
def execFleF32 (rd rs1 rs2 : Reg) (s : State) : Host.Outcome State Fault Refusal :=
  fpCmp 9 3 rd rs1 rs2 s

/-- FCLASS_F32: Writes the class code of an f32 operand. (R115) -/
def execFclassF32 (rd rs1 : Reg) (s : State) : Host.Outcome State Fault Refusal :=
  scalar s [rs1] (.done (wr s rd (BitVec.ofNat 64 (classCode (fmtOf 9) ((Machine.rd s rs1).toNat % 2 ^ (fmtOf 9).width)))))

/-- FADD_F64: Rounds the f64 sum into rd. (R113) -/
def execFaddF64 (rd rs1 rs2 : Reg) (rm : Fin 8) (s : State) : Host.Outcome State Fault Refusal :=
  fp2 8 (fun F x y => addV F (scalarMode s rm) x y) rd rs1 rs2 s

/-- FSUB_F64: Rounds the f64 difference into rd. (R113) -/
def execFsubF64 (rd rs1 rs2 : Reg) (rm : Fin 8) (s : State) : Host.Outcome State Fault Refusal :=
  fp2 8 (fun F x y => addV F (scalarMode s rm) x y.neg) rd rs1 rs2 s

/-- FMUL_F64: Rounds the f64 product into rd. (R113) -/
def execFmulF64 (rd rs1 rs2 : Reg) (rm : Fin 8) (s : State) : Host.Outcome State Fault Refusal :=
  fp2 8 (fun F x y => mulV F (scalarMode s rm) x y) rd rs1 rs2 s

/-- FDIV_F64: Rounds the f64 quotient into rd. (R113) -/
def execFdivF64 (rd rs1 rs2 : Reg) (rm : Fin 8) (s : State) : Host.Outcome State Fault Refusal :=
  fp2 8 (fun F x y => divV F (scalarMode s rm) x y) rd rs1 rs2 s

/-- FSQRT_F64: Rounds the f64 square root into rd. (R113) -/
def execFsqrtF64 (rd rs1 : Reg) (rm : Fin 8) (s : State) : Host.Outcome State Fault Refusal :=
  fp1 8 (fun x => sqrtV (fmtOf 8) (scalarMode s rm) x) rd rs1 s

/-- FMIN_F64: Writes the lesser f64 operand. (R113) -/
def execFminF64 (rd rs1 rs2 : Reg) (s : State) : Host.Outcome State Fault Refusal :=
  fpBits 8 (fun F x y => minmax F false x y) rd rs1 rs2 s

/-- FMAX_F64: Writes the greater f64 operand. (R113) -/
def execFmaxF64 (rd rs1 rs2 : Reg) (s : State) : Host.Outcome State Fault Refusal :=
  fpBits 8 (fun F x y => minmax F true x y) rd rs1 rs2 s

/-- FSGNJ_F64: Writes rs1 with the sign of rs2 in f64. (R113) -/
def execFsgnjF64 (rd rs1 rs2 : Reg) (s : State) : Host.Outcome State Fault Refusal :=
  fpBits 8 (fun F x y => (withSign F x (signBit F y), 0#5)) rd rs1 rs2 s

/-- FSGNJN_F64: Writes rs1 with the inverted sign of rs2 in f64. (R113) -/
def execFsgnjnF64 (rd rs1 rs2 : Reg) (s : State) : Host.Outcome State Fault Refusal :=
  fpBits 8 (fun F x y => (withSign F x (!signBit F y), 0#5)) rd rs1 rs2 s

/-- FSGNJX_F64: Writes rs1 with the XOR of both signs in f64. (R113) -/
def execFsgnjxF64 (rd rs1 rs2 : Reg) (s : State) : Host.Outcome State Fault Refusal :=
  fpBits 8 (fun F x y => (withSign F x (signBit F x != signBit F y), 0#5)) rd rs1 rs2 s

/-- FEQ_F64: Writes 1 if the f64 operands are equal. (R113) -/
def execFeqF64 (rd rs1 rs2 : Reg) (s : State) : Host.Outcome State Fault Refusal :=
  fpCmp 8 0 rd rs1 rs2 s

/-- FLT_F64: Writes 1 if rs1 is less than rs2 in f64. (R113) -/
def execFltF64 (rd rs1 rs2 : Reg) (s : State) : Host.Outcome State Fault Refusal :=
  fpCmp 8 2 rd rs1 rs2 s

/-- FLE_F64: Writes 1 if rs1 is at most rs2 in f64. (R113) -/
def execFleF64 (rd rs1 rs2 : Reg) (s : State) : Host.Outcome State Fault Refusal :=
  fpCmp 8 3 rd rs1 rs2 s

/-- FCLASS_F64: Writes the class code of an f64 operand. (R115) -/
def execFclassF64 (rd rs1 : Reg) (s : State) : Host.Outcome State Fault Refusal :=
  scalar s [rs1] (.done (wr s rd (BitVec.ofNat 64 (classCode (fmtOf 8) ((Machine.rd s rs1).toNat % 2 ^ (fmtOf 8).width)))))

/-- FMADD: Rounds p plus c once into rd. (R114) -/
def execFmadd (rd rs1 rs2 rs3 : Reg) (rm : Fin 8) (ty : Fin 2) (s : State) : Host.Outcome State Fault Refusal :=
  fused false false rd rs1 rs2 rs3 rm ty s

/-- FMSUB: Rounds p minus c once into rd. (R114) -/
def execFmsub (rd rs1 rs2 rs3 : Reg) (rm : Fin 8) (ty : Fin 2) (s : State) : Host.Outcome State Fault Refusal :=
  fused false true rd rs1 rs2 rs3 rm ty s

/-- FNMADD: Rounds minus p minus c once into rd. (R114) -/
def execFnmadd (rd rs1 rs2 rs3 : Reg) (rm : Fin 8) (ty : Fin 2) (s : State) : Host.Outcome State Fault Refusal :=
  fused true true rd rs1 rs2 rs3 rm ty s

/-- FNMSUB: Rounds minus p plus c once into rd. (R114) -/
def execFnmsub (rd rs1 rs2 rs3 : Reg) (rm : Fin 8) (ty : Fin 2) (s : State) : Host.Outcome State Fault Refusal :=
  fused true false rd rs1 rs2 rs3 rm ty s

/-- FCVT_F32_I32: Converts i32 to f32. (R116) -/
def execFcvtF32I32 (rd rs1 : Reg) (rm : Fin 8) (s : State) : Host.Outcome State Fault Refusal :=
  fromInt true 32 9 rd rs1 rm s

/-- FCVT_F32_N32: Converts n32 to f32. (R116) -/
def execFcvtF32N32 (rd rs1 : Reg) (rm : Fin 8) (s : State) : Host.Outcome State Fault Refusal :=
  fromInt false 32 9 rd rs1 rm s

/-- FCVT_F32_I64: Converts i64 to f32. (R116) -/
def execFcvtF32I64 (rd rs1 : Reg) (rm : Fin 8) (s : State) : Host.Outcome State Fault Refusal :=
  fromInt true 64 9 rd rs1 rm s

/-- FCVT_F32_N64: Converts n64 to f32. (R116) -/
def execFcvtF32N64 (rd rs1 : Reg) (rm : Fin 8) (s : State) : Host.Outcome State Fault Refusal :=
  fromInt false 64 9 rd rs1 rm s

/-- FCVT_F64_I32: Converts i32 to f64 exactly. (R116) -/
def execFcvtF64I32 (rd rs1 : Reg) (rm : Fin 8) (s : State) : Host.Outcome State Fault Refusal :=
  fromInt true 32 8 rd rs1 rm s

/-- FCVT_F64_N32: Converts n32 to f64 exactly. (R116) -/
def execFcvtF64N32 (rd rs1 : Reg) (rm : Fin 8) (s : State) : Host.Outcome State Fault Refusal :=
  fromInt false 32 8 rd rs1 rm s

/-- FCVT_F64_I64: Converts i64 to f64. (R116) -/
def execFcvtF64I64 (rd rs1 : Reg) (rm : Fin 8) (s : State) : Host.Outcome State Fault Refusal :=
  fromInt true 64 8 rd rs1 rm s

/-- FCVT_F64_N64: Converts n64 to f64. (R116) -/
def execFcvtF64N64 (rd rs1 : Reg) (rm : Fin 8) (s : State) : Host.Outcome State Fault Refusal :=
  fromInt false 64 8 rd rs1 rm s

/-- FCVT_I32_F32: Converts f32 to i32 under R90. (R116) -/
def execFcvtI32F32 (rd rs1 : Reg) (rm : Fin 8) (s : State) : Host.Outcome State Fault Refusal :=
  intoInt true 32 9 rd rs1 rm s

/-- FCVT_N32_F32: Converts f32 to n32 under R90. (R116) -/
def execFcvtN32F32 (rd rs1 : Reg) (rm : Fin 8) (s : State) : Host.Outcome State Fault Refusal :=
  intoInt false 32 9 rd rs1 rm s

/-- FCVT_I64_F32: Converts f32 to i64. (R116) -/
def execFcvtI64F32 (rd rs1 : Reg) (rm : Fin 8) (s : State) : Host.Outcome State Fault Refusal :=
  intoInt true 64 9 rd rs1 rm s

/-- FCVT_N64_F32: Converts f32 to n64. (R116) -/
def execFcvtN64F32 (rd rs1 : Reg) (rm : Fin 8) (s : State) : Host.Outcome State Fault Refusal :=
  intoInt false 64 9 rd rs1 rm s

/-- FCVT_I32_F64: Converts f64 to i32. (R116) -/
def execFcvtI32F64 (rd rs1 : Reg) (rm : Fin 8) (s : State) : Host.Outcome State Fault Refusal :=
  intoInt true 32 8 rd rs1 rm s

/-- FCVT_N32_F64: Converts f64 to n32. (R116) -/
def execFcvtN32F64 (rd rs1 : Reg) (rm : Fin 8) (s : State) : Host.Outcome State Fault Refusal :=
  intoInt false 32 8 rd rs1 rm s

/-- FCVT_I64_F64: Converts f64 to i64. (R116) -/
def execFcvtI64F64 (rd rs1 : Reg) (rm : Fin 8) (s : State) : Host.Outcome State Fault Refusal :=
  intoInt true 64 8 rd rs1 rm s

/-- FCVT_N64_F64: Converts f64 to n64. (R116) -/
def execFcvtN64F64 (rd rs1 : Reg) (rm : Fin 8) (s : State) : Host.Outcome State Fault Refusal :=
  intoInt false 64 8 rd rs1 rm s

/-- FCVT_F32_F64: Rounds an f64 to f32. (R116) -/
def execFcvtF32F64 (rd rs1 : Reg) (rm : Fin 8) (s : State) : Host.Outcome State Fault Refusal :=
  fp1 8 (fun x => toFmt (fmtOf 9) (scalarMode s rm) x) rd rs1 s

/-- FCVT_F64_F32: Widens an f32 to f64 exactly. (R116) -/
def execFcvtF64F32 (rd rs1 : Reg) (rm : Fin 8) (s : State) : Host.Outcome State Fault Refusal :=
  fp1 9 (fun x => toFmt (fmtOf 8) (scalarMode s rm) x) rd rs1 s

/-- FCVT_F32_BF16: Widens bf16 to f32 exactly. (R117) -/
def execFcvtF32Bf16 (rd rs1 : Reg) (rm : Fin 8) (s : State) : Host.Outcome State Fault Refusal :=
  fp1 10 (fun x => toFmt (fmtOf 9) (scalarMode s rm) x) rd rs1 s

/-- FCVT_BF16_F32: Rounds f32 to bf16. (R117) -/
def execFcvtBf16F32 (rd rs1 : Reg) (rm : Fin 8) (s : State) : Host.Outcome State Fault Refusal :=
  fp1 9 (fun x => toFmt (fmtOf 10) (scalarMode s rm) x) rd rs1 s

/-- FCVT_F32_F16: Widens f16 to f32 exactly. (R117) -/
def execFcvtF32F16 (rd rs1 : Reg) (rm : Fin 8) (s : State) : Host.Outcome State Fault Refusal :=
  fp1 11 (fun x => toFmt (fmtOf 9) (scalarMode s rm) x) rd rs1 s

/-- FCVT_F16_F32: Rounds f32 to f16. (R117) -/
def execFcvtF16F32 (rd rs1 : Reg) (rm : Fin 8) (s : State) : Host.Outcome State Fault Refusal :=
  fp1 9 (fun x => toFmt (fmtOf 11) (scalarMode s rm) x) rd rs1 s

/-- FCVT_F64_F16: Widens f16 to f64 exactly. (R117) -/
def execFcvtF64F16 (rd rs1 : Reg) (rm : Fin 8) (s : State) : Host.Outcome State Fault Refusal :=
  fp1 11 (fun x => toFmt (fmtOf 8) (scalarMode s rm) x) rd rs1 s

/-- FCVT_F16_F64: Rounds f64 to f16 in one rounding. (R117) -/
def execFcvtF16F64 (rd rs1 : Reg) (rm : Fin 8) (s : State) : Host.Outcome State Fault Refusal :=
  fp1 8 (fun x => toFmt (fmtOf 11) (scalarMode s rm) x) rd rs1 s

end Machine
end Sys2Proof
end

