-- ==== Sys2Proof/Machine/Operands.lean ====
section
/-! DEFINITION. Every operand form of a node word: element widths and places, sources with replicate, masks, rounding
modes with their keys, register poison, and the element loop (spec/02_encoding.md R36-R42; spec/04_formats.md R91-R93,
R100-R102; spec/06_vector_arith.md R124-R129). -/

namespace Sys2Proof
namespace Machine

/-- Element width in a register (R124). -/
def elemW (t : Nat) : Nat :=
  match t with
  | 0 => 8 | 1 => 16 | 2 => 32 | 3 => 64 | 4 => 8 | 5 => 16 | 6 => 32 | 7 => 64
  | 8 => 64 | 9 => 32 | 10 => 16 | 11 => 16
  | 16 => 4 | 20 => 4
  | _ => 8

/-- The bits of an element that hold its value: six of the eight of e3m2 and e2m3, whose bits [7:6] are written as zero and
ignored when read (spec/04_formats.md R83). -/
def codeW (t : Nat) : Nat := if t = 14 ∨ t = 15 then 6 else elemW t

/-- The capacity of a register (R124). -/
def cap (t lanes : Nat) : Nat := lanes * 2048 / elemW t
/-- The signed integer types (R79). -/
def signedTy (t : Nat) : Bool := t < 4

/-- Where element i lies in granule order (R100, R101): linear, but for mx4, whose blocks fill half granules lane by
lane. -/
def elemBit (t lanes i : Nat) : Nat :=
  if t = 20 then
    let b := i / 32
    ((b / lanes / 2) * lanes + b % lanes) * 256 + (b / lanes % 2) * 128 + (i % 32) * 4
  else i * elemW t

/-- Bits of a register. -/
def bitsAt (v : VRegs) (r lo w : Nat) : Nat := (v.data[regOf r].extractLsb' lo w).toNat
/-- Replace bits of a register. -/
def setBits (x : BitVec 262144) (lo w v : Nat) : BitVec 262144 :=
  (x &&& ~~~(BitVec.ofNat 262144 (2 ^ w - 1) <<< lo)) ||| (BitVec.ofNat 262144 (v % 2 ^ w) <<< lo)
/-- Element i of a register, read as type t. -/
def elemAt (v : VRegs) (t lanes r i : Nat) : Nat := bitsAt v r (elemBit t lanes i) (codeW t)
/-- Replace element i of a register's bits. -/
def putElem (t lanes : Nat) (x : BitVec 262144) (i v : Nat) : BitVec 262144 :=
  setBits x (elemBit t lanes i) (elemW t) (v % 2 ^ codeW t)

/-- The 9-bit scale of a block: unit B of the side-store, slot B div L of lane B mod L (R101). -/
def scaleAt (v : VRegs) (r b : Nat) : Nat := (v.scale[regOf r].extractLsb' (9 * b) 9).toNat
/-- Replace a block's scale. -/
def setScale (x : BitVec 18432) (b c : Nat) : BitVec 18432 :=
  (x &&& ~~~(BitVec.ofNat 18432 511 <<< (9 * b))) ||| (BitVec.ofNat 18432 (c % 512) <<< (9 * b))

/-- Elements of a replicate segment (R37). -/
def segSize (sz : Nat) : Nat :=
  match sz with
  | 0 => 1
  | 1 => 8
  | 2 => 32
  | _ => 256

/-- The index a source field reads for element i (R37). -/
def srcIndex (f : Fin 512) (i : Nat) : Nat := if srcP f then i % segSize (srcSZ f) else i
/-- A source element (R37). -/
def srcElem (v : VRegs) (t lanes : Nat) (f : Fin 512) (i : Nat) : Nat := elemAt v t lanes (srcN f) (srcIndex f i)

/-- The mask register of vm (R39). -/
def maskReg (w : VWord) : Nat := w.vm.val % 8
/-- The MZ bit of vm (R39). -/
def maskZ (w : VWord) : Bool := 8 ≤ w.vm.val
/-- A bit of a mask: m0 reads as all ones (R127). -/
def maskBitOf (ms : Vector (BitVec 65536) 8) (n i : Nat) : Bool :=
  n % 8 = 0 || (ms[n % 8]'(Nat.mod_lt _ (by decide))).getLsbD i
/-- Replace mask n: a write to m0 is discarded (R127). -/
def setMask (ms : Vector (BitVec 65536) 8) (n : Nat) (x : BitVec 65536) : Vector (BitVec 65536) 8 :=
  if n % 8 = 0 then ms else ms.set (n % 8) x (Nat.mod_lt _ (by decide))
/-- Replace one bit of a mask's bits. -/
def putBit (x : BitVec 65536) (i : Nat) (b : Bool) : BitVec 65536 :=
  if b then x ||| (1#65536 <<< i) else x &&& ~~~(1#65536 <<< i)

/-- How a vector form rounds (R41, R91, R93): DYN takes `RMODE`, and SR draws its bits from seed + index. -/
def vmode (rm : Fin 8) (rmode : Nat) (seed : Word) (i : Nat) : RMode :=
  let m := if rm = 7 then rmode else rm.val
  { mode := m, bits := if m = 5 then srBits (seed + BitVec.ofNat 64 i) else 0 }

/-- The acting hart's mode for element i. -/
def modeAt (s : State) (w : VWord) (i : Nat) : RMode := vmode w.rm s.me.rmode.toNat s.me.vec.srseed i

/-- The lanes in force. -/
def lanesIn (s : State) : Nat := s.me.lanes.toNat
/-- Body length for a type (R128). -/
def evlOf (s : State) (t : Nat) : Nat := min s.me.vec.vlLen.toNat (cap t (lanesIn s))
/-- Body elements (R128). -/
def body (start evl : Nat) : List Nat := List.range' start (evl - start)

/-- The g register of X = 1 (R42). -/
def xReg (w : VWord) : Reg := regOf (srcN w.f2)
/-- The b operand of element i: vs2, or the g register's low bits (R42). -/
def bElem (s : State) (t : Nat) (w : VWord) (i : Nat) : Nat :=
  if w.x.val = 1 then (rd s (xReg w)).toNat % 2 ^ codeW t else srcElem s.me.vec.regs t (lanesIn s) w.f2 i

/-! ### Register poison (spec/18_ras.md R418, R419) -/

/-- A unit is poisoned. -/
def unitBad (a : Agent) : RegUnit → Bool
  | .v r g => (a.vec.pv[regOf r]).getLsbD g
  | .m n => n % 8 != 0 && a.vec.pm.getLsbD (n % 8)
  | .acc row lane => (a.vec.pacc[row % 64]'(Nat.mod_lt _ (by decide))).getLsbD lane
  | .g r => r % 32 != 0 && a.pg.getLsbD (r % 32)
/-- The trap of a poisoned unit (R419). -/
def unitTrap : RegUnit → Trap
  | .v r _ => poisonTrap 0 r
  | .m n => poisonTrap 1 n
  | .acc row _ => poisonTrap 2 (row / 8)
  | .g r => poisonTrap 3 r
/-- No unit of an agent is poisoned. -/
def cleanAgent (a : Agent) : Bool :=
  a.pg == 0#32 && a.vec.pm == 0#8 && a.vec.pv.all (· == 0#1024) && a.vec.pacc.all (· == 0#128)
/-- An instruction that reads these units: `POISON` for the first that is poisoned. -/
def withUnits (s : State) (us : List RegUnit) (k : Ans) : Ans :=
  if cleanAgent s.me then k
  else match us.find? (unitBad s.me) with
    | some u => .trap s (unitTrap u)
    | none => k
/-- The granules of a register that some elements of a type lie in. -/
def granules (t lanes r : Nat) (is : List Nat) : List RegUnit :=
  (is.map (fun i => RegUnit.v r (elemBit t lanes i / 256))).eraseDups
/-- The units that a source field reads for some elements. -/
def srcUnits (t lanes : Nat) (f : Fin 512) (is : List Nat) : List RegUnit :=
  granules t lanes (srcN f) (is.map (srcIndex f))
/-- The units whose scale store holds the scales of some blocks of a register: the granules of the block's lane (R418; the
reading is log 44). -/
def scaleUnits (lanes r : Nat) (bs : List Nat) : List RegUnit :=
  ((bs.map (· % lanes)).eraseDups).flatMap (fun l => (List.range 8).map (fun k => RegUnit.v r (k * lanes + l)))
/-- The units that the b operand reads. -/
def bUnits (t lanes : Nat) (w : VWord) (is : List Nat) : List RegUnit :=
  if w.x.val = 1 then [.g (srcN w.f2)] else srcUnits t lanes w.f2 is
/-- The active elements among some. -/
def activeOf (s : State) (w : VWord) (is : List Nat) : List Nat :=
  is.filter (maskBitOf s.me.vec.masks (maskReg w))
/-- Clear the poison of a register's units that an instruction has written in full (R419): the granule by its elements, and the
sixteen scales of the granule's lane, whose store the unit takes in (R418; log 44). -/
def clearV (v : VecState) (t lanes r : Nat) (written scales : List Nat) : VecState :=
  if v.pv[regOf r] = 0#1024 then v
  else
    let full := (List.range 1024).filter (fun g =>
      (List.range 16).all (fun k => scales.contains (k * lanes + g % lanes)) &&
      decide (256 / elemW t ≤ ((written.filter (fun i => elemBit t lanes i / 256 == g)).eraseDups).length))
    { v with pv := v.pv.set (regOf r) (full.foldl (fun x g => x &&& ~~~(1#1024 <<< g)) v.pv[regOf r]) }
/-- Clear a mask's poison when all its bits are written. -/
def clearM (v : VecState) (n written : Nat) : VecState :=
  if 65536 ≤ written then { v with pm := v.pm &&& ~~~(1#8 <<< (n % 8)) } else v

/-! ### The element loop (R128) -/

/-- Merge flags into `FFLAGS` and set `VSTART` (R97, R396). -/
def vfinish (s : State) (v : VecState) (fl : BitVec 5) : State :=
  { s with me := { s.me with vec := { v with vstart := 0#17 }, fflags := s.me.fflags ||| fl } }

/-- One element of the loop: active elements take f, masked-off ones are zeroed or kept. -/
def elemStep (s : State) (t : Nat) (w : VWord) (f : Nat → FRes) (acc : BitVec 262144 × BitVec 5) (i : Nat) :
    BitVec 262144 × BitVec 5 :=
  if maskBitOf s.me.vec.masks (maskReg w) i then (putElem t (lanesIn s) acc.1 i (f i).1, acc.2 ||| (f i).2)
  else if maskZ w then (putElem t (lanesIn s) acc.1 i 0, acc.2)
  else acc

/-- The destination and flags over some elements (R128). -/
def elementsOn (s : State) (t : Nat) (w : VWord) (is : List Nat) (f : Nat → FRes) : State :=
  let d := regOf w.vd.val
  let r := is.foldl (elemStep s t w f) (s.me.vec.regs.data[d], 0#5)
  let v := { s.me.vec with regs := { s.me.vec.regs with data := s.me.vec.regs.data.set d r.1 } }
  vfinish s v r.2

/-- The destination and flags of a form with one element type: the body elements (R128). -/
def elementwise (s : State) (t : Nat) (w : VWord) (f : Nat → FRes) : State :=
  elementsOn s t w (body s.me.vec.vstart.toNat (evlOf s t)) f

/-- Units of the mask that a form reads. -/
def maskUnits (w : VWord) : List RegUnit := if maskReg w = 0 then [] else [.m (maskReg w)]

/-- The block s9 scale's value as significand and exponent: (2 + m) * 2^(e - 128); none for NaN (R85). -/
def s9val (c : Nat) : Option (Nat × Int) := if c % 512 = 511 then none else some (2 + c % 2, (c % 512 / 2 : Nat) - 128)

/-- The element format of a block type (R84); mxi8 has no floating format. -/
def blkElem (t : Nat) : Nat :=
  match t with
  | 17 => 12
  | 18 => 13
  | 19 => 14
  | _ => 16
/-- The value of a block element's code (R84). -/
def blkVal (t code : Nat) : FVal :=
  if t = 21 then .fin (decide (sx 8 code < 0)) (sx 8 code).natAbs (-6) else unpack (fmtOf (blkElem t)) code
/-- The width of a unit that a queue carries (spec/13_chains.md R282, R291). -/
def unitW (t : Nat) : Nat := if blkTy t then 32 * elemW t + 16 else elemW t

end Machine
end Sys2Proof
end

