-- ==== Sys2Proof/Machine/VecElem.lean ====
section
/-! DEFINITION. What one element, pair, block or stream of majors 0x01-0x07 computes: shared by the inline forms and by the nodes
of a chain (spec/06_vector_arith.md R132-R152). -/

namespace Sys2Proof
namespace Machine

/-! ### Integer and floating-point elements (R132, R133) -/

/-- An integer element of major 0x01: width w, signedness, the selector bit, and the operands. -/
def intElem (op : VOp) (sg : Bool) (w : Nat) (sel : Bool) (a b c : Nat) : Nat :=
  let va := valOf sg w a
  let vb := valOf sg w b
  match op with
  | .vadd => (a + b) % 2 ^ w
  | .vsub => wrapI w ((a : Int) - b)
  | .vrsub => wrapI w ((b : Int) - a)
  | .vmul => a * b % 2 ^ w
  | .vmulh => mulHigh sg sg w a b
  | .vdiv => divI sg w a b
  | .vrem => remI sg w a b
  | .vand => Nat.land a b
  | .vor => Nat.lor a b
  | .vxor => Nat.xor a b
  | .vsll => a * 2 ^ (b % w) % 2 ^ w
  | .vsrl => a / 2 ^ (b % w)
  | .vsra => wrapI w (sx w a / ((2 ^ (b % w) : Nat) : Int))
  | .vmin => if vb < va then b else a
  | .vmax => if va < vb then b else a
  | .vsadd => wrapI w (clampI sg w (va + vb))
  | .vssub => wrapI w (clampI sg w (va - vb))
  | .vabs => wrapI w (if va < 0 then -va else va)
  | .vneg => wrapI w (-va)
  | .vnot => 2 ^ w - 1 - a % 2 ^ w
  | .vsel => if sel then a else b
  | .vclz => clzN w a
  | .vpopc => popN w a
  | .vmacc => (a * b + c) % 2 ^ w
  | _ => a

/-- A floating-point element of major 0x02. -/
def fltElem (op : VOp) (F : Fmt) (r : RMode) (a b c : Nat) : FRes :=
  let va := unpack F a
  let vb := unpack F b
  let vc := unpack F c
  match op with
  | .vfadd => addV F r va vb
  | .vfsub => addV F r va vb.neg
  | .vfmul => mulV F r va vb
  | .vfdiv => divV F r va vb
  | .vfsqrt => sqrtV F r va
  | .vfmin => minmax F false a b
  | .vfmax => minmax F true a b
  | .vfabs => (withSign F a false, 0#5)
  | .vfneg => (withSign F a (!signBit F a), 0#5)
  | .vfsgnj => (withSign F a (signBit F b), 0#5)
  | .vfsgnjn => (withSign F a (!signBit F b), 0#5)
  | .vfsgnjx => (withSign F a (signBit F a != signBit F b), 0#5)
  | .vfclass => (classCode F a, 0#5)
  | .vfma => fmaV F r false va vb vc
  | .vfms => fmaV F r false va vb vc.neg
  | .vfnma => fmaV F r true va vb vc.neg
  | .vfnms => fmaV F r true va vb vc
  | _ => (a, 0#5)

/-! ### Special functions (R141-R148) -/

/-- T[j] := round_rne(2^(30 + j/32)) (R142). -/
def tblT : List Nat :=
  [1073741824, 1097253708, 1121280436, 1145833280, 1170923762, 1196563654, 1222764986, 1249540052, 1276901417,
   1304861917, 1333434672, 1362633090, 1392470869, 1422962010, 1454120821, 1485961921, 1518500250, 1551751076,
   1585730000, 1620452965, 1655936265, 1692196547, 1729250827, 1767116489, 1805811301, 1845353420, 1885761398,
   1927054196, 1969251188, 2012372174, 2056437387, 2101467502]
/-- G[k], k = 96-192: round_rne(2^60 * log2(k/128)) (R142). -/
def tblG : List Int :=
  [-478505658136827782, -461269087959493788, -444209306232900762, -427322723250383692, -410605857541339777,
   -394055331563144081, -377667867605296670, -361440283893377188, -345369490881223193, -329452487720524563,
   -313686358897743389, -298068271028932091, -282595469803636370, -267265277069638240, -252075088050821505,
   -237022368690930952, -222104653116450381, -207319541212246168, -192664696304014914, -178137842941938196,
   -163736764780286682, -149459302548031781, -135303352105817446, -121266862584919269, -107347834604074182,
   -93544318560303233, -79854412990073297, -66276262997352432, -52808058745308843, -39448034008586177,
   -26194464783258969, -13045667951732303, 0, 12944144215183523, 25788332651530406, 38534097221034135,
   51182934886444090, 63736308716362488, 76195648900823467, 88562353729117230, 100837790531531112,
   113023296586593707, 125120179995327398, 137129720523938594, 149053170416303219, 160891755177537388,
   172646674329879364, 184319102142048678] ++
  [195910188333191412, 207421058752466917, 218852816035280480, 230206540237118432, 241483289445896830,
   252684100373691848, 263809988928679417, 274861950768073113, 285840961832812868, 296747978864722524,
   307583939906821491, 318349764787444757, 329046355588796001, 339674597100530652, 350235357258939190,
   360729487572275805, 371157823532753600, 381521185015704799, 391820376666382824, 402056188274862521,
   412229395139475350, 422340758419197689, 432391025475392781, 442380930203289961, 452311193353568813,
   462182522844400589, 471995614064284711, 481751150166004280, 491449802352011305, 501092230151539755,
   510679081689732512, 520210993949056818, 529688593023271872, 539112494364201748, 548483303021556867,
   557801613876037663, 567068011865945012, 576283072207513262, 585447360609173402, 594561433479945897,
   603625838132155180, 612641112978650430, 621607787724710351, 630526383554802983, 639397413314365170,
   648221381686760225, 656998785365566468, 665730113222343683] ++
  [674415846470019194]
/-- RC[j] := round_rne(2^38 / (2j + 257)) (R142). -/
def tblRC : List Nat :=
  [1069563840, 1061304660, 1053172057, 1045163144, 1037275121, 1029505269, 1021850955, 1014309620, 1006878780,
   999556025, 992339014, 985225473, 978213192, 971300025, 964483884, 957762742, 951134626, 944597618, 938149853,
   931789515, 925514838, 919324103, 913215638, 907187812, 901239039, 895367775, 889572514, 883851791, 878204176,
   872628276, 867122735, 861686229, 856317467, 851015192, 845778175, 840605220, 835495158, 830446849, 825459180,
   820531066, 815661445, 810849283, 806093569, 801393315, 796747556, 792155351, 787615779, 783127940] ++
  [778690955, 774303963, 769966126, 765676621, 761434645, 757239413, 753090156, 748986122, 744926577, 740910800,
   736938088, 733007752, 729119117, 725271522, 721464323, 717696885, 713968589, 710278829, 706627010, 703012550,
   699434878, 695893435, 692387675, 688917060, 685481065, 682079174, 678710881, 675375693, 672073122, 668802693,
   665563939, 662356402, 659179633, 656033191, 652916644, 649829567, 646771546, 643742171, 640741042, 637767766,
   634821956, 631903234, 629011229, 626145574, 623305911, 620491889, 617703162, 614939389] ++
  [612200238, 609485381, 606794497, 604127268, 601483385, 598862542, 596264440, 593688784, 591135284, 588603655,
   586093618, 583604898, 581137224, 578690330, 576263956, 573857843, 571471740, 569105397, 566758571, 564431020,
   562122509, 559832804, 557561677, 555308903, 553074259, 550857529, 548658497, 546476952, 544312687, 542165497,
   540035181, 537921540]
/-- SQ[j] := round_rne(2^30 / sqrt(1 + (2j + 1)/64)) (R142). -/
def tblSQ : List Nat :=
  [1065450257, 1049427536, 1034106604, 1019437682, 1005375799, 991880210, 978913898, 966443148, 954437177,
   942867814, 931709222, 920937655, 910531246, 900469818, 890734723, 881308694, 872175715, 863320910, 854730438,
   846391405, 838291779, 830420321, 822766514, 815320510, 808073073, 801015531, 794139734, 787438013, 780903145,
   774528319, 768307107, 762233438, 756301570, 750506070, 744841792, 739303858, 733887640, 728588743, 723402992,
   718326417, 713355240, 708485864, 703714861, 699038963, 694455052, 689960150, 685551414, 681226125] ++
  [676981684, 672815603, 668725501, 664709095, 660764199, 656888716, 653080633, 649338020, 645659022, 642041856,
   638484810, 634986237, 631544551, 628158229, 624825801, 621545853, 618317022, 615137993, 612007499, 608924318,
   605887270, 602895216, 599947056, 597041726, 594178200, 591355485, 588572620, 585828677, 583122756, 580453988,
   577821530, 575224566, 572662306, 570133983, 567638856, 565176202, 562745326, 560345548, 557976212, 555636678,
   553326329, 551044561, 548790791, 546564450, 544364986, 542191864, 540044561, 537922570]
/-- round_rne(2^30 * ln 2) (R142). -/
def cC1 : Nat := 744261118
/-- round_rne(2^30 * (ln 2)^2 / 2) (R142). -/
def cC2 : Nat := 257941248
/-- round_rne(2^30 * (ln 2)^3 / 6) (R142). -/
def cC3 : Nat := 59597083
/-- K1 := round_rne(2^60 / (1 ln 2)) (R142). -/
def cK1 : Int := 1663314137230540311
/-- K2 := round_rne(2^60 / (2 ln 2)) (R142). -/
def cK2 : Int := 831657068615270156
/-- K3 := round_rne(2^60 / (3 ln 2)) (R142). -/
def cK3 : Int := 554438045743513437
/-- K4 := round_rne(2^60 / (4 ln 2)) (R142). -/
def cK4 : Int := 415828534307635078
/-- D1 (R142). -/
def cD1 : Int := 384307168202282325
/-- D2 (R142). -/
def cD2 : Int := 153722867280912930
/-- D3 (R142). -/
def cD3 : Int := 62221160566083805
/-- L2E := round_rne(2^32 * log2 e) (R142). -/
def cL2E : Nat := 6196328019

/-- mul(a, b) := floor(a * b / 2^60) (R142). -/
def mulQ (a b : Int) : Int := a * b / ((2 ^ 60 : Nat) : Int)
/-- decomp(x) of |x| = m * 2^e: e and s with |x| = s * 2^(e - 23), 2^23 <= s < 2^24 (R142). -/
def decomp (m : Nat) (e : Int) : Int × Nat := (e + m.log2, m * 2 ^ (23 - m.log2))
/-- round_rne of m * 2^e to an integer. -/
def rneNat (m : Nat) (e : Int) : Nat :=
  let v := m * 2 ^ e.toNat
  let den := 2 ^ (-e).toNat
  if roundsUp rne false (v / den) (v % den) den false then v / den + 1 else v / den
/-- Round the rational num / den with a sign (R89). -/
def roundRat (F : Fmt) (r : RMode) (s : Bool) (num den : Nat) (e : Int) : FRes :=
  let k := den.log2 + 128
  roundTo F r s (num * 2 ^ k / den) (e - (k : Int)) (num * 2 ^ k % den != 0)

/-- exp2core(X): n and v with 2^(X / 2^24) near v * 2^(n - 60) (R142). -/
def exp2core (x : Int) : Int × Nat :=
  let n := x / ((2 ^ 24 : Nat) : Int)
  let f := (x - n * ((2 ^ 24 : Nat) : Int)).toNat
  let j := f / 2 ^ 19
  let u := (f - j * 2 ^ 19) * 2 ^ 6
  let p := cC2 + cC3 * u / 2 ^ 30
  let p := cC1 + p * u / 2 ^ 30
  let p := 2 ^ 30 + p * u / 2 ^ 30
  (n, tblT.getD j 0 * p)

/-- 2^x of a finite value (R143). -/
def exp2Fin (F : Fmt) (r : RMode) (s : Bool) (m : Nat) (e : Int) : FRes :=
  let x : Int := ((rneNat m (e + 24) : Nat) : Int)
  let x := if s then max (-x) (-160 * ((2 ^ 24 : Nat) : Int)) else min x (128 * ((2 ^ 24 : Nat) : Int))
  let (n, v) := exp2core x
  roundTo F r false v (n - 60) false

/-- log2 x of a positive value (R144). -/
def log2Fin (F : Fmt) (r : RMode) (m : Nat) (e : Int) : FRes :=
  let (e, s) := decomp m e
  let (mm, e) := if 3 * 2 ^ 23 ≤ 2 * s then (s, e + 1) else (2 * s, e)
  let k := rneNat mm (-17)
  let b : Nat := k * 2 ^ 17
  let w : Int := ((mm : Int) - (b : Int)) * ((2 ^ 60 : Nat) : Int) / (b : Int)
  let p := cK3 - mulQ w cK4
  let p := cK2 - mulQ w p
  let p := cK1 - mulQ w p
  let p := mulQ w p
  let v := e * ((2 ^ 60 : Nat) : Int) + (tblG.getD (k - 96) 0 + p)
  roundTo F r (decide (v < 0)) v.natAbs (-60) false

/-- 1/x of a finite non-zero value (R145). -/
def rcpFin (F : Fmt) (r : RMode) (sg : Bool) (m : Nat) (e : Int) : FRes :=
  let (e, s) := decomp m e
  if s = 2 ^ 23 then roundTo F r sg 1 (-e) false
  else
    let y := tblRC.getD (s / 2 ^ 16 - 128) 0
    let one : Int := ((2 ^ 60 : Nat) : Int)
    let t : Int := one - ((s * 2 ^ 7 * y : Nat) : Int)
    let q := one + mulQ t (one + mulQ t (one + t))
    roundTo F r sg (y * q.toNat) (-e - 90) false

/-- A1-A4 (R142). -/
def cA1 : Int := 2 ^ 59
def cA2 : Int := 3 * 2 ^ 57
def cA3 : Int := 5 * 2 ^ 56
def cA4 : Int := 35 * 2 ^ 53

/-- 1/sqrt(x) of a positive value (R146). -/
def rsqrtFin (F : Fmt) (r : RMode) (m : Nat) (e : Int) : FRes :=
  let (e, s) := decomp m e
  let (s, e) := if e % 2 = 1 then (2 * s, e - 1) else (s, e)
  if s = 2 ^ 23 then roundTo F r false 1 (-(e / 2)) false
  else
    let y := tblSQ.getD (s / 2 ^ 18 - 32) 0
    let one : Int := ((2 ^ 60 : Nat) : Int)
    let t : Int := (((2 ^ 90 : Nat) : Int) - ((s * 2 ^ 7 * y * y : Nat) : Int)) / ((2 ^ 30 : Nat) : Int)
    let q := one + mulQ t (cA1 + mulQ t (cA2 + mulQ t (cA3 + mulQ t cA4)))
    roundTo F r false (y * q.toNat) (-(e / 2) - 90) false

/-- The smaller of |m * 2^e| and a whole number, as a value. -/
def capAt (m : Nat) (e : Int) (c : Nat) : Nat × Int :=
  if ltV (.fin false c 0) (.fin false m e) then (c, 0) else (m, e)

/-- 1/(1 + e^-x) of a finite value (R147). -/
def sigmFin (F : Fmt) (r : RMode) (sg : Bool) (m : Nat) (e : Int) : FRes :=
  let (m, e) := capAt m e 128
  let y : Nat := rneNat m (e + 24) * cL2E / 2 ^ 32
  let (n, v) := exp2core (-(y : Int))
  let h := 2 ^ (60 - n).toNat
  roundRat F r false (if sg && m != 0 then v else h) (h + v) 0

/-- tanh x of a finite value (R148). -/
def tanhFin (F : Fmt) (r : RMode) (sg : Bool) (m : Nat) (e : Int) : FRes :=
  if ltV (.fin false m e) (.fin false 1 (-4)) then
    let k := 2 * e + 60
    let z : Int := ((m * m * 2 ^ k.toNat / 2 ^ (-k).toNat : Nat) : Int)
    let p := ((2 ^ 60 : Nat) : Int) - mulQ z (cD1 - mulQ z (cD2 - mulQ z cD3))
    roundTo F r sg (m * p.toNat) (e - 60) false
  else
    let (m, e) := capAt m e 64
    let y : Nat := rneNat m (e + 24) * cL2E / 2 ^ 31
    let (n, v) := exp2core (-(y : Int))
    let h := 2 ^ (60 - n).toNat
    roundRat F r sg (h - v) (h + v) 0

/-- An element of major 0x06, with the special operands of R141. -/
def specElem (op : VOp) (F : Fmt) (r : RMode) (a : Nat) : FRes :=
  match op, unpack F a with
  | _, .nan q => nanRes F q
  | .vexp2, .inf s => (if s then 0 else F.infCode, 0#5)
  | .vexp2, .fin s m e => exp2Fin F r s m e
  | .vlog2, .inf s => if s then (F.nan, fNV) else (F.infCode, 0#5)
  | .vlog2, .fin s m e =>
    if m = 0 then (F.sign true F.infCode, fDZ) else if s then (F.nan, fNV) else log2Fin F r m e
  | .vrcp, .inf s => (F.sign s 0, 0#5)
  | .vrcp, .fin s m e => if m = 0 then (F.sign s F.infCode, fDZ) else rcpFin F r s m e
  | .vrsqrt, .inf s => if s then (F.nan, fNV) else (0, 0#5)
  | .vrsqrt, .fin s m e =>
    if m = 0 then (F.sign s F.infCode, fDZ) else if s then (F.nan, fNV) else rsqrtFin F r m e
  | .vtanh, .inf s => roundTo F r s 1 0 false
  | .vtanh, .fin s m e => tanhFin F r s m e
  | _, .inf s => if s then (0, 0#5) else roundTo F r false 1 0 false
  | _, .fin s m e => sigmFin F r s m e

/-- An element of majors 0x01, 0x02 and 0x06, of one type. -/
def elemOf (op : VOp) (t : Nat) (r : RMode) (sel : Bool) (a b c : Nat) : FRes :=
  match op with
  | .vexp2 | .vlog2 | .vrcp | .vrsqrt | .vtanh | .vsigm => specElem op (fmtOf t) r a
  | _ => if fltTy t && op != .vmv && op != .vsel then fltElem op (fmtOf t) r a b c
         else (intElem op (signedTy t) (elemW t) sel a b c, 0#5)

/-! ### Compares and mask forms (R134, R135) -/

/-- The number of a relation, as `compareV` numbers it. -/
def cmpCode : VOp → Nat
  | .vceq => 0
  | .vcne => 1
  | .vclt => 2
  | .vcle => 3
  | .vcgt => 4
  | .vcge => 5
  | _ => 6

/-- A compare of two elements. -/
def cmpElem (op : VOp) (t a b : Nat) : Bool × BitVec 5 :=
  if fltTy t then compareV (cmpCode op) (unpack (fmtOf t) a) (unpack (fmtOf t) b)
  else
    let x := valOf (signedTy t) (elemW t) a
    let y := valOf (signedTy t) (elemW t) b
    (match op with
     | .vceq => x == y
     | .vcne => x != y
     | .vclt => decide (x < y)
     | .vcle => decide (x ≤ y)
     | .vcgt => decide (y < x)
     | .vcge => decide (y ≤ x)
     | _ => false, 0#5)

/-- A bit of a mask form. -/
def maskElem (op : VOp) (a b : Bool) : Bool :=
  match op with
  | .mand => a && b
  | .mor => a || b
  | .mxor => a != b
  | .mandn => a && !b
  | .mnot => !a
  | .mmv => a
  | .mset => true
  | _ => false

/-! ### Conversions and packing (R136-R139) -/

/-- The wide type of a conversion is the destination's: it has the smaller capacity, or they are equal (R136). -/
def dstWide (dst src : Nat) : Bool := decide (elemW src ≤ elemW dst)

/-- `vcvt` of one element (R137). -/
def cvtElem (dst src : Nat) (r : RMode) (a : Nat) : FRes :=
  let sg := signedTy src
  if intTy src then
    let v := valOf sg (elemW src) a
    if intTy dst then (wrapI (elemW dst) (clampI (signedTy dst) (elemW dst) v), 0#5) else ofInt (fmtOf dst) r v
  else
    let v := unpack (fmtOf src) (a % 2 ^ (fmtOf src).width)
    if intTy dst then toInt (signedTy dst) (elemW dst) r v else toFmt (fmtOf dst) r v

/-- maxfin of a block type (R138). -/
def maxfin (bt : Nat) : FVal :=
  match bt with
  | 17 => .fin false 448 0
  | 18 => .fin false 57344 0
  | 19 => .fin false 28 0
  | 20 => .fin false 6 0
  | _ => .fin false 127 (-6)

/-- The magnitude of a finite value; zero of another. -/
def FVal.mag : FVal → FVal
  | .fin _ m e => .fin false m e
  | _ => .fin false 0 0
/-- The greatest magnitude of some values. -/
def amaxOf (xs : List FVal) : FVal := xs.foldl (fun m x => if ltV m x.mag then x.mag else m) (.fin false 0 0)
/-- val(c) * maxfin. -/
def scaledMax (bt c : Nat) : FVal :=
  match maxfin bt with
  | .fin _ m e => .fin false (m * (2 + c % 2)) (e + (c / 2 : Nat) - 128)
  | x => x

/-- x / val(c) rounded to a block element (R138). -/
def packElem (bt c : Nat) (r : RMode) (x : FVal) : FRes :=
  match x with
  | .fin s m e =>
    let e := e + 128 - (c / 2 : Nat)
    if bt = 21 then
      let num := m * 2 ^ (e + 6).toNat
      let den := (2 + c % 2) * 2 ^ (-(e + 6)).toNat
      let y := if roundsUp r s (num / den) (num % den) den false then num / den + 1 else num / den
      (wrapI 8 (if s then -(y : Int) else y), flagIf (num % den != 0) fNX)
    else roundRat (fmtOf (blkElem bt)) r s m (2 + c % 2) e
  | _ => (0, 0#5)

/-- The block of R138: its scale code, whether it is a NaN block, and NV for it. -/
def packScale (bt : Nat) (xs : List FVal) : Nat × BitVec 5 :=
  if xs.any (fun x => match x with
      | .fin _ _ _ => false
      | _ => true) then (0x1FF, fNV)
  else
    let m := amaxOf xs
    if !ltV (.fin false 0 0) m then (0x0FE, 0#5)
    else (((List.range 511).find? (fun c => !ltV (scaledMax bt c) m)).getD 0x1FE, 0#5)

/-- `vunpack` of one element (R139). -/
def unpackElem (dst bt : Nat) (r : RMode) (code scale : Nat) : FRes :=
  let F := fmtOf dst
  match s9val scale, blkVal bt code with
  | some (m, e), .fin s n d => roundTo F r s (m * n) (e + d) false
  | some _, .inf s => (F.sign s F.infCode, 0#5)
  | _, _ => (F.nan, 0#5)

/-! ### Reductions (R99, R149-R151) -/

/-- One combination of a reduction. -/
def redElem (op : VOp) (t : Nat) (r : RMode) (a b : Nat) : FRes :=
  let w := elemW t
  let F := fmtOf t
  match op with
  | .vredmin => if fltTy t then minmax F false a b else (intElem .vmin (signedTy t) w false a b 0, 0#5)
  | .vredmax => if fltTy t then minmax F true a b else (intElem .vmax (signedTy t) w false a b 0, 0#5)
  | .vredand => (Nat.land a b, 0#5)
  | .vredor => (Nat.lor a b, 0#5)
  | .vredxor => (Nat.xor a b, 0#5)
  | _ => if fltTy t then addV F r (unpack F a) (unpack F b) else ((a + b) % 2 ^ w, 0#5)

/-- Fold elements, each with its index, into a running value, rounding with the mode of the index (R99, R151). -/
def foldRed (f : RMode → Nat → Nat → FRes) (md : Nat → RMode) (s : FRes) (xs : List (Nat × Nat)) : FRes :=
  xs.foldl (fun (s : FRes) x => let y := f (md x.1) s.1 x.2; (y.1, s.2 ||| y.2)) s

/-- A position of a tree: its lowest index and value, or nothing. -/
abbrev TreePos := Option (Nat × Nat)

/-- One level of the tree of R99. -/
def treeLevel (f : RMode → Nat → Nat → FRes) (md : Nat → RMode) : List TreePos → List TreePos × BitVec 5
  | a :: b :: l =>
    let (rest, fl) := treeLevel f md l
    match a, b with
    | some (i, x), some (j, y) =>
      let z := f (md j) x y
      (some (i, z.1) :: rest, fl ||| z.2)
    | some p, none => (some p :: rest, fl)
    | none, q => (q :: rest, fl)
  | l => (l, 0#5)

/-- The whole tree, `fuel` levels. -/
def treeAll (f : RMode → Nat → Nat → FRes) (md : Nat → RMode) : Nat → List TreePos × BitVec 5 → TreePos × BitVec 5
  | 0, p => (p.1.head?.join, p.2)
  | n + 1, p => let q := treeLevel f md p.1; treeAll f md n (q.1, p.2 ||| q.2)

/-- A tree reduction of positions, then the combination with s, which rounds with the mode of `first` (R99, R151). -/
def treeRed (f : RMode → Nat → Nat → FRes) (md : Nat → RMode) (first : Nat) (s : Nat) (xs : List TreePos) : FRes :=
  match treeAll f md 17 (xs, 0#5) with
  | (none, fl) => (s, fl)
  | (some (_, v), fl) => let y := f (md first) s v; (y.1, fl ||| y.2)

end Machine
end Sys2Proof
end

