-- ==== Sys2Proof/Machine/VecArith.lean ====
section
/-! DEFINITION. The inline forms of majors 0x01-0x07 (spec/06_vector_arith.md R127-R151), each from `VSTART` to its end; where a
pre-emption or interrupt stops one part-way is in Machine/Partway.lean (R130). -/

namespace Sys2Proof
namespace Machine

/-- The units of the sources of a form with one element type, for its active elements. -/
def sources (op : VOp) (w : VWord) (s : State) (act : List Nat) : List RegUnit :=
  maskUnits w ++ (vsrcFields w op).flatMap (fun f => srcUnits w.vt.val (lanesIn s) f act) ++
  (if w.x.val = 1 then [RegUnit.g (srcN w.f2)] else [])

/-- A form of major 0x01, 0x02 or 0x06 (R128, R132, R133, R141). -/
def vaAns (op : VOp) (w : VWord) (s : State) : Ans :=
  let t := w.vt.val
  let v := s.me.vec.regs
  let L := lanesIn s
  withUnits s (sources op w s (activeOf s w (body s.me.vec.vstart.toNat (evlOf s t))))
    (.done (elementwise s t w (fun i =>
      elemOf op t (modeAt s w i) false (srcElem v t L w.f1 i) (bElem s t w i) (srcElem v t L w.f3 i))))

/-- `vaAns` as an instruction. -/
def vaInline (op : VOp) (w : VWord) (s : State) : Host.Outcome State Fault Refusal :=
  node op w s (vaAns op w)

/-- `vsel`: vm selects and does not mask (R132). -/
def selAns (w : VWord) (s : State) : Ans :=
  let t := w.vt.val
  withUnits s (sources .vsel w s (body s.me.vec.vstart.toNat (evlOf s t)))
    (.done (elementwise s t { w with vm := 0 } (fun i =>
      elemOf .vsel t rne (maskBitOf s.me.vec.masks (maskReg w) i)
        (srcElem s.me.vec.regs t (lanesIn s) w.f1 i) (bElem s t w i) 0)))

/-- `selAns` as an instruction. -/
def selInline (w : VWord) (s : State) : Host.Outcome State Fault Refusal :=
  node .vsel w s (selAns w)

/-- Write bits of a mask over some elements; a write to m0 is discarded (R127). -/
def maskDone (s : State) (d : Nat) (is : List Nat) (f : Nat → Option Bool) (fl : BitVec 5) : State :=
  let v := s.me.vec
  let x := is.foldl (fun x i => match f i with
    | some b => putBit x i b
    | none => x) (v.masks[d % 8]'(Nat.mod_lt _ (by decide)))
  vfinish s (clearM { v with masks := setMask v.masks d x } d (is.filter (fun i => (f i).isSome)).length) fl

/-- A compare (R134). -/
def cmpAns (op : VOp) (w : VWord) (s : State) : Ans :=
  let t := w.vt.val
  let is := body s.me.vec.vstart.toNat (evlOf s t)
  let act := activeOf s w is
  let r (i : Nat) := cmpElem op t (srcElem s.me.vec.regs t (lanesIn s) w.f1 i) (bElem s t w i)
  withUnits s (sources op w s act)
    (.done (maskDone s w.vd.val is
      (fun i => if maskBitOf s.me.vec.masks (maskReg w) i then some (r i).1 else if maskZ w then some false else none)
      (act.foldl (fun fl i => fl ||| (r i).2) 0#5)))

/-- `cmpAns` as an instruction. -/
def cmpInline (op : VOp) (w : VWord) (s : State) : Host.Outcome State Fault Refusal :=
  node op w s (cmpAns op w)

/-- The masks that a mask form reads. -/
def mopUnits (op : VOp) (w : VWord) : List RegUnit :=
  match op with
  | .mand | .mor | .mxor | .mandn => [.m (srcN w.f1), .m (srcN w.f2)]
  | .mnot | .mmv => [.m (srcN w.f1)]
  | _ => []

/-- A mask form (R135): a = m(vs1[5:3]), b = m(vs2[5:3]), from `VSTART` to `VL.LEN` - 1. -/
def mopAns (op : VOp) (w : VWord) (s : State) : Ans :=
  let ms := s.me.vec.masks
  withUnits s (mopUnits op w)
    (.done (maskDone s w.vd.val (body s.me.vec.vstart.toNat s.me.vec.vlLen.toNat)
      (fun i => some (maskElem op (maskBitOf ms (srcN w.f1) i) (maskBitOf ms (srcN w.f2) i))) 0#5))

/-- `mopAns` as an instruction. -/
def mopInline (op : VOp) (w : VWord) (s : State) : Host.Outcome State Fault Refusal :=
  node op w s (mopAns op w)

/-- The pairs of a conversion (R136): narrow index and wide index, for `lim` narrow elements. -/
def pairs (dst src : Nat) (w : VWord) (s : State) (lim : Nat) : List (Nat × Nat) :=
  let wide := if dstWide dst src then dst else src
  let narrow := if dstWide dst src then src else dst
  let c := cap wide (lanesIn s)
  let part := w.f3.val / 8 % 16
  ((List.range c).map (fun i => (part * c + i, i))).filter (fun p => p.1 < lim && p.1 < cap narrow (lanesIn s))

/-- Where `VSTART` begins in a form with a block type: a whole block (R130). -/
def blockStart (s : State) : Nat := s.me.vec.vstart.toNat / 32 * 32

/-- The body pairs of a conversion, as narrow, source and destination indices. -/
def cvtPairs (dst src : Nat) (w : VWord) (s : State) (start lim : Nat) : List (Nat × Nat × Nat) :=
  ((pairs dst src w s lim).filter (fun p => start ≤ p.1)).map
    (fun p => if dstWide dst src then (p.1, p.1, p.2) else (p.1, p.2, p.1))

/-- Write the destination elements of a conversion: f of the narrow and source indices. -/
def cvtDone (dst : Nat) (w : VWord) (s : State) (ps : List (Nat × Nat × Nat)) (f : Nat → Nat → FRes) : State :=
  let d := regOf w.vd.val
  let v := s.me.vec
  let act (n : Nat) := maskBitOf v.masks (maskReg w) n
  let r := ps.foldl (fun (a : BitVec 262144 × BitVec 5) p =>
    if act p.1 then
      let y := f p.1 p.2.1
      (putElem dst (lanesIn s) a.1 p.2.2 y.1, a.2 ||| y.2)
    else if maskZ w then (putElem dst (lanesIn s) a.1 p.2.2 0, a.2) else a) (v.regs.data[d], 0#5)
  let v' := { v with regs := { v.regs with data := v.regs.data.set d r.1 } }
  vfinish s v' r.2

/-- `vcvt` (R137). -/
def cvtAns (w : VWord) (s : State) : Ans :=
  let dst := w.vt.val
  let src := w.f2.val
  let ps := cvtPairs dst src w s s.me.vec.vstart.toNat s.me.vec.vlLen.toNat
  let act := ps.filter (fun p => maskBitOf s.me.vec.masks (maskReg w) p.1)
  withUnits s (maskUnits w ++ srcUnits src (lanesIn s) w.f1 (act.map (fun p => p.2.1)))
    (.done (cvtDone dst w s ps (fun n i =>
      cvtElem dst src (modeAt s w n) (srcElem s.me.vec.regs src (lanesIn s) w.f1 i))))

/-- `cvtAns` as an instruction. -/
def cvtInline (w : VWord) (s : State) : Host.Outcome State Fault Refusal :=
  node .vcvt w s (cvtAns w)

/-- The block that a source field reads for block j (R37). -/
def blockIndex (f : Fin 512) (j : Nat) : Nat := srcIndex f (32 * j) / 32

/-- `vunpack` (R139); elements past the last whole block of `VL` are tail (R88). -/
def unpackAns (w : VWord) (s : State) : Ans :=
  let dst := w.vt.val
  let bt := w.f2.val
  let ps := cvtPairs dst bt w s (blockStart s) (s.me.vec.vlLen.toNat / 32 * 32)
  let act := ps.filter (fun p => maskBitOf s.me.vec.masks (maskReg w) p.1)
  withUnits s (maskUnits w ++ srcUnits bt (lanesIn s) w.f1 (act.map (fun p => p.2.1)) ++
      scaleUnits (lanesIn s) (srcN w.f1) (act.map (fun p => blockIndex w.f1 (p.2.1 / 32))))
    (.done (cvtDone dst w s ps (fun n i =>
      unpackElem dst bt (modeAt s w n) (srcElem s.me.vec.regs bt (lanesIn s) w.f1 i)
        (scaleAt s.me.vec.regs (srcN w.f1) (blockIndex w.f1 (i / 32))))))

/-- `unpackAns` as an instruction. -/
def unpackInline (w : VWord) (s : State) : Host.Outcome State Fault Refusal :=
  node .vunpack w s (unpackAns w)

/-- One block of `vpack`: narrow index n holds source index src(n). -/
def packBlock (bt src : Nat) (w : VWord) (s : State) (acc : VRegs × BitVec 5) (b : Nat × List (Nat × Nat)) :
    VRegs × BitVec 5 :=
  let d := regOf w.vd.val
  let xs := b.2.map (fun p => unpack (fmtOf src) (srcElem s.me.vec.regs src (lanesIn s) w.f1 p.2))
  let (code, fl) := packScale bt xs
  let r := (b.2.zip xs).foldl (fun (a : BitVec 262144 × BitVec 5) p =>
    if maskBitOf s.me.vec.masks (maskReg w) p.1.1 then
      let y := if code = 0x1FF then (0, 0#5) else packElem bt code (modeAt s w p.1.1) p.2
      (putElem bt (lanesIn s) a.1 p.1.1 y.1, a.2 ||| y.2)
    else if maskZ w then (putElem bt (lanesIn s) a.1 p.1.1 0, a.2) else a) (acc.1.data[d], acc.2 ||| fl)
  ({ data := acc.1.data.set d r.1, scale := acc.1.scale.set d (setScale acc.1.scale[d] b.1 code) }, r.2)

/-- `vpack` (R138). -/
def packAns (w : VWord) (s : State) : Ans :=
  let bt := w.vt.val
  let src := w.f2.val
  let ps := cvtPairs bt src w s (blockStart s) s.me.vec.vlLen.toNat
  let blocks := ((List.range (ps.length / 32)).map (fun k => (ps.drop (32 * k)).take 32)).map
    (fun l => ((l.headD (0, 0, 0)).1 / 32, l.map (fun p => (p.1, p.2.1))))
  let is := blocks.flatMap (fun b => b.2)
  let act (n : Nat) := maskBitOf s.me.vec.masks (maskReg w) n
  withUnits s (maskUnits w ++ srcUnits src (lanesIn s) w.f1 (is.map (fun p => p.2)))
    (let r := blocks.foldl (packBlock bt src w s) (s.me.vec.regs, 0#5)
     .done (vfinish s (clearV { s.me.vec with regs := r.1 } bt (lanesIn s) w.vd.val
       ((is.map (fun p => p.1)).filter (fun n => maskZ w || act n)) (blocks.map (fun b => b.1))) r.2))

/-- `packAns` as an instruction. -/
def packInline (w : VWord) (s : State) : Host.Outcome State Fault Refusal :=
  node .vpack w s (packAns w)

/-- The blocks that `vsget` and `vsput` count (R140). -/
def scaleBlocks (w : VWord) (s : State) : List Nat :=
  body s.me.vec.vstart.toNat (min s.me.vec.vlLen.toNat (cap w.vt.val (lanesIn s)) / 32)

/-- `vsget` (R140). -/
def sgetAns (w : VWord) (s : State) : Ans :=
  let js := scaleBlocks w s
  let act := activeOf s w js
  withUnits s (maskUnits w ++ scaleUnits (lanesIn s) (srcN w.f1) (act.map (blockIndex w.f1)))
    (let d := regOf w.vd.val
     let v := s.me.vec
     let r := js.foldl (elemStep s 5 w (fun j => (scaleAt v.regs (srcN w.f1) (blockIndex w.f1 j), 0#5)))
       (v.regs.data[d], 0#5)
     let v' := { v with regs := { v.regs with data := v.regs.data.set d r.1 } }
     .done (vfinish s v' 0#5))

/-- `sgetAns` as an instruction. -/
def sgetInline (w : VWord) (s : State) : Host.Outcome State Fault Refusal :=
  node .vsget w s (sgetAns w)

/-- `vsput` (R140). -/
def sputAns (w : VWord) (s : State) : Ans :=
  let js := scaleBlocks w s
  withUnits s (maskUnits w ++ srcUnits 5 (lanesIn s) w.f1 (activeOf s w js))
    (let d := regOf w.vd.val
     let v := s.me.vec
     let x := js.foldl (fun x j =>
       if maskBitOf v.masks (maskReg w) j then setScale x j (srcElem v.regs 5 (lanesIn s) w.f1 j)
       else if maskZ w then setScale x j 0 else x) v.regs.scale[d]
     .done (vfinish s { v with regs := { v.regs with scale := v.regs.scale.set d x } } 0#5))

/-- `sputAns` as an instruction. -/
def sputInline (w : VWord) (s : State) : Host.Outcome State Fault Refusal :=
  node .vsput w s (sputAns w)

/-- The result of a reduction and its flags (R149-R151): the ordered sum resumes from element 0 of vd when `VSTART` is
not 0. -/
def redValue (op : VOp) (w : VWord) (s : State) : FRes :=
  let t := w.vt.val
  let v := s.me.vec.regs
  let L := lanesIn s
  let act := activeOf s w (body s.me.vec.vstart.toNat (evlOf s t))
  let x (i : Nat) := srcElem v t L w.f1 i
  let s0 := if op = .vredosum ∧ s.me.vec.vstart ≠ 0#17 then elemAt v t L w.vd.val 0 else srcElem v t L w.f2 0
  let f (r : RMode) (a b : Nat) := redElem op t r a b
  if op = .vredtsum then
    treeRed f (modeAt s w) 0 s0 ((List.range (evlOf s t)).map (fun i => if act.contains i then some (i, x i) else none))
  else foldRed f (modeAt s w) (s0, 0#5) (act.map (fun i => (i, x i)))

/-- A reduction (R149): element 0 of vd, unchanged when evl = 0. -/
def redAns (op : VOp) (w : VWord) (s : State) : Ans :=
  let t := w.vt.val
  let L := lanesIn s
  let act := activeOf s w (body s.me.vec.vstart.toNat (evlOf s t))
  let s0 := if op = .vredosum ∧ s.me.vec.vstart ≠ 0#17 then granules t L w.vd.val [0] else srcUnits t L w.f2 [0]
  withUnits s (if evlOf s t = 0 then [] else maskUnits w ++ srcUnits t L w.f1 act ++ s0)
    (if evlOf s t = 0 then .done (vfinish s s.me.vec 0#5)
     else
      let d := regOf w.vd.val
      let v := s.me.vec
      let r := redValue op w s
      .done (vfinish s { v with regs := { v.regs with data := v.regs.data.set d (putElem t L v.regs.data[d] 0 r.1) } } r.2))

/-- `redAns` as an instruction. -/
def redInline (op : VOp) (w : VWord) (s : State) : Host.Outcome State Fault Refusal :=
  node op w s (redAns op w)

/-- VADD: Element-wise wrapping integer add. (R132) -/
def execVadd (w : VWord) (s : State) : Host.Outcome State Fault Refusal :=
  vaInline .vadd w s

/-- VSUB: Element-wise integer subtract. (R132) -/
def execVsub (w : VWord) (s : State) : Host.Outcome State Fault Refusal :=
  vaInline .vsub w s

/-- VRSUB: Element-wise reverse subtract b minus a. (R132) -/
def execVrsub (w : VWord) (s : State) : Host.Outcome State Fault Refusal :=
  vaInline .vrsub w s

/-- VMUL: Element-wise low half of the product. (R132) -/
def execVmul (w : VWord) (s : State) : Host.Outcome State Fault Refusal :=
  vaInline .vmul w s

/-- VMULH: Element-wise high half of the product. (R132) -/
def execVmulh (w : VWord) (s : State) : Host.Outcome State Fault Refusal :=
  vaInline .vmulh w s

/-- VDIV: Element-wise integer quotient under R80. (R132) -/
def execVdiv (w : VWord) (s : State) : Host.Outcome State Fault Refusal :=
  vaInline .vdiv w s

/-- VREM: Element-wise integer remainder under R80. (R132) -/
def execVrem (w : VWord) (s : State) : Host.Outcome State Fault Refusal :=
  vaInline .vrem w s

/-- VAND: Element-wise bitwise AND. (R132) -/
def execVand (w : VWord) (s : State) : Host.Outcome State Fault Refusal :=
  vaInline .vand w s

/-- VOR: Element-wise bitwise OR. (R132) -/
def execVor (w : VWord) (s : State) : Host.Outcome State Fault Refusal :=
  vaInline .vor w s

/-- VXOR: Element-wise bitwise XOR. (R132) -/
def execVxor (w : VWord) (s : State) : Host.Outcome State Fault Refusal :=
  vaInline .vxor w s

/-- VSLL: Element-wise left shift. (R132) -/
def execVsll (w : VWord) (s : State) : Host.Outcome State Fault Refusal :=
  vaInline .vsll w s

/-- VSRL: Element-wise logical right shift. (R132) -/
def execVsrl (w : VWord) (s : State) : Host.Outcome State Fault Refusal :=
  vaInline .vsrl w s

/-- VSRA: Element-wise arithmetic right shift. (R132) -/
def execVsra (w : VWord) (s : State) : Host.Outcome State Fault Refusal :=
  vaInline .vsra w s

/-- VMIN: Element-wise integer minimum. (R132) -/
def execVmin (w : VWord) (s : State) : Host.Outcome State Fault Refusal :=
  vaInline .vmin w s

/-- VMAX: Element-wise integer maximum. (R132) -/
def execVmax (w : VWord) (s : State) : Host.Outcome State Fault Refusal :=
  vaInline .vmax w s

/-- VSADD: Element-wise saturating add. (R132) -/
def execVsadd (w : VWord) (s : State) : Host.Outcome State Fault Refusal :=
  vaInline .vsadd w s

/-- VSSUB: Element-wise saturating subtract. (R132) -/
def execVssub (w : VWord) (s : State) : Host.Outcome State Fault Refusal :=
  vaInline .vssub w s

/-- VABS: Element-wise absolute value. (R132) -/
def execVabs (w : VWord) (s : State) : Host.Outcome State Fault Refusal :=
  vaInline .vabs w s

/-- VNEG: Element-wise negation. (R132) -/
def execVneg (w : VWord) (s : State) : Host.Outcome State Fault Refusal :=
  vaInline .vneg w s

/-- VNOT: Element-wise complement. (R132) -/
def execVnot (w : VWord) (s : State) : Host.Outcome State Fault Refusal :=
  vaInline .vnot w s

/-- VMV: Element-wise copy of bits. (R132) -/
def execVmv (w : VWord) (s : State) : Host.Outcome State Fault Refusal :=
  vaInline .vmv w s

/-- VSEL: Selects a or b per element by the selector mask. (R132) -/
def execVsel (w : VWord) (s : State) : Host.Outcome State Fault Refusal :=
  selInline w s

/-- VCLZ: Element-wise count of leading zeros. (R132) -/
def execVclz (w : VWord) (s : State) : Host.Outcome State Fault Refusal :=
  vaInline .vclz w s

/-- VPOPC: Element-wise count of one bits. (R132) -/
def execVpopc (w : VWord) (s : State) : Host.Outcome State Fault Refusal :=
  vaInline .vpopc w s

/-- VMACC: Element-wise low bits of a times b plus c. (R132) -/
def execVmacc (w : VWord) (s : State) : Host.Outcome State Fault Refusal :=
  vaInline .vmacc w s

/-- VFADD: Element-wise rounded floating add. (R133) -/
def execVfadd (w : VWord) (s : State) : Host.Outcome State Fault Refusal :=
  vaInline .vfadd w s

/-- VFSUB: Element-wise rounded floating subtract. (R133) -/
def execVfsub (w : VWord) (s : State) : Host.Outcome State Fault Refusal :=
  vaInline .vfsub w s

/-- VFMUL: Element-wise rounded floating multiply. (R133) -/
def execVfmul (w : VWord) (s : State) : Host.Outcome State Fault Refusal :=
  vaInline .vfmul w s

/-- VFDIV: Element-wise rounded floating divide. (R133) -/
def execVfdiv (w : VWord) (s : State) : Host.Outcome State Fault Refusal :=
  vaInline .vfdiv w s

/-- VFSQRT: Element-wise rounded square root. (R133) -/
def execVfsqrt (w : VWord) (s : State) : Host.Outcome State Fault Refusal :=
  vaInline .vfsqrt w s

/-- VFMIN: Element-wise floating minimum under R95. (R133) -/
def execVfmin (w : VWord) (s : State) : Host.Outcome State Fault Refusal :=
  vaInline .vfmin w s

/-- VFMAX: Element-wise floating maximum under R95. (R133) -/
def execVfmax (w : VWord) (s : State) : Host.Outcome State Fault Refusal :=
  vaInline .vfmax w s

/-- VFABS: Element-wise clears the sign bit. (R133) -/
def execVfabs (w : VWord) (s : State) : Host.Outcome State Fault Refusal :=
  vaInline .vfabs w s

/-- VFNEG: Element-wise inverts the sign bit. (R133) -/
def execVfneg (w : VWord) (s : State) : Host.Outcome State Fault Refusal :=
  vaInline .vfneg w s

/-- VFSGNJ: Element-wise sign injection. (R133) -/
def execVfsgnj (w : VWord) (s : State) : Host.Outcome State Fault Refusal :=
  vaInline .vfsgnj w s

/-- VFSGNJN: Element-wise inverted sign injection. (R133) -/
def execVfsgnjn (w : VWord) (s : State) : Host.Outcome State Fault Refusal :=
  vaInline .vfsgnjn w s

/-- VFSGNJX: Element-wise XOR sign injection. (R133) -/
def execVfsgnjx (w : VWord) (s : State) : Host.Outcome State Fault Refusal :=
  vaInline .vfsgnjx w s

/-- VFCLASS: Element-wise class code. (R133) -/
def execVfclass (w : VWord) (s : State) : Host.Outcome State Fault Refusal :=
  vaInline .vfclass w s

/-- VFMA: Element-wise fused a times b plus c. (R133) -/
def execVfma (w : VWord) (s : State) : Host.Outcome State Fault Refusal :=
  vaInline .vfma w s

/-- VFMS: Element-wise fused a times b minus c. (R133) -/
def execVfms (w : VWord) (s : State) : Host.Outcome State Fault Refusal :=
  vaInline .vfms w s

/-- VFNMA: Element-wise fused minus a times b minus c. (R133) -/
def execVfnma (w : VWord) (s : State) : Host.Outcome State Fault Refusal :=
  vaInline .vfnma w s

/-- VFNMS: Element-wise fused minus a times b plus c. (R133) -/
def execVfnms (w : VWord) (s : State) : Host.Outcome State Fault Refusal :=
  vaInline .vfnms w s

/-- VCEQ: Sets mask bits where a equals b. (R134) -/
def execVceq (w : VWord) (s : State) : Host.Outcome State Fault Refusal :=
  cmpInline .vceq w s

/-- VCNE: Sets mask bits where a differs from b. (R134) -/
def execVcne (w : VWord) (s : State) : Host.Outcome State Fault Refusal :=
  cmpInline .vcne w s

/-- VCLT: Sets mask bits where a is less than b. (R134) -/
def execVclt (w : VWord) (s : State) : Host.Outcome State Fault Refusal :=
  cmpInline .vclt w s

/-- VCLE: Sets mask bits where a is at most b. (R134) -/
def execVcle (w : VWord) (s : State) : Host.Outcome State Fault Refusal :=
  cmpInline .vcle w s

/-- VCGT: Sets mask bits where a is greater than b. (R134) -/
def execVcgt (w : VWord) (s : State) : Host.Outcome State Fault Refusal :=
  cmpInline .vcgt w s

/-- VCGE: Sets mask bits where a is at least b. (R134) -/
def execVcge (w : VWord) (s : State) : Host.Outcome State Fault Refusal :=
  cmpInline .vcge w s

/-- VCUN: Sets mask bits where a or b is NaN. (R134) -/
def execVcun (w : VWord) (s : State) : Host.Outcome State Fault Refusal :=
  cmpInline .vcun w s

/-- MAND: Mask AND. (R135) -/
def execMand (w : VWord) (s : State) : Host.Outcome State Fault Refusal :=
  mopInline .mand w s

/-- MOR: Mask OR. (R135) -/
def execMor (w : VWord) (s : State) : Host.Outcome State Fault Refusal :=
  mopInline .mor w s

/-- MXOR: Mask XOR. (R135) -/
def execMxor (w : VWord) (s : State) : Host.Outcome State Fault Refusal :=
  mopInline .mxor w s

/-- MANDN: Mask AND NOT. (R135) -/
def execMandn (w : VWord) (s : State) : Host.Outcome State Fault Refusal :=
  mopInline .mandn w s

/-- MNOT: Mask complement. (R135) -/
def execMnot (w : VWord) (s : State) : Host.Outcome State Fault Refusal :=
  mopInline .mnot w s

/-- MMV: Mask copy. (R135) -/
def execMmv (w : VWord) (s : State) : Host.Outcome State Fault Refusal :=
  mopInline .mmv w s

/-- MSET: Sets mask bits below VL. (R135) -/
def execMset (w : VWord) (s : State) : Host.Outcome State Fault Refusal :=
  mopInline .mset w s

/-- MCLR: Clears mask bits below VL. (R135) -/
def execMclr (w : VWord) (s : State) : Host.Outcome State Fault Refusal :=
  mopInline .mclr w s

/-- VCVT: Converts paired elements from the source type to the destination type. (R137) -/
def execVcvt (w : VWord) (s : State) : Host.Outcome State Fault Refusal :=
  cvtInline w s

/-- VPACK: Packs 32-element blocks into a block type choosing each block's scale. (R138) -/
def execVpack (w : VWord) (s : State) : Host.Outcome State Fault Refusal :=
  packInline w s

/-- VUNPACK: Converts block elements with their scale into f32, bf16 or f16. (R139) -/
def execVunpack (w : VWord) (s : State) : Host.Outcome State Fault Refusal :=
  unpackInline w s

/-- VSGET: Reads block scales into n16 elements. (R140) -/
def execVsget (w : VWord) (s : State) : Host.Outcome State Fault Refusal :=
  sgetInline w s

/-- VSPUT: Writes block scales from n16 elements. (R140) -/
def execVsput (w : VWord) (s : State) : Host.Outcome State Fault Refusal :=
  sputInline w s

/-- VEXP2: Element-wise 2^x by the reference algorithm. (R143) -/
def execVexp2 (w : VWord) (s : State) : Host.Outcome State Fault Refusal :=
  vaInline .vexp2 w s

/-- VLOG2: Element-wise log2 x by the reference algorithm. (R144) -/
def execVlog2 (w : VWord) (s : State) : Host.Outcome State Fault Refusal :=
  vaInline .vlog2 w s

/-- VRCP: Element-wise reciprocal by the reference algorithm. (R145) -/
def execVrcp (w : VWord) (s : State) : Host.Outcome State Fault Refusal :=
  vaInline .vrcp w s

/-- VRSQRT: Element-wise reciprocal square root by the reference algorithm. (R146) -/
def execVrsqrt (w : VWord) (s : State) : Host.Outcome State Fault Refusal :=
  vaInline .vrsqrt w s

/-- VTANH: Element-wise tanh by the reference algorithm. (R148) -/
def execVtanh (w : VWord) (s : State) : Host.Outcome State Fault Refusal :=
  vaInline .vtanh w s

/-- VSIGM: Element-wise sigmoid by the reference algorithm. (R147) -/
def execVsigm (w : VWord) (s : State) : Host.Outcome State Fault Refusal :=
  vaInline .vsigm w s

/-- VREDOSUM: Ordered sum reduction into element 0, resumable from VSTART. (R150) -/
def execVredosum (w : VWord) (s : State) : Host.Outcome State Fault Refusal :=
  redInline .vredosum w s

/-- VREDTSUM: Tree sum reduction into element 0. (R149) -/
def execVredtsum (w : VWord) (s : State) : Host.Outcome State Fault Refusal :=
  redInline .vredtsum w s

/-- VREDMIN: Minimum reduction. (R149) -/
def execVredmin (w : VWord) (s : State) : Host.Outcome State Fault Refusal :=
  redInline .vredmin w s

/-- VREDMAX: Maximum reduction. (R149) -/
def execVredmax (w : VWord) (s : State) : Host.Outcome State Fault Refusal :=
  redInline .vredmax w s

/-- VREDAND: Bitwise AND reduction. (R149) -/
def execVredand (w : VWord) (s : State) : Host.Outcome State Fault Refusal :=
  redInline .vredand w s

/-- VREDOR: Bitwise OR reduction. (R149) -/
def execVredor (w : VWord) (s : State) : Host.Outcome State Fault Refusal :=
  redInline .vredor w s

/-- VREDXOR: Bitwise XOR reduction. (R149) -/
def execVredxor (w : VWord) (s : State) : Host.Outcome State Fault Refusal :=
  redInline .vredxor w s

end Machine
end Sys2Proof
end

