-- ==== Sys2Proof/Machine/VecPermute.lean ====
section
/-! DEFINITION. Permutation and sparse primitives (spec/08_permute_sparse.md R170-R183): the value of each form over a vector given as
a function, which inline forms and nodes share, and the inline forms. -/

namespace Sys2Proof
namespace Machine

/-! ### Values over a vector of evl elements -/

/-- The source index of a slide or join at element i: of x, of the fill, or zero (R174). -/
def slideIndex (op : VOp) (off evl i : Nat) : Option (Bool × Nat) :=
  let o := min off evl
  match op with
  | .vshup => if off ≤ i then some (false, i - off) else none
  | .vshdn => if i + off < evl then some (false, i + off) else none
  | .vjoinup => some (if o ≤ i then (false, i - o) else (true, evl - o + i))
  | _ => some (if i + o < evl then (false, i + o) else (true, i + o - evl))

/-- The value of a slide or join at element i. -/
def slideElem (op : VOp) (off evl : Nat) (x f : Nat → Nat) (i : Nat) : Nat :=
  match slideIndex op off evl i with
  | some (false, j) => x j
  | some (true, j) => f j
  | none => 0

/-- The number of elements below `lim` with a property. -/
def countBelow (p : Nat → Bool) (lim : Nat) : Nat := ((List.range lim).filter p).length

/-- The lowest indices with a property, in order (R177, R178). -/
def selected (p : Nat → Bool) (start evl : Nat) : List Nat := (body start evl).filter p

/-- The rank of element i among equal earlier active elements, saturating at the element width w of R124 (R181). -/
def conflictElem (w : Nat) (act : Nat → Bool) (x : Nat → Nat) (i : Nat) : Nat :=
  min (countBelow (fun j => act j && x j == x i) i) (2 ^ w - 1)

/-- `combine` of `vsscan` (R182). -/
def scanElem (op : VOp) (t : Nat) (r : RMode) (a b : Nat) : FRes :=
  redElem (match op with
    | .vsscanMin => .vredmin
    | .vsscanMax => .vredmax
    | .vsscanAnd => .vredand
    | .vsscanOr => .vredor
    | .vsscanXor => .vredxor
    | _ => .vredosum) t r a b

/-- One element of a segmented scan (R182). -/
def scanStep (f : RMode → Nat → Nat → FRes) (md : Nat → RMode) (act newSeg : Nat → Bool) (x : Nat → Nat) (a : Scan)
    (i : Nat) : Scan :=
  let run := if newSeg i then none else a.run
  if act i then
    match run with
    | none => { run := some (x i), outs := a.outs ++ [(i, x i)], flags := a.flags }
    | some v =>
      let y := f (md i) v (x i)
      { run := some y.1, outs := a.outs ++ [(i, y.1)], flags := a.flags ||| y.2 }
  else { a with run := run }

/-! ### The inline forms -/

/-- Slides and joins (R174). -/
def slideAns (op : VOp) (w : VWord) (s : State) : Ans :=
  let t := w.vt.val
  let L := lanesIn s
  let v := s.me.vec.regs
  let evl := evlOf s t
  let off := (rd s (xReg w)).toNat
  let start := if op = .vshup then max s.me.vec.vstart.toNat (min off evl) else s.me.vec.vstart.toNat
  let is := body start evl
  let js := (activeOf s w is).filterMap (slideIndex op off evl)
  withUnits s (maskUnits w ++ [RegUnit.g (srcN w.f2)] ++
      srcUnits t L w.f1 ((js.filter (fun j => !j.1)).map (fun j => j.2)) ++
      srcUnits t L w.f3 ((js.filter (fun j => j.1)).map (fun j => j.2)))
    (.done (elementsOn s t w is (fun i =>
      (slideElem op off evl (srcElem v t L w.f1) (srcElem v t L w.f3) i, 0#5))))

/-- `slideAns` as an instruction. -/
def slideInline (op : VOp) (w : VWord) (s : State) : Host.Outcome State Fault Refusal :=
  node op w s (slideAns op w)

/-- An entry of a gather table of G registers (R175). -/
def tableElem (v : VRegs) (t lanes base g evl idx : Nat) : Nat :=
  if idx < evl * g then elemAt v t lanes (base + idx / evl) (idx % evl) else 0

/-- `vrgather` (R175). -/
def gatherAns (g : Nat) (w : VWord) (s : State) : Ans :=
  let t := w.vt.val
  let L := lanesIn s
  let v := s.me.vec.regs
  let evl := evlOf s t
  let act := activeOf s w (body s.me.vec.vstart.toNat evl)
  let n := srcN w.f1
  let us := act.flatMap (fun i =>
    let idx := bElem s t w i
    if idx < evl * g then granules t L (n + idx / evl) [idx % evl] else [])
  withUnits s (maskUnits w ++ bUnits t L w act ++ us)
    (.done (elementwise s t w (fun i => (tableElem v t L n g evl (bElem s t w i), 0#5))))

/-- `gatherAns` as an instruction. -/
def gatherInline (op : VOp) (g : Nat) (w : VWord) (s : State) : Host.Outcome State Fault Refusal :=
  node op w s (gatherAns g w)

/-- `vcompress` (R177). -/
def compressAns (w : VWord) (s : State) : Ans :=
  let t := w.vt.val
  let L := lanesIn s
  let v := s.me.vec
  let evl := evlOf s t
  let start := v.vstart.toNat
  let act (i : Nat) := maskBitOf v.masks (maskReg w) i
  let c := countBelow act start
  let js := selected act start evl
  let zs := if maskZ w then body (c + js.length) evl else []
  withUnits s (maskUnits w ++ srcUnits t L w.f1 js)
    (let d := regOf w.vd.val
     let x := js.zipIdx.foldl (fun x p => putElem t L x (c + p.2) (srcElem v.regs t L w.f1 p.1)) v.regs.data[d]
     let x := zs.foldl (fun x i => putElem t L x i 0) x
     let v' := { v with regs := { v.regs with data := v.regs.data.set d x } }
     .done (vfinish s v' 0#5))

/-- `compressAns` as an instruction. -/
def compressInline (w : VWord) (s : State) : Host.Outcome State Fault Refusal :=
  node .vcompress w s (compressAns w)

/-- `vexpand` (R178). -/
def expandAns (w : VWord) (s : State) : Ans :=
  let t := w.vt.val
  let L := lanesIn s
  let v := s.me.vec
  let act (i : Nat) := maskBitOf v.masks (maskReg w) i
  let js := selected act v.vstart.toNat (evlOf s t)
  withUnits s (maskUnits w ++ srcUnits t L w.f1 (js.map (countBelow act)))
    (.done (elementwise s t w (fun i => (srcElem v.regs t L w.f1 (countBelow act i), 0#5))))

/-- `expandAns` as an instruction. -/
def expandInline (w : VWord) (s : State) : Host.Outcome State Fault Refusal :=
  node .vexpand w s (expandAns w)

/-- `vpcnt` and `vpcnt.inc` (R179). -/
def pcntAns (inc : Nat) (w : VWord) (s : State) : Ans :=
  let t := w.vt.val
  let ms := s.me.vec.masks
  let base := if w.x.val = 1 then (rd s (xReg w)).toNat else 0
  let hit (j : Nat) := maskBitOf ms (maskReg w) j && maskBitOf ms (srcN w.f1) j
  withUnits s (maskUnits w ++ [RegUnit.m (srcN w.f1)] ++ (if w.x.val = 1 then [RegUnit.g (srcN w.f2)] else []))
    (.done (elementwise s t w (fun i => ((base + countBelow hit (i + inc)) % 2 ^ elemW t, 0#5))))

/-- `pcntAns` as an instruction. -/
def pcntInline (op : VOp) (inc : Nat) (w : VWord) (s : State) : Host.Outcome State Fault Refusal :=
  node op w s (pcntAns inc w)

/-- Write a g register from a vector form, and set `VSTART` to 0. -/
def gdone (s : State) (d : Nat) (x : Word) : Ans := .done (vfinish (wr s (regOf d) x) s.me.vec 0#5)

/-- `vfirst` (R180). -/
def firstAns (w : VWord) (s : State) : Ans :=
  let ms := s.me.vec.masks
  withUnits s (maskUnits w ++ [RegUnit.m (srcN w.f1)])
    (gdone s w.vd.val (match (body s.me.vec.vstart.toNat (evlOf s w.vt.val)).find?
        (fun i => maskBitOf ms (maskReg w) i && maskBitOf ms (srcN w.f1) i) with
      | some i => BitVec.ofNat 64 i
      | none => BitVec.allOnes 64))

/-- `firstAns` as an instruction. -/
def firstInline (w : VWord) (s : State) : Host.Outcome State Fault Refusal :=
  node .vfirst w s (firstAns w)

/-- `vconflict` (R181). -/
def conflictAns (w : VWord) (s : State) : Ans :=
  let t := w.vt.val
  let L := lanesIn s
  let v := s.me.vec
  let act (i : Nat) := maskBitOf v.masks (maskReg w) i
  withUnits s (maskUnits w ++ srcUnits t L w.f1 ((List.range (evlOf s t)).filter act))
    (.done (elementwise s t w (fun i => (conflictElem (elemW t) act (srcElem v.regs t L w.f1) i, 0#5))))

/-- `conflictAns` as an instruction. -/
def conflictInline (w : VWord) (s : State) : Host.Outcome State Fault Refusal :=
  node .vconflict w s (conflictAns w)

/-- Where a resumed scan takes its running value: the last active element of the segment that holds `VSTART` - 1
(R182). -/
def scanResume (act headBit : Nat → Bool) (start : Nat) : Option Nat :=
  if start = 0 then none
  else
    let h := ((List.range start).filter (fun i => i == 0 || headBit i)).getLastD 0
    ((List.range' h (start - h)).filter act).getLast?

/-- `vsscan` (R182). -/
def scanAns (op : VOp) (w : VWord) (s : State) : Ans :=
  let t := w.vt.val
  let L := lanesIn s
  let v := s.me.vec
  let start := v.vstart.toNat
  let act (i : Nat) := maskBitOf v.masks (maskReg w) i
  let headBit (i : Nat) := maskBitOf v.masks (srcN w.f2) i
  let is := body start (evlOf s t)
  let from? := if start < evlOf s t then scanResume act headBit start else none
  withUnits s (maskUnits w ++ [RegUnit.m (srcN w.f2)] ++ srcUnits t L w.f1 (is.filter act) ++
      granules t L w.vd.val from?.toList)
    (let a := is.foldl (scanStep (scanElem op t) (modeAt s w) act (fun i => i == 0 || headBit i)
        (srcElem v.regs t L w.f1)) { run := from?.map (elemAt v.regs t L w.vd.val), outs := [], flags := 0#5 }
     let d := regOf w.vd.val
     let x := a.outs.foldl (fun x p => putElem t L x p.1 p.2) v.regs.data[d]
     let zs := if maskZ w then is.filter (fun i => !act i) else []
     let x := zs.foldl (fun x i => putElem t L x i 0) x
     let v' := { v with regs := { v.regs with data := v.regs.data.set d x } }
     .done (vfinish s v' a.flags))

/-- `scanAns` as an instruction. -/
def scanInline (op : VOp) (w : VWord) (s : State) : Host.Outcome State Fault Refusal :=
  node op w s (scanAns op w)

/-- `vextr` (R183). -/
def extrAns (w : VWord) (s : State) : Ans :=
  let t := w.vt.val
  let L := lanesIn s
  let idx := (rd s (xReg w)).toNat
  let inside := decide (idx < evlOf s t)
  withUnits s ([RegUnit.g (srcN w.f2)] ++ (if inside then srcUnits t L w.f1 [idx] else []))
    (gdone s w.vd.val (if inside then
       BitVec.ofNat 64 (wrapI 64 (valOf (signedTy t) (elemW t) (srcElem s.me.vec.regs t L w.f1 idx))) else 0#64))

/-- `extrAns` as an instruction. -/
def extrInline (w : VWord) (s : State) : Host.Outcome State Fault Refusal :=
  node .vextr w s (extrAns w)

/-- `vinsrt` (R183). -/
def insrtAns (w : VWord) (s : State) : Ans :=
  let t := w.vt.val
  let L := lanesIn s
  let v := s.me.vec
  let idx := (rd s (regOf (srcN w.f1))).toNat
  withUnits s [RegUnit.g (srcN w.f1), RegUnit.g (srcN w.f2)]
    (let d := regOf w.vd.val
     let v' := if idx < evlOf s t then
         { v with regs := { v.regs with data := v.regs.data.set d (putElem t L v.regs.data[d] idx (rd s (xReg w)).toNat) } }
       else v
     .done (vfinish s v' 0#5))

/-- `insrtAns` as an instruction. -/
def insrtInline (w : VWord) (s : State) : Host.Outcome State Fault Refusal :=
  node .vinsrt w s (insrtAns w)

/-- VSHUP: Slides elements up by a g amount. (R174) -/
def execVshup (w : VWord) (s : State) : Host.Outcome State Fault Refusal :=
  slideInline .vshup w s

/-- VSHDN: Slides elements down by a g amount. (R174) -/
def execVshdn (w : VWord) (s : State) : Host.Outcome State Fault Refusal :=
  slideInline .vshdn w s

/-- VJOINUP: Slides up filling from a fill source. (R174) -/
def execVjoinup (w : VWord) (s : State) : Host.Outcome State Fault Refusal :=
  slideInline .vjoinup w s

/-- VJOINDN: Slides down filling from a fill source. (R174) -/
def execVjoindn (w : VWord) (s : State) : Host.Outcome State Fault Refusal :=
  slideInline .vjoindn w s

/-- VRGATHER_X1: Gathers elements by index from a one-register table. (R175) -/
def execVrgatherX1 (w : VWord) (s : State) : Host.Outcome State Fault Refusal :=
  gatherInline .vrgatherX1 1 w s

/-- VRGATHER_X2: Gathers elements by index from a two-register table. (R175) -/
def execVrgatherX2 (w : VWord) (s : State) : Host.Outcome State Fault Refusal :=
  gatherInline .vrgatherX2 2 w s

/-- VRGATHER_X4: Gathers elements by index from a four-register table. (R175) -/
def execVrgatherX4 (w : VWord) (s : State) : Host.Outcome State Fault Refusal :=
  gatherInline .vrgatherX4 4 w s

/-- VRGATHER_X8: Gathers elements by index from an eight-register table. (R175) -/
def execVrgatherX8 (w : VWord) (s : State) : Host.Outcome State Fault Refusal :=
  gatherInline .vrgatherX8 8 w s

/-- VCOMPRESS: Packs selected elements to the lowest positions. (R177) -/
def execVcompress (w : VWord) (s : State) : Host.Outcome State Fault Refusal :=
  compressInline w s

/-- VEXPAND: Spreads consecutive source elements to active positions. (R178) -/
def execVexpand (w : VWord) (s : State) : Host.Outcome State Fault Refusal :=
  expandInline w s

/-- VPCNT: Writes each active element's exclusive count of counted-mask bits plus a base. (R179) -/
def execVpcnt (w : VWord) (s : State) : Host.Outcome State Fault Refusal :=
  pcntInline .vpcnt 0 w s

/-- VPCNT_INC: Writes each active element's inclusive count plus a base. (R179) -/
def execVpcntInc (w : VWord) (s : State) : Host.Outcome State Fault Refusal :=
  pcntInline .vpcntInc 1 w s

/-- VFIRST: Writes to a g register the first index set in both masks. (R180) -/
def execVfirst (w : VWord) (s : State) : Host.Outcome State Fault Refusal :=
  firstInline w s

/-- VCONFLICT: Ranks each active element among earlier equal codes. (R181) -/
def execVconflict (w : VWord) (s : State) : Host.Outcome State Fault Refusal :=
  conflictInline w s

/-- VSSCAN_ADD: Segmented running sum. (R182) -/
def execVsscanAdd (w : VWord) (s : State) : Host.Outcome State Fault Refusal :=
  scanInline .vsscanAdd w s

/-- VSSCAN_MIN: Segmented running minimum. (R182) -/
def execVsscanMin (w : VWord) (s : State) : Host.Outcome State Fault Refusal :=
  scanInline .vsscanMin w s

/-- VSSCAN_MAX: Segmented running maximum. (R182) -/
def execVsscanMax (w : VWord) (s : State) : Host.Outcome State Fault Refusal :=
  scanInline .vsscanMax w s

/-- VSSCAN_AND: Segmented running AND. (R182) -/
def execVsscanAnd (w : VWord) (s : State) : Host.Outcome State Fault Refusal :=
  scanInline .vsscanAnd w s

/-- VSSCAN_OR: Segmented running OR. (R182) -/
def execVsscanOr (w : VWord) (s : State) : Host.Outcome State Fault Refusal :=
  scanInline .vsscanOr w s

/-- VSSCAN_XOR: Segmented running XOR. (R182) -/
def execVsscanXor (w : VWord) (s : State) : Host.Outcome State Fault Refusal :=
  scanInline .vsscanXor w s

/-- VEXTR: Moves one vector element into a g register. (R183) -/
def execVextr (w : VWord) (s : State) : Host.Outcome State Fault Refusal :=
  extrInline w s

/-- VINSRT: Moves a g value into one vector element. (R183) -/
def execVinsrt (w : VWord) (s : State) : Host.Outcome State Fault Refusal :=
  insrtInline w s

end Machine
end Sys2Proof
end

