-- ==== Sys2Proof/Machine/VecMem.lean ====
section
/-! DEFINITION. Vector loads, stores and scatter-reduce (spec/10_memory.md R215-R227; spec/12_atomics_engines.md R257-R260; layout of
block types, spec/04_formats.md R87): the access of one element or block, which inline forms and ports share, and the inline
forms. -/

namespace Sys2Proof
namespace Machine

/-! ### Tensor descriptors (spec/12_atomics_engines.md R262) -/

/-- N, the number of elements. -/
def Desc.count (d : Desc) : Nat := d.dims.foldl (fun n p => n * p.1) 1
/-- The indices of a linear index, innermost first. -/
def splitIndex : List (Nat × Int) → Nat → List Nat
  | [], _ => []
  | (n, _) :: l, m => m % max n 1 :: splitIndex l (m / max n 1)
/-- The byte offset at some indices. -/
def Desc.at_ (d : Desc) (is : List Nat) : Int :=
  (d.base : Int) + d.esz * (d.dims.zip is).foldl (fun s p => s + p.1.2 * (p.2 : Int)) (0 : Int)
/-- The byte offset of a linear index. -/
def Desc.offset (d : Desc) (m : Nat) : Int := d.at_ (splitIndex d.dims m)
/-- The lowest byte of the footprint (R264). -/
def Desc.lo (d : Desc) : Int :=
  (d.base : Int) + d.esz * d.dims.foldl (fun s p => s + min 0 (((p.1 : Int) - 1) * p.2)) (0 : Int)
/-- The highest byte of the footprint (R264). -/
def Desc.hi (d : Desc) : Int :=
  (d.base : Int) + d.esz * d.dims.foldl (fun s p => s + max 0 (((p.1 : Int) - 1) * p.2)) (0 : Int) + d.esz - 1

/-! ### Addresses (R215, R219-R222) -/

/-- An offset resolved under a space: `PROT` at the offset itself where R215 or R216 says so. `XVAL` for an offset that is no 64-bit
integer is its floor modulo 2^64 (DEDUCED, log 45). -/
def resolveAt (s : State) (c : XCtx) (space dir : Nat) (acc : Acc) (a : Int) : Except Flt Loc :=
  let prot : Except Flt Loc := .error { Flt.mk' cProt (wrapI 64 a) acc with offset := true }
  let inWin (lim base : Nat) : Except Flt Loc :=
    if 0 ≤ a ∧ a < lim then
      match resolve s c acc (base + a.toNat) with
      | .error f => .error (if f.peer then { f with va := a.toNat, offset := true } else f)
      | r => r
    else prot
  match space with
  | 0 => if a < 0 then prot else resolve s c acc a.toNat
  | 1 => inWin tileBytes winBase
  | 2 => inWin tileBytes (winPeer + dir * 0x4000000)
  | _ => inWin 0x80000 winSdm

/-- Twice the memory size of an element in bytes (R220). -/
def halfBytes (t : Nat) : Nat := if t = 16 then 1 else elemW t / 4
/-- The index type (R220). -/
def idxTy (t : Nat) : Nat := if elemW t ≤ 32 then 2 else 3
/-- The signed element offset of format VM (R36). -/
def off9 (w : VWord) : Int := sx 9 w.f3.val
/-- Payload bits of an element of a block in memory (R84). -/
def payBits (t : Nat) : Nat :=
  match t with
  | 19 => 6
  | 20 => 4
  | _ => 8
/-- Bytes of a group of eight blocks (R87). -/
def groupBytes (t : Nat) : Nat := 8 * (4 * payBits t) + 16

/-- The base address (R222). -/
def MemAt.start (m : MemAt) (t : Nat) : Int :=
  if blkTy t then m.base + m.off * groupBytes t else (2 * m.base + m.off * halfBytes t) / 2
/-- Twice the byte address of element position p (R220). -/
def MemAt.half (m : MemAt) (t : Nat) (p : Int) : Int := 2 * m.base + (m.off + p) * halfBytes t
/-- The payload address of block j (R87). -/
def MemAt.payload (m : MemAt) (t j : Nat) : Int :=
  m.start t + ((j / 8 * groupBytes t + j % 8 * (4 * payBits t) : Nat) : Int)
/-- The address of the scale halfword of block j (R87). -/
def MemAt.scale (m : MemAt) (t j : Nat) : Int :=
  m.start t + ((j / 8 * groupBytes t + 8 * (4 * payBits t) + 2 * (j % 8) : Nat) : Int)

/-- The forms with a stride register. -/
def strideForm : VOp → Bool
  | .vldSt | .vstSt => true
  | _ => false
/-- The forms with an index source. -/
def indexForm : VOp → Bool
  | .vldIx | .vstIx | .vsrdoAdd | .vsrduAdd | .vsrduMin | .vsrduMax | .vsrduAnd | .vsrduOr | .vsrduXor => true
  | _ => false

/-- `STRIDE` (R221), then `ALIGN` (R87, R222): the cause and `XVAL`. -/
def memCheck (op : VOp) (t : Nat) (m : MemAt) : Option (Nat × Word) :=
  let odd := t == 16 || blkTy t
  let a := m.start t
  if odd && strideForm op && m.stride != 1 then some (cStride, BitVec.ofInt 64 m.stride)
  else if odd && (indexForm op || op == .vcompressSt) then some (cStride, 0#64)
  else if a % ((if blkTy t then 16 else max 1 (halfBytes t / 2) : Nat) : Int) != 0 then some (cAlign, BitVec.ofInt 64 a)
  else none

/-- Where an access takes its addresses inline, with the registers read at its place (R220). -/
def memAt (op : VOp) (w : VWord) (s : State) : MemAt where
  base := sx 64 (rd s (regOf w.gb)).toNat
  off := off9 w
  stride := if strideForm op then sx 64 (rd s (regOf (srcN (viFld w)))).toNat else 1
  space := s.me.vec.mtSpace.toNat
  dir := s.me.vec.mtDir.toNat
  ctx := vectorCtx s

/-- The element position of element i: its number, its stride, its index, or the active elements below it (R220). -/
def position (op : VOp) (stride : Int) (idx : Nat → Nat) (it : Nat) (below : Nat → Nat) (i : Nat) : Int :=
  if strideForm op then i * stride
  else if indexForm op then sx (elemW it) (idx i)
  else if op = .vcompressSt then (below i : Int)
  else i

/-! ### One element, one block -/

/-- The place of an element. -/
def elemPlace (s : State) (m : MemAt) (t : Nat) (acc : Acc) (p : Int) : Except Flt Loc :=
  resolveAt s m.ctx m.space m.dir acc (m.half t p / 2)

/-- Bytes of an element in memory; a half counts as its byte. -/
def elemBytes (t : Nat) : Nat := max 1 (halfBytes t / 2)

/-- An element's code in what its place holds: half a byte for e2m1, six bits for e3m2 and e2m3 (R220, R223). -/
def codeIn (m : MemAt) (t : Nat) (p : Int) (v : Nat) : Nat :=
  if t = 16 then v / 2 ^ (if m.half t p % 2 = 1 then 4 else 0) % 16
  else if t = 14 ∨ t = 15 then v % 64 else v

/-- Load one element. -/
def elemLoad (s : State) (m : MemAt) (t : Nat) (p : Int) : Except Flt Nat :=
  match elemPlace s m t .read p with
  | .error f => .error f
  | .ok l => .ok (codeIn m t p (readLoc s l (elemBytes t)))

/-- The write of one element: its own half byte for e2m1, zeros above six bits for e3m2 and e2m3 (R226). -/
def elemWr (m : MemAt) (t : Nat) (p : Int) (l : Loc) (v : Nat) : MemWr :=
  if t = 16 then
    let sh := if m.half t p % 2 = 1 then 4 else 0
    { loc := l, n := 1, mask := 15 * 2 ^ sh, val := v % 16 * 2 ^ sh }
  else { loc := l, n := elemBytes t, mask := 2 ^ (8 * elemBytes t) - 1, val := if t = 14 ∨ t = 15 then v % 64 else v }

/-- Perform one write. -/
def MemWr.apply (s : State) (x : MemWr) : State :=
  if x.mask = 2 ^ (8 * x.n) - 1 then writeLoc s x.loc x.n x.val
  else writeLoc s x.loc x.n (Nat.lor (Nat.land (readLoc s x.loc x.n) (2 ^ (8 * x.n) - 1 - x.mask)) x.val)

/-- The bytes that element q of a block lies in, as byte offset in the payload, bits below it there, and bits of it there
(R84). -/
def payPieces (t q : Nat) : List (Nat × Nat × Nat) :=
  let lo := q * payBits t
  let first := min (payBits t) (8 - lo % 8)
  (lo / 8, lo % 8, first) :: (if first < payBits t then [(lo / 8 + 1, 0, payBits t - first)] else [])

/-- Resolve some accesses in order. -/
def resolveAll {α : Type} (f : α → Except Flt MemWr) : List α → Except Flt (List MemWr)
  | [] => .ok []
  | x :: l =>
    match f x with
    | .error e => .error e
    | .ok y =>
      match resolveAll f l with
      | .error e => .error e
      | .ok r => .ok (y :: r)

/-- The accesses of block j for some of its elements, each with its code, and its scale code: the payload in element order,
then the scale halfword (R87). -/
def blockAccess (s : State) (m : MemAt) (t : Nat) (acc : Acc) (j : Nat) (qs : List (Nat × Nat)) (scale : Nat) :
    Except Flt (List MemWr) :=
  let pieces := qs.flatMap (fun q => ((payPieces t q.1).zipIdx).map (fun p =>
    let done := if p.2 = 0 then 0 else payBits t - p.1.2.2
    (m.payload t j + ((p.1.1 : Nat) : Int), 1, (2 ^ p.1.2.2 - 1) * 2 ^ p.1.2.1, q.2 / 2 ^ done % 2 ^ p.1.2.2 * 2 ^ p.1.2.1)))
  resolveAll (fun (p : Int × Nat × Nat × Nat) =>
      match resolveAt s m.ctx m.space m.dir acc p.1 with
      | .error f => .error f
      | .ok l => .ok { loc := l, n := p.2.1, mask := p.2.2.1, val := p.2.2.2 })
    (pieces ++ [(m.scale t j, 2, 0xFFFF, scale % 512)])

/-- The code of element q of a block whose payload pieces have been read. -/
def gatherCode (s : State) (t q : Nat) (ws : List MemWr) : Nat × List MemWr :=
  let ps := payPieces t q
  let r := (ps.zip ws).foldl (fun (a : Nat × Nat) p =>
    (a.1 + readLoc s p.2.loc 1 / 2 ^ p.1.2.1 % 2 ^ p.1.2.2 * 2 ^ a.2, a.2 + p.1.2.2)) (0, 0)
  (r.1, ws.drop ps.length)

/-- The codes of some elements of a block, and its scale code. -/
def gatherBlock (s : State) (t : Nat) : List Nat → List MemWr → List Nat × Nat
  | [], ws => ([], match ws with
    | x :: _ => readLoc s x.loc 2 % 512
    | [] => 0)
  | q :: qs, ws =>
    let (c, ws) := gatherCode s t q ws
    let (cs, sc) := gatherBlock s t qs ws
    (c :: cs, sc)

/-- Load block j for some of its elements: their codes and the scale. -/
def blockLoad (s : State) (m : MemAt) (t j : Nat) (qs : List Nat) : Except Flt (List Nat × Nat) :=
  match blockAccess s m t .read j (qs.map (fun q => (q, 0))) 0 with
  | .error f => .error f
  | .ok ws => .ok (gatherBlock s t qs ws)

/-! ### Loads -/

/-- Elements or blocks in ascending order, until one faults: what was loaded, and the fault with its index. -/
def loadLoop {α β : Type} (get : α → Except Flt β) (put : VRegs → α → Option β → VRegs) (act : α → Bool) :
    List α → VRegs → VRegs × Option (α × Flt)
  | [], v => (v, none)
  | i :: l, v =>
    if act i then
      match get i with
      | .error f => (v, some (i, f))
      | .ok x => loadLoop get put act l (put v i (some x))
    else loadLoop get put act l (put v i none)

/-- Put a loaded element, or treat a masked-off one (R128). -/
def putLoaded (s : State) (t : Nat) (w : VWord) (v : VRegs) (i : Nat) (x : Option Nat) : VRegs :=
  let d := regOf w.vd.val
  match x with
  | some c => { v with data := v.data.set d (putElem t (lanesIn s) v.data[d] i c) }
  | none => if maskZ w then { v with data := v.data.set d (putElem t (lanesIn s) v.data[d] i 0) } else v

/-- Put a loaded block: its active elements and its scale; masked-off elements as R128 treats them (R87). -/
def putBlock (s : State) (t : Nat) (w : VWord) (v : VRegs) (j : Nat) (x : Option (List Nat × Nat)) : VRegs :=
  let d := regOf w.vd.val
  let act (q : Nat) := maskBitOf s.me.vec.masks (maskReg w) (32 * j + q)
  let codes := match x with
    | some (cs, _) => cs
    | none => []
  let v := (((List.range 32).filter act).zip codes).foldl (fun v p => putLoaded s t w v (32 * j + p.1) (some p.2)) v
  let v := ((List.range 32).filter (fun q => !act q)).foldl (fun v q => putLoaded s t w v (32 * j + q) none) v
  match x with
  | some (_, sc) => { v with scale := v.scale.set d (setScale v.scale[d] j sc) }
  | none => v

/-- The body of a memory form (R220, R258): evl is also below the capacity of the index type, whole blocks for a block
type (R88, R130). -/
def memBody (op : VOp) (t : Nat) (s : State) : List Nat :=
  let evl := if indexForm op then min (evlOf s t) (cap (idxTy t) (lanesIn s)) else evlOf s t
  if blkTy t then body (blockStart s) (evl / 32 * 32) else body s.me.vec.vstart.toNat evl

/-- The engine of a form: 0 copy, 1 gather/scatter (spec/12_atomics_engines.md R266, R272). -/
def engineOf : CmdForm → Nat
  | .gsg | .gss => 1
  | _ => 0

/-- The context of a command's accesses (spec/12_atomics_engines.md R276). -/
def cmdCtx (s : State) (c : Command) : XCtx :=
  { hartCtx s (hartOf s c.owner) c.owner (.engine c.owner.die (engineOf c.form)) c.mode none with task := c.task }

/-- The key of the tile byte at an offset of the TILE space, where the access resolves. -/
def tileAt (s : State) (c : XCtx) (acc : Acc) (a : Int) : Option Nat :=
  match resolveAt s c 1 0 acc a with
  | .ok (.mem k) => some k
  | _ => none

/-- The bytes of tile memory that a command of the hart has still to write (R225), as key and size; a byte that it may not yet
write is where it may be read. -/
def pendingTile (s : State) : List (Nat × Nat) :=
  (s.cmds.filter (fun c => s.me.id = .hart c.owner && c.phase != .final)).flatMap (fun c =>
    match c.dst with
    | none => []
    | some d => if d.space = 1 then
        ((List.range d.count).filter (fun m => c.form == .gss || c.next ≤ m)).filterMap (fun m =>
          ((tileAt s (cmdCtx s c) .write (d.offset m)).or (tileAt s (cmdCtx s c) .read (d.offset m))).map (fun k => (k, d.esz)))
      else [])

/-- Some bytes read through the TILE space, as offset and size, are bytes that a copy of the hart has still to write (R225),
under whatever page each is reached. -/
def arrivalBlocked (s : State) (c : XCtx) (reads : List (Int × Nat)) : Bool :=
  (pendingTile s).any (fun p => reads.any (fun r => match tileAt s c .read r.1 with
    | some k => decide (p.1 < k + r.2) && decide (k < p.1 + p.2)
    | none => false))

/-- The bytes of block j that a load reads, in aligned pieces of at most eight. -/
def blockReads (m : MemAt) (t j : Nat) : List (Int × Nat) :=
  (List.range (payBits t / 2)).map (fun q => (m.payload t j + ((8 * q : Nat) : Int), 8)) ++ [(m.scale t j, 2)]

/-- An arrival-chained load reads a byte that a copy of the hart has still to write (R225). -/
def arrivalDue (op : VOp) (w : VWord) (s : State) (m : MemAt) (is : List Nat) : Bool :=
  let t := w.vt.val
  let pos := position op m.stride (srcElem s.me.vec.regs (idxTy t) (lanesIn s) (viFld w)) (idxTy t) (fun _ => 0)
  w.ac == 1 && m.space == 1 &&
  arrivalBlocked s m.ctx (if blkTy t then ((is.map (· / 32)).eraseDups).flatMap (blockReads m t)
    else is.map (fun i => (m.half t (pos i) / 2, elemBytes t)))

/-- How a load ends: complete, stopped with a trap at an element, or, for `vldff` past its first active element, trimmed
(R223, R224). -/
def loadEnd (op : VOp) (t d : Nat) (s : State) (v : VRegs) (written scales : List Nat) (first : Option Nat)
    (f : Option (Nat × Flt)) : Ans :=
  let vec := clearV { s.me.vec with regs := v } t (lanesIn s) d written scales
  match f with
  | none => .done (vfinish s vec 0#5)
  | some (k, e) =>
    if op = .vldff ∧ first ≠ some k then
      let s' := vfinish s { vec with vlLen := BitVec.ofNat 17 k } 0#5
      .done { s' with me := { s'.me with fof := true } }
    else .trap (setVec s { vec with vstart := BitVec.ofNat 17 k }) e.trap

/-- The elements of a block that the mask admits. -/
def activeIn (s : State) (w : VWord) (j : Nat) : List Nat :=
  (List.range 32).filter (fun q => maskBitOf s.me.vec.masks (maskReg w) (32 * j + q))

/-- Load elements (R223). -/
def loadElems (op : VOp) (w : VWord) (s : State) (m : MemAt) (is : List Nat) : Ans :=
  let t := w.vt.val
  let act (i : Nat) := maskBitOf s.me.vec.masks (maskReg w) i
  let pos := position op m.stride (srcElem s.me.vec.regs (idxTy t) (lanesIn s) (viFld w)) (idxTy t) (fun _ => 0)
  let r := loadLoop (fun i => elemLoad s m t (pos i)) (putLoaded s t w) act is s.me.vec.regs
  loadEnd op t w.vd.val s r.1 [] [] (is.find? act) r.2

/-- Load blocks (R87, R223): a fault in a block stops at its first element. -/
def loadBlocks (op : VOp) (w : VWord) (s : State) (m : MemAt) (is : List Nat) : Ans :=
  let t := w.vt.val
  let js := (is.map (· / 32)).eraseDups
  let act (j : Nat) := !(activeIn s w j).isEmpty
  let r := loadLoop (fun j => blockLoad s m t j (activeIn s w j)) (putBlock s t w) act js s.me.vec.regs
  let got := match r.2 with
    | none => is
    | some (k, _) => is.filter (fun i => i / 32 < k)
  loadEnd op t w.vd.val s r.1 (got.filter (fun i => maskZ w || maskBitOf s.me.vec.masks (maskReg w) i))
    ((got.map (· / 32)).filter act)
    ((js.find? act).map (32 * ·)) (r.2.map (fun p => (32 * p.1, p.2)))

/-- The g registers that a memory form reads, and its mask. -/
def memUnits (op : VOp) (w : VWord) : List RegUnit :=
  maskUnits w ++ [RegUnit.g w.gb] ++ (if strideForm op then [RegUnit.g (srcN (viFld w))] else [])

/-- The loads of a form, by elements or by blocks. -/
def loadBody (op : VOp) (w : VWord) (s : State) : Ans :=
  if blkTy w.vt.val then loadBlocks op w s (memAt op w s) (memBody op w.vt.val s)
  else loadElems op w s (memAt op w s) (memBody op w.vt.val s)

/-- A load (R219-R225). -/
def loadAns (op : VOp) (w : VWord) (s : State) : Ans :=
  let t := w.vt.val
  let m := memAt op w s
  let act := activeOf s w (memBody op t s)
  withUnits s (memUnits op w)
    (match memCheck op t m with
     | some (c, x) => .trap s (Trap.sync c x)
     | none =>
       withUnits s (if indexForm op then srcUnits (idxTy t) (lanesIn s) (viFld w) act else [])
         (if arrivalDue op w s m act then .wait s else loadBody op w s))

/-- `loadAns` as an instruction. -/
def loadInline (op : VOp) (w : VWord) (s : State) : Host.Outcome State Fault Refusal :=
  node op w s (loadAns op w)

/-! ### Stores -/

/-- Translate the accesses of a store in order, until one faults (R226, phase 1). -/
def storePlan {α : Type} (f : α → Except Flt (List MemWr)) : List α → List MemWr × Option (α × Flt)
  | [] => ([], none)
  | i :: l =>
    match f i with
    | .error e => ([], some (i, e))
    | .ok ws =>
      let r := storePlan f l
      (ws ++ r.1, r.2)

/-- Commit the writes below the fault, if any (R226, phase 2). -/
def storeEnd (s : State) (p : List MemWr × Option (Nat × Flt)) : Ans :=
  let s' := p.1.foldl MemWr.apply s
  match p.2 with
  | none => .done (vfinish s' s'.me.vec 0#5)
  | some (k, f) => .trap (setVec s' { s'.me.vec with vstart := BitVec.ofNat 17 k }) f.trap

/-- The writes of element i of a store. -/
def storeElem (s : State) (m : MemAt) (t : Nat) (p : Int) (v : Nat) : Except Flt (List MemWr) :=
  match elemPlace s m t .write p with
  | .error f => .error f
  | .ok l => .ok [elemWr m t p l v]

/-- The writes of a store, and its fault, if it has one: the plan of its active elements or blocks (R226, R227). -/
def storeWrites (op : VOp) (w : VWord) (s : State) : List MemWr × Option (Nat × Flt) :=
  let t := w.vt.val
  let L := lanesIn s
  let v := s.me.vec.regs
  let m := memAt op w s
  let act := activeOf s w (memBody op t s)
  let below := countBelow (fun i => maskBitOf s.me.vec.masks (maskReg w) i)
  let pos := position op m.stride (srcElem v (idxTy t) L (viFld w)) (idxTy t) below
  if blkTy t then
    let r := storePlan (fun j => blockAccess s m t .write j
        ((activeIn s w j).map (fun q => (q, elemAt v t L w.vd.val (32 * j + q)))) (scaleAt v w.vd.val j))
      (act.map (· / 32)).eraseDups
    (r.1, r.2.map (fun p => (32 * p.1, p.2)))
  else storePlan (fun i => storeElem s m t (pos i) (elemAt v t L w.vd.val i)) act

/-- A store (R219-R222, R226, R227). -/
def storeAns (op : VOp) (w : VWord) (s : State) : Ans :=
  let t := w.vt.val
  let act := activeOf s w (memBody op t s)
  withUnits s (memUnits op w)
    (match memCheck op t (memAt op w s) with
     | some (c, x) => .trap s (Trap.sync c x)
     | none =>
       withUnits s ((if indexForm op then srcUnits (idxTy t) (lanesIn s) (viFld w) act else []) ++
           granules t (lanesIn s) w.vd.val act ++
           (if blkTy t then scaleUnits (lanesIn s) w.vd.val (act.map (· / 32)) else []))
         (storeEnd s (storeWrites op w s)))

/-- `storeAns` as an instruction. -/
def storeInline (op : VOp) (w : VWord) (s : State) : Host.Outcome State Fault Refusal :=
  node op w s (storeAns op w)

/-! ### Scatter-reduce (spec/12_atomics_engines.md R257-R260) -/

/-- `combine` of a scatter-reduce element (R258). -/
def srdElem (op : VOp) (t : Nat) (r : RMode) (u x : Nat) : FRes :=
  redElem (match op with
    | .vsrduMin => .vredmin
    | .vsrduMax => .vredmax
    | .vsrduAnd => .vredand
    | .vsrduOr => .vredor
    | .vsrduXor => .vredxor
    | _ => .vredosum) t r u x

/-- Apply one update: one read and one write of its unit. -/
def srdApply (op : VOp) (t : Nat) (a : State × BitVec 5) (x : Loc × RMode × Nat) : State × BitVec 5 :=
  let y := srdElem op t x.2.1 (readLoc a.1 x.1 (elemBytes t)) x.2.2
  (writeLoc a.1 x.1 (elemBytes t) y.1, a.2 ||| y.2)

/-- Translate the places of some updates in order, until one faults; each needs read and write permission. -/
def srdPlan {α : Type} (f : α → Except Flt (Loc × RMode × Nat)) :
    List α → List (Loc × RMode × Nat) × Option (α × Flt)
  | [] => ([], none)
  | i :: l =>
    match f i with
    | .error e => ([], some (i, e))
    | .ok x =>
      let r := srdPlan f l
      (x :: r.1, r.2)

/-- The updates of a scatter-reduce, and its fault, if it has one: each active element's place, mode and value. -/
def srdUpdates (op : VOp) (w : VWord) (s : State) : List (Loc × RMode × Nat) × Option (Nat × Flt) :=
  let t := w.vt.val
  let L := lanesIn s
  let v := s.me.vec.regs
  let m := memAt op w s
  let pos := position op m.stride (srcElem v (idxTy t) L (viFld w)) (idxTy t) (fun _ => 0)
  srdPlan (fun i => match elemPlace s m t .both (pos i) with
    | .error f => .error f
    | .ok l => .ok (l, modeAt s w i, elemAt v t L w.vd.val i)) (activeOf s w (memBody op t s))

/-- Inline scatter-reduce (R258): ascending element order, one of the orders R259 allows `vsrdu` (log 1). -/
def srdAns (op : VOp) (w : VWord) (s : State) : Ans :=
  let t := w.vt.val
  let L := lanesIn s
  let act := activeOf s w (memBody op t s)
  withUnits s (memUnits op w)
    (match memCheck op t (memAt op w s) with
     | some (c, x) => .trap s (Trap.sync c x)
     | none =>
       withUnits s (srcUnits (idxTy t) L (viFld w) act ++ granules t L w.vd.val act)
         (let p := srdUpdates op w s
          let r := p.1.foldl (srdApply op t) (s, 0#5)
          let s' := vfinish r.1 r.1.me.vec r.2
          match p.2 with
          | none => .done s'
          | some (k, f) => .trap (setVec s' { s'.me.vec with vstart := BitVec.ofNat 17 k }) f.trap))

/-- `srdAns` as an instruction. -/
def srdInline (op : VOp) (w : VWord) (s : State) : Host.Outcome State Fault Refusal :=
  node op w s (srdAns op w)

/-- VLD: Unit-stride vector load, precise at the lowest faulting element. (R223) -/
def execVld (w : VWord) (s : State) : Host.Outcome State Fault Refusal :=
  loadInline .vld w s

/-- VLD_ST: Strided vector load. (R223) -/
def execVldSt (w : VWord) (s : State) : Host.Outcome State Fault Refusal :=
  loadInline .vldSt w s

/-- VLD_IX: Indexed vector load. (R223) -/
def execVldIx (w : VWord) (s : State) : Host.Outcome State Fault Refusal :=
  loadInline .vldIx w s

/-- VLDFF: Fault-first load that trims VL at a later faulting element. (R224) -/
def execVldff (w : VWord) (s : State) : Host.Outcome State Fault Refusal :=
  loadInline .vldff w s

/-- VST: Unit-stride vector store in translation and commit phases. (R226) -/
def execVst (w : VWord) (s : State) : Host.Outcome State Fault Refusal :=
  storeInline .vst w s

/-- VST_ST: Strided vector store. (R226) -/
def execVstSt (w : VWord) (s : State) : Host.Outcome State Fault Refusal :=
  storeInline .vstSt w s

/-- VST_IX: Indexed vector store. (R226) -/
def execVstIx (w : VWord) (s : State) : Host.Outcome State Fault Refusal :=
  storeInline .vstIx w s

/-- VCOMPRESS_ST: Stores selected elements to consecutive positions. (R227) -/
def execVcompressSt (w : VWord) (s : State) : Host.Outcome State Fault Refusal :=
  storeInline .vcompressSt w s

/-- VSRDO_ADD: Ordered scatter-add into memory in element order. (R258) -/
def execVsrdoAdd (w : VWord) (s : State) : Host.Outcome State Fault Refusal :=
  srdInline .vsrdoAdd w s

/-- VSRDU_ADD: Unordered integer scatter-add into memory. (R258) -/
def execVsrduAdd (w : VWord) (s : State) : Host.Outcome State Fault Refusal :=
  srdInline .vsrduAdd w s

/-- VSRDU_MIN: Unordered scatter-minimum into memory. (R258) -/
def execVsrduMin (w : VWord) (s : State) : Host.Outcome State Fault Refusal :=
  srdInline .vsrduMin w s

/-- VSRDU_MAX: Unordered scatter-maximum into memory. (R258) -/
def execVsrduMax (w : VWord) (s : State) : Host.Outcome State Fault Refusal :=
  srdInline .vsrduMax w s

/-- VSRDU_AND: Unordered scatter-AND into memory. (R258) -/
def execVsrduAnd (w : VWord) (s : State) : Host.Outcome State Fault Refusal :=
  srdInline .vsrduAnd w s

/-- VSRDU_OR: Unordered scatter-OR into memory. (R258) -/
def execVsrduOr (w : VWord) (s : State) : Host.Outcome State Fault Refusal :=
  srdInline .vsrduOr w s

/-- VSRDU_XOR: Unordered scatter-XOR into memory. (R258) -/
def execVsrduXor (w : VWord) (s : State) : Host.Outcome State Fault Refusal :=
  srdInline .vsrduXor w s

end Machine
end Sys2Proof
end

