-- ==== Sys2Proof/Machine/Engines.lean ====
section
/-! DEFINITION. Tensor descriptors, engine commands and their steps (spec/12_atomics_engines.md R261-R278). -/

namespace Sys2Proof
namespace Machine

/-! ### Descriptors (R262-R264) -/

/-- The descriptor of an image, as R262 lays it out. -/
def descOf (w : Vector Word 8) : Desc where
  base := w[0].toNat % 2 ^ 55
  dir := w[1].toNat / 2 ^ 7 % 4
  space := w[1].toNat / 2 ^ 5 % 4
  esz := 2 ^ (w[1].toNat % 4)
  dims := (List.range (w[1].toNat / 4 % 8)).map (fun j =>
    ((w.toList.getD (2 + j) 0#64).toNat % 2 ^ 32, sx 32 ((w.toList.getD (2 + j) 0#64).toNat / 2 ^ 32)))

/-- The image keeps the zero fields of R262, and NDIM is 1-5. -/
def imageOk (w : Vector Word 8) : Bool :=
  let nd := w[1].toNat / 4 % 8
  w[0].toNat / 2 ^ 55 == 0 && w[1].toNat / 2 ^ 9 == 0 && w[7] == 0#64 && 1 ≤ nd && nd ≤ 5 &&
  (List.range 5).all (fun j => j < nd || w.toList.getD (2 + j) 0#64 == 0#64)

/-- The limit of a space (R264). -/
def spaceLimit (space : Nat) : Nat := if space = 0 then winBase else tileBytes

/-- The code of `dmk` (R264). -/
def dmkCode (w : Vector Word 8) (gb gc : Nat) : Nat :=
  let d := descOf w
  if !imageOk w then 1
  else if d.dims.any (fun p => p.1 == 0) || 2 ^ 40 < d.count then 2
  else if d.base % d.esz ≠ 0 then 3
  else if d.space = 3 ∨ (d.space = 2 ∧ Config.hasFeature 101 = false) then 4
  else if d.lo < 0 ∨ (spaceLimit d.space : Int) ≤ d.hi ∨ d.lo < gb ∨ (gb : Int) + gc ≤ d.hi ∨ gc = 0 then 5
  else 0

/-- `dmk` (R263). -/
def dmkInline (w : VWord) (s : State) : Host.Outcome State Fault Refusal :=
  node .dmk w s (fun s =>
    let ga := rd s (regOf w.ga)
    withUnits s [RegUnit.g w.ga, RegUnit.g w.gbG, RegUnit.g w.gc]
      (if ga.toNat % 8 ≠ 0 then .trap s (Trap.sync cAlign ga)
       else match readDwords s (vectorCtx s) ga.toNat 8 with
         | .error f => .trap s f.trap
         | .ok l =>
           let code := dmkCode (vec8 l) (rd s (regOf w.gbG)).toNat (rd s (regOf w.gc)).toNat
           let v := s.me.vec
           let v' := if code = 0 then
               { v with descs := v.descs.set (w.f2.val % 16) (some (descOf (vec8 l))) (Nat.mod_lt _ (by decide)) }
             else v
           gdone (setVec s v') w.gd (BitVec.ofNat 64 code)))

/-! ### Issue (R265, R266) -/

/-- A command of a hart with a ticket. -/
def commandOf (s : State) (h : HartId) (t : Nat) : Option Command :=
  s.cmds.find? (fun c => c.owner = h && c.ticket == t)
/-- Put a command back. -/
def putCommand (s : State) (c : Command) : State :=
  { s with cmds := s.cmds.map (fun x => if x.owner = c.owner && x.ticket == c.ticket then c else x) }

/-- Issue has to wait: the ticket that leaves the 16 most recent is outstanding, so that every outstanding ticket stays
among them (R265, R274). -/
def issueFull (s : State) (h : HartId) : Bool :=
  match commandOf s h (s.me.vec.tickets - 15) with
  | some c => 16 ≤ s.me.vec.tickets && c.phase != .final
  | none => false

/-- The command that a word issues; the descriptor written is `dst`. -/
def newCommand (s : State) (h : HartId) (form : CmdForm) (dst src : Option Desc) (ga gb : Word) (cid : Option Nat) (ticket : Nat) : Command where
  owner := h
  ticket := ticket
  task := (hartOf s h).task
  form := form
  mode := (hartOf s h).mode
  dst := dst
  src := src
  ga := ga
  gb := gb
  cid := cid
  phase := .issued
  code := 2
  next := 0
  counts := none
  written := 0
  clipped := false
  charged := 0

/-- Issue a command: the next ticket, and its status among the 16 most recent (R265, R274). -/
def issueInline (op : VOp) (form : CmdForm) (w : VWord) (s : State) : Host.Outcome State Fault Refusal :=
  node op w s (fun s =>
    withUnits s [RegUnit.g w.ga, RegUnit.g w.gbG]
      (match s.me.id with
       | .cc _ => .done s
       | .hart h =>
         if issueFull s h then .wait s
         else
           let v := s.me.vec
           let t := v.tickets + 1
           let k := w.f2.val
           let d (n : Nat) := v.descs[n % 16]'(Nat.mod_lt _ (by decide))
           let c := newCommand s h form (d k) (d (k / 16)) (rd s (regOf w.ga)) (rd s (regOf w.gbG)) none t
           let s := { s with cmds := s.cmds.filter (fun x => !(x.owner == h && x.ticket + 16 ≤ t)) ++ [c] }
           gdone (setVec s { v with tickets := t }) w.gd (BitVec.ofNat 64 t)))

/-! ### Status (R272-R274) -/

/-- The status word of a command. -/
def cmdStatus (c : Command) : Word :=
  BitVec.ofNat 64 (min c.written 0xFFFFFFFF * 2 ^ 32 + engineOf c.form * 2 ^ 8 + (if c.phase = .final then c.code else 2))
/-- What a ticket reads: UNKNOWN when it is not held. -/
def ticketStatus (s : State) (h : HartId) (t : Nat) : Word :=
  match commandOf s h t with
  | some c => if t = 0 ∨ s.me.vec.tickets < t ∨ t + 16 ≤ s.me.vec.tickets then 12#64 else cmdStatus c
  | none => 12#64

/-- `ewait` and `estat` (R274). -/
def statusInline (op : VOp) (waits : Bool) (w : VWord) (s : State) : Host.Outcome State Fault Refusal :=
  node op w s (fun s =>
    withUnits s [RegUnit.g w.ga]
      (match s.me.id with
       | .cc _ => .done s
       | .hart h =>
         let x := ticketStatus s h (rd s (regOf w.ga)).toNat
         if waits && x.toNat % 256 == 2 then .wait s else gdone s w.gd x))

/-! ### Checks (R267-R271) -/

/-- The virtual addresses of a footprint, as a closed range. -/
def footprint (d : Desc) : Int × Int :=
  let b : Int := match d.space with
    | 0 => 0
    | 1 => (winBase : Int)
    | _ => ((winPeer + d.dir * 0x4000000 : Nat) : Int)
  (b + d.lo, b + d.hi)

/-- ga of `cpyt` names a permutation (R269): the places p0-p4. -/
def permOf (ga : Word) : List Nat := (List.range 5).map (fun j => ga.toNat / 8 ^ j % 8)
/-- The shape test of `cpyt` (R269). -/
def cpytShape (d s : Desc) (ga : Word) : Bool :=
  let n := d.dims.length
  let p := permOf ga
  ga.toNat / 2 ^ 15 == 0 && n == s.dims.length &&
  (List.range n).all (fun j => (p.take n).contains j) &&
  (List.range 5).all (fun j => j < n || p.getD j 0 == j) &&
  (List.range n).all (fun j => (d.dims.getD j (0, 0)).1 == (s.dims.getD (p.getD j 0) (0, 0)).1)

/-- Segments of a `winnow` source (R271): the indices of its last dimension, one where it has one dimension. -/
def segments (d : Desc) : Nat := if d.dims.length ≤ 1 then 1 else (d.dims.getLastD (1, 0)).1

/-- The ranges a command reads and writes, and whether it writes each (R267). -/
def cmdRanges (c : Command) (d s : Desc) : List ((Int × Int) × Bool) :=
  let idx (n : Nat) : (Int × Int) × Bool := (((c.ga.toNat : Int), (c.ga.toNat : Int) + 4 * n - 1), false)
  [(footprint d, true), (footprint s, false)] ++
  (match c.form with
   | .gsg => [idx d.count]
   | .gss => [idx s.count]
   | .winnow => [idx (segments s), (((c.gb.toNat : Int), (c.gb.toNat : Int) + 7), true)]
   | _ => [])

/-- Two ranges intersect and one is written. -/
def clash (a b : (Int × Int) × Bool) : Bool :=
  (a.2 || b.2) && decide (a.1.1 ≤ b.1.2) && decide (b.1.1 ≤ a.1.2)
/-- Some two ranges of a list clash. -/
def anyClash : List ((Int × Int) × Bool) → Bool
  | [] => false
  | a :: l => l.any (clash a) || anyClash l

/-- The code with which an engine refuses a command, if it does (R267). -/
def refuseCode (c : Command) : Option Nat :=
  match c.dst, c.src with
  | some d, some s =>
    if d.space = 2 then some 5
    else if d.esz ≠ s.esz then some 4
    else if c.form = .cpy ∧ d.count ≠ s.count then some 4
    else if c.form = .cpyt ∧ cpytShape d s c.ga = false then some 4
    else if (c.form = .gsg ∨ c.form = .gss ∨ c.form = .winnow) ∧ c.ga.toNat % 4 ≠ 0 then some 8
    else if c.form = .winnow ∧ c.gb.toNat % 8 ≠ 0 then some 8
    else if anyClash (cmdRanges c d s) then some 3
    else none
  | _, _ => some 5

/-! ### Progress (R268-R276) -/

/-- Charge lane-cycles to a task: past the grant they are overdraft (spec/14_harts_kiln.md R337, R338). -/
def charge (s : State) (t : Option EntryId) (n : Nat) : State :=
  match t.bind (entryOf s) with
  | none => s
  | some e => putEntry s { e with left := e.left - n, overdraft := e.overdraft + (n - e.left) }

/-- Charge what a command owes: a work unit for each 256 bytes written, and at its end for the last part (R278). -/
def billCommand (s : State) (c : Command) (final : Bool) : State × Command :=
  let b := c.written * (c.dst.map (fun d => d.esz)).getD 1
  let due := if final then (b + 255) / 256 else b / 256
  (charge s c.task (128 * (due - c.charged)), { c with charged := max c.charged due })

/-- End a command with a code. -/
def endCommand (s : State) (c : Command) (code : Nat) : State :=
  let (s, c) := billCommand s c true
  putCommand s { c with phase := .final, code := code }

/-- Read an n32 of an index or count array. -/
def readIndex (s : State) (c : Command) (k : Nat) : Except Flt Nat := readIn s (cmdCtx s c) (c.ga.toNat + 4 * k) 4

/-- The linear indices of destination and source for step m: none where nothing is written, or where zero is (R268-R271). -/
def elemPair (s : State) (c : Command) (d sr : Desc) (m : Nat) : Except Flt (Option Nat × Option (Nat ⊕ List Nat)) :=
  match c.form with
  | .cpy => .ok (some m, some (.inl m))
  | .cpyt =>
    let i := splitIndex d.dims m
    let p := permOf c.ga
    .ok (some m, some (.inr ((List.range d.dims.length).map (fun k =>
      i.getD ((List.range d.dims.length).findIdx (fun j => p.getD j 0 == k)) 0))))
  | .gsg =>
    match readIndex s c m with
    | .error f => .error f
    | .ok x => .ok (some m, if x < sr.count then some (.inl x) else none)
  | .gss =>
    match readIndex s c m with
    | .error f => .error f
    | .ok x => .ok (if x < d.count then some x else none, some (.inl m))
  | .winnow =>
    let cap := sr.count / max 1 (segments sr)
    let order := ((c.counts.getD []).zipIdx).flatMap (fun p => (List.range p.1).map (fun q => p.2 * cap + q))
    .ok (some m, some (.inl (order.getD m 0)))

/-- Steps of a command. -/
def cmdTotal (c : Command) (d sr : Desc) : Nat :=
  match c.form with
  | .gss => sr.count
  | .winnow => (c.counts.getD []).foldl (· + ·) 0
  | _ => d.count

/-- Do one step: read the source element, write the destination element. -/
def engineElem (s : State) (c : Command) (d sr : Desc) : Except Flt (State × Command) :=
  match elemPair s c d sr c.next with
  | .error f => .error f
  | .ok (none, _) => .ok (s, { c with next := c.next + 1, clipped := true })
  | .ok (some m, from?) =>
    let ctx := cmdCtx s c
    let v : Except Flt Nat := match from? with
      | none => .ok 0
      | some k =>
        match resolveAt s ctx sr.space sr.dir .read (match k with
          | .inl n => sr.offset n
          | .inr is => sr.at_ is) with
        | .error f => .error f
        | .ok l => .ok (readLoc s l sr.esz)
    match v with
    | .error f => .error f
    | .ok x =>
      match resolveAt s ctx d.space d.dir .write (d.offset m) with
      | .error f => .error f
      | .ok l => .ok (writeLoc s l d.esz x,
          { c with next := c.next + 1, written := c.written + 1, clipped := c.clipped || from?.isNone })

/-- Read the counts of a `winnow`. -/
def readCounts (s : State) (c : Command) : Nat → Nat → Except Flt (List Nat)
  | 0, _ => .ok []
  | n + 1, k =>
    match readIndex s c k with
    | .error f => .error f
    | .ok x =>
      match readCounts s c n (k + 1) with
      | .error f => .error f
      | .ok l => .ok (x :: l)

/-- Write the total of a `winnow`, after every element write (R271, R275). -/
def winnowTotal (s : State) (c : Command) : Except Flt State :=
  if c.form = .winnow then writeIn s (cmdCtx s c) c.gb.toNat 8 c.next else .ok s

/-- Go on for at most `fuel` steps, or to the next checkpoint, or to the end: a checkpoint falls after each 256 bytes
written (R277). -/
def engineGo (d sr : Desc) (toCheck : Bool) : Nat → State → Command → EngineRes
  | 0, s, c => { s := s, c := c, fault := none, code := none }
  | fuel + 1, s, c =>
    if cmdTotal c d sr ≤ c.next then
      match winnowTotal s c with
      | .error f => { s := s, c := c, fault := some f, code := none }
      | .ok s' => { s := s', c := c, fault := none, code := some (if c.clipped then 1 else 0) }
    else
      match engineElem s c d sr with
      | .error f => { s := s, c := c, fault := some f, code := none }
      | .ok (s', c') =>
        if toCheck && c'.written != c.written && c'.written * d.esz % 256 == 0 then
          { s := s', c := c', fault := none, code := none }
        else engineGo d sr toCheck fuel s' c'

/-- A fault that stalls a command: `PFAULT`, or `PROT` for a permission the leaf lacks (R276). -/
def stalls (f : Flt) : Bool := f.cause == cPfault || (f.cause == cProt && f.perm)

/-- Advance a running command to its next checkpoint, or as far as it goes; a fault that does not stall it ends it with
POISON or FAULT (R276). -/
def advance (s : State) (c : Command) (toCheck : Bool) : EngineRes :=
  match c.dst, c.src with
  | some d, some sr =>
    let go (c : Command) : EngineRes :=
      let r := engineGo d sr toCheck (cmdTotal c d sr - c.next + 1) s c
      match r.fault with
      | some f => if stalls f then r else { r with fault := none, code := some (if f.cause = cPoison then 7 else 6) }
      | none => r
    if c.form = .winnow ∧ c.counts = none then
      match readCounts s c (segments sr) 0 with
      | .error f =>
        if stalls f then { s := s, c := c, fault := some f, code := none }
        else { s := s, c := c, fault := none, code := some (if f.cause = cPoison then 7 else 6) }
      | .ok l =>
        if l.any (fun x => decide (sr.count / max 1 (segments sr) < x)) then
          { s := s, c := c, fault := none, code := some 9 }
        else if d.count < l.foldl (· + ·) 0 then { s := s, c := c, fault := none, code := some 10 }
        else go { c with counts := some l }
    else go c
  | _, _ => { s := s, c := c, fault := none, code := some 5 }

/-! ### The steps of a command -/

/-- The task of a command is pre-empted (R277) or held for its budget (spec/14_harts_kiln.md R338), or its hart is halted
(spec/17_traps.md R414). -/
def taskPaused (s : State) (h : HartId) (t : Option EntryId) : Bool :=
  (hartOf s h).halted ||
  (match t.bind (entryOf s) with
   | some e => e.state == .preempted || e.exhausted
   | none => false)

/-- A command that can go on: running, or paused with its task resumed (R277). -/
def goesOn (s : State) (c : Command) : Bool :=
  (c.phase == .running || c.phase == .paused) && !taskPaused s c.owner c.task

/-- Do a step of a command, when it is held. -/
def withCommand (s : State) (h : HartId) (t : Nat) (f : Command → State) : Host.Outcome State Fault Refusal :=
  match commandOf s h t with
  | some c => .next (f c)
  | none => .next s


/-- COMMAND_ACCEPT: An engine accepts and checks a command, refusing it or starting it. (R267); commands of a hart
start in ticket order (R275) -/
def execCommandAccept (h : HartId) (ticket : Nat) (s : State) : Host.Outcome State Fault Refusal :=
  withCommand s h ticket (fun c =>
    if c.phase = .issued ∧ taskPaused s c.owner c.task = false ∧
        s.cmds.all (fun x => !(x.owner == h && x.ticket < ticket && x.phase == .issued)) then
      match refuseCode c with
      | some n => putCommand s { c with phase := .final, code := n }
      | none => putCommand s { c with phase := .running }
    else s)

/-- COMMAND_END: An engine command reaches a final status. (R273); a command that a fault stalls does not end (R276) -/
def execCommandEnd (h : HartId) (ticket : Nat) (s : State) : Host.Outcome State Fault Refusal :=
  withCommand s h ticket (fun c =>
    if goesOn s c then
      let r := advance s c false
      match r.code with
      | some n => endCommand r.s r.c n
      | none => s
    else s)

/-- CHECKPOINT_PAUSE: A command pauses or is cancelled at its next checkpoint. (R277); a command whose task is not
pre-empted, or has resumed, goes on from there (R277); the end of its task cancels it at the checkpoint where it stands,
`cancelWork` -/
def execCheckpointPause (h : HartId) (ticket : Nat) (s : State) : Host.Outcome State Fault Refusal :=
  withCommand s h ticket (fun c =>
    if c.phase = .running ∨ goesOn s c then
      let r := advance s c true
      match r.fault, r.code with
      | some _, _ => s
      | none, some n => endCommand r.s r.c n
      | none, none =>
        let (s', c') := billCommand r.s r.c false
        putCommand s' { c' with phase := if taskPaused s c.owner c.task then .paused else .running }
    else s)

/-- ENGINE_STALL: A command stalls on a fault and posts a PAGE record. (R276) -/
def execEngineStall (h : HartId) (ticket : Nat) (s : State) : Host.Outcome State Fault Refusal :=
  withCommand s h ticket (fun c =>
    if goesOn s c then
      let r := advance s c false
      match r.fault with
      | none => s
      | some f =>
        let a := hartOf s h
        let (s', c') := billCommand r.s r.c false
        let (s'', token) := postRecord s' a.ten 1 f.cause 0 (recordVa f.trap) (recordWho h (2 + engineOf c.form) a.asid.toNat)
          (recordEntry c.task) (BitVec.ofNat 64 f.acc.code) (some (.command h ticket))
        putCommand s'' { c' with phase := .stalled token }
    else s)

/-- DMK: Validates a descriptor image and makes descriptor dn, returning a code. (R263) -/
def execDmk (w : VWord) (s : State) : Host.Outcome State Fault Refusal :=
  dmkInline w s

/-- CPY: Issues a copy command between two descriptors. (R268) -/
def execCpy (w : VWord) (s : State) : Host.Outcome State Fault Refusal :=
  issueInline .cpy .cpy w s

/-- CPYT: Issues a transposing copy command. (R269) -/
def execCpyt (w : VWord) (s : State) : Host.Outcome State Fault Refusal :=
  issueInline .cpyt .cpyt w s

/-- GSG: Issues an indexed gather command. (R270) -/
def execGsg (w : VWord) (s : State) : Host.Outcome State Fault Refusal :=
  issueInline .gsg .gsg w s

/-- GSS: Issues an indexed scatter command. (R270) -/
def execGss (w : VWord) (s : State) : Host.Outcome State Fault Refusal :=
  issueInline .gss .gss w s

/-- WINNOW: Issues a compaction command of counted segments. (R271) -/
def execWinnow (w : VWord) (s : State) : Host.Outcome State Fault Refusal :=
  issueInline .winnow .winnow w s

/-- EWAIT: Waits until a ticket is final and returns its status. (R274) -/
def execEwait (w : VWord) (s : State) : Host.Outcome State Fault Refusal :=
  statusInline .ewait true w s

/-- ESTAT: Returns a ticket's status now. (R274) -/
def execEstat (w : VWord) (s : State) : Host.Outcome State Fault Refusal :=
  statusInline .estat false w s

end Machine
end Sys2Proof
end

