-- ==== Sys2Proof/Machine/VecMatrix.lean ====
section
/-! DEFINITION. Matrix mode and accumulator tiles (spec/07_matrix.md R153-R164; spec/04_formats.md R98). -/

namespace Sys2Proof
namespace Machine

/-- The depth K of a matrix type (R153). -/
def mmaK (t : Nat) : Nat := if t = 20 then 128 else if blkTy t then 64 else 32

/-- Column n of an accumulator row. -/
def accCol (x : BitVec 131072) (n : Nat) : Nat := (x.extractLsb' (32 * n) 32).toNat
/-- Replace a column of an accumulator row. -/
def putCol (x : BitVec 131072) (n v : Nat) : BitVec 131072 :=
  (x &&& ~~~(BitVec.ofNat 131072 (2 ^ 32 - 1) <<< (32 * n))) ||| (BitVec.ofNat 131072 (v % 2 ^ 32) <<< (32 * n))
/-- A row of a tile. -/
def accRow (a : Vector (BitVec 131072) 64) (tile row : Nat) : BitVec 131072 :=
  a[(8 * tile + row) % 64]'(Nat.mod_lt _ (by decide))
/-- Replace a row of a tile. -/
def setRow (a : Vector (BitVec 131072) 64) (tile row : Nat) (x : BitVec 131072) : Vector (BitVec 131072) 64 :=
  a.set ((8 * tile + row) % 64) x (Nat.mod_lt _ (by decide))

/-- The lane of an accumulator column: 32 columns to a lane, as spec/17_traps.md R411 lays out the image (DEDUCED, log 17). -/
def colLane (_lanes n : Nat) : Nat := n / 32
/-- The units of columns of a row. -/
def colUnits (lanes tile row : Nat) (ns : List Nat) : List RegUnit :=
  (ns.map (fun n => RegUnit.acc (8 * tile + row) (colLane lanes n))).eraseDups
/-- Clear the poison of the lanes of which every column of a row is written (spec/18_ras.md R419). -/
def clearAcc (v : VecState) (lanes tile row : Nat) (ns : List Nat) : VecState :=
  let i := (8 * tile + row) % 64
  let p := v.pacc[i]'(Nat.mod_lt _ (by decide))
  if p = 0#128 then v
  else
    let full := (List.range 128).filter (fun l => decide (32 ≤ (ns.filter (fun n => colLane lanes n == l)).length))
    { v with pacc := v.pacc.set i (full.foldl (fun x l => x &&& ~~~(1#128 <<< l)) p) (Nat.mod_lt _ (by decide)) }

/-- The product of two finite values, or what R98 says of a special one: none is a NaN block. A zero product has the XOR of the
signs, of an i8 element too, which has no signed zero (DESIGN CHOICE, log 48). -/
def mmaProd (a b : FVal) : FVal :=
  match a, b with
  | .nan _, _ => .nan false
  | _, .nan _ => .nan false
  | .inf s, .inf t => .inf (s != t)
  | .inf s, .fin t n _ => if n = 0 then .nan false else .inf (s != t)
  | .fin s m _, .inf t => if m = 0 then .nan false else .inf (s != t)
  | .fin s m e, .fin t n d => .fin (s != t) (m * n) (e + d)

/-- A finite value as an integer at an exponent no greater than its own. -/
def atExp (x : FVal) (e : Int) : Int :=
  match x with
  | .fin s m d => (if s then -1 else 1) * ((m * 2 ^ (d - e).toNat : Nat) : Int)
  | _ => 0
/-- The exponent of a finite value. -/
def expOf : FVal → Int
  | .fin _ _ e => e
  | _ => 0

/-- The exact sum of some finite products: -0 when every product is -0 (R98). -/
def exactSum (ps : List FVal) : FVal :=
  let e := ps.foldl (fun e p => min e (expOf p)) 0
  let v := ps.foldl (fun v p => v + atExp p e) (0 : Int)
  if v = 0 then .fin (ps.all (fun p => p.isNeg && !ltV p (.fin false 0 0))) 0 e
  else .fin (decide (v < 0)) v.natAbs e

/-- s of a block, before the scales (R98). -/
def blockSum (ps : List FVal) : FVal :=
  if ps.any FVal.isNan || (ps.contains (.inf false) && ps.contains (.inf true)) then .nan true
  else if ps.contains (.inf false) then .inf false
  else if ps.contains (.inf true) then .inf true
  else exactSum ps

/-- A finite value times two scales; a NaN scale gives a NaN that sets NV (R98). -/
def scaleBy (x : FVal) (sa sb : Option (Nat × Int)) : FVal :=
  match sa, sb with
  | some (m, e), some (n, d) =>
    match x with
    | .fin s k f => .fin s (k * m * n) (f + e + d)
    | y => y
  | _, _ => .nan true

/-- The scale of a block of a matrix operand: 1 for bf16 and f16 (R98). -/
def mmaScale (t code : Nat) : Option (Nat × Int) := if blkTy t then s9val code else some (1, 0)
/-- The value of an element of a matrix operand. -/
def mmaVal (t code : Nat) : FVal := if blkTy t then blkVal t code else unpack (fmtOf t) code

/-- The value R156 leaves in one accumulator column: the blocks in ascending k. -/
def mmaCol (t : Nat) (a b : Nat → Nat) (sa sb : Nat → Nat) (acc : Nat) : FRes :=
  (List.range (mmaK t / 32)).foldl (fun (r : FRes) blk =>
    let ps := (List.range 32).map (fun q => mmaProd (mmaVal t (a (32 * blk + q))) (mmaVal t (b (32 * blk + q))))
    let s := scaleBy (blockSum ps) (mmaScale t (sa blk)) (mmaScale t (sb blk))
    let y := addV (fmtOf 9) rne (unpack (fmtOf 9) r.1) s
    (y.1, r.2 ||| y.2)) (acc, 0#5)

/-- The weight columns of a grant (R153): c, the columns of one register. -/
def mmaC (t len lanes : Nat) : Nat := min len (cap t lanes) / mmaK t
/-- B[k][n] of a weight group (R154). -/
def weight (v : VRegs) (t lanes wreg c k n : Nat) : Nat :=
  elemAt v t lanes (wreg + n / c) ((n - n / c * c) * mmaK t + k)
/-- The scale of block b of column n (R154). -/
def weightScale (v : VRegs) (t wreg c b n : Nat) : Nat :=
  scaleAt v (wreg + n / c) (((n - n / c * c) * mmaK t + 32 * b) / 32)

/-- One row of `vmma`: the columns of a mask, with A row r of register `areg`. -/
def mmaRow (s : State) (t areg wreg c tile : Nat) (w : VWord) (acc : Vector (BitVec 131072) 64 × BitVec 5) (r : Nat) :
    Vector (BitVec 131072) 64 × BitVec 5 :=
  let v := s.me.vec.regs
  let L := lanesIn s
  let x := (List.range (8 * c)).foldl (fun (x : BitVec 131072 × BitVec 5) n =>
    if maskBitOf s.me.vec.masks (maskReg w) n then
      let y := mmaCol t (fun k => elemAt v t L areg (r * mmaK t + k)) (fun k => weight v t L wreg c k n)
        (fun b => scaleAt v areg (r * mmaK t / 32 + b)) (fun b => weightScale v t wreg c b n) (accCol x.1 n)
      (putCol x.1 n y.1, x.2 ||| y.2)
    else if maskZ w then (putCol x.1 n 0, x.2) else x) (accRow acc.1 tile r, acc.2)
  (setRow acc.1 tile r x.1, x.2)

/-- The units that hold one row of A or one column of B: mmaK elements of a register from an element on, and the scales of a
block type. -/
def mmaUnits (t lanes reg lo : Nat) : List RegUnit :=
  granules t lanes reg (List.range' lo (mmaK t)) ++
  scaleUnits lanes reg (if blkTy t then List.range' (lo / 32) (mmaK t / 32) else [])
/-- The units of some columns of a weight group (R154). -/
def weightUnits (t lanes wreg c : Nat) (cols : List Nat) : List RegUnit :=
  cols.flatMap (fun n => mmaUnits t lanes (wreg + n / c) ((n - n / c * c) * mmaK t))

/-- Inline `vmma` with G rows (R155, R156). It reads A and the columns of B that the mask admits; a poisoned unit of any row is
reported before the first row, with `VSTART` unchanged (DESIGN CHOICE, log 44). -/
def mmaAns (g : Nat) (w : VWord) (s : State) : Ans :=
  let t := w.vt.val
  let L := lanesIn s
  let c := mmaC t s.me.vec.vlLen.toNat L
  let tile := w.vd.val
  let rows := body (s.me.vec.vstart.toNat / mmaK t) g
  let act := activeOf s w (List.range (8 * c))
  let ns := if maskZ w then List.range (8 * c) else act
  let us := maskUnits w ++
    (if act = [] then [] else rows.flatMap (fun r => mmaUnits t L (srcN w.f1) (r * mmaK t))) ++
    weightUnits t L (srcN w.f2) c act ++ rows.flatMap (fun r => colUnits L tile r act)
  withUnits s (if c = 0 ∨ rows = [] then [] else us)
    (let r := rows.foldl (mmaRow s t (srcN w.f1) (srcN w.f2) c tile w) (s.me.vec.acc, 0#5)
     let v := rows.foldl (fun v row => clearAcc v L tile row ns) { s.me.vec with acc := r.1 }
     .done (vfinish s v r.2))

/-- `mmaAns` as an instruction. -/
def mmaInline (op : VOp) (g : Nat) (w : VWord) (s : State) : Host.Outcome State Fault Refusal :=
  node op w s (mmaAns g w)

/-- Columns that `vaccrd` and `vaccwr` reach (R161). -/
def accBody (s : State) : List Nat := body s.me.vec.vstart.toNat (min s.me.vec.vlLen.toNat (32 * lanesIn s))

/-- `vaccrd` (R161). -/
def accrdAns (w : VWord) (s : State) : Ans :=
  let L := lanesIn s
  let row := srcN w.f3
  let ns := accBody s
  let act := activeOf s w ns
  withUnits s (maskUnits w ++ colUnits L (w.f1.val % 8) row act)
    (let d := regOf w.vd.val
     let v := s.me.vec
     let r := ns.foldl (elemStep s 9 w (fun n => (accCol (accRow v.acc (w.f1.val % 8) row) n, 0#5))) (v.regs.data[d], 0#5)
     let v' := { v with regs := { v.regs with data := v.regs.data.set d r.1 } }
     .done (vfinish s v' 0#5))

/-- `accrdAns` as an instruction. -/
def accrdInline (w : VWord) (s : State) : Host.Outcome State Fault Refusal :=
  node .vaccrd w s (accrdAns w)

/-- `vaccwr` (R161). -/
def accwrAns (w : VWord) (s : State) : Ans :=
  let L := lanesIn s
  let row := srcN w.f3
  let ns := accBody s
  let act := activeOf s w ns
  withUnits s (maskUnits w ++ srcUnits 9 L w.f1 act)
    (let v := s.me.vec
     let x := ns.foldl (fun x n =>
       if maskBitOf v.masks (maskReg w) n then putCol x n (srcElem v.regs 9 L w.f1 n)
       else if maskZ w then putCol x n 0 else x) (accRow v.acc w.vd.val row)
     .done (vfinish s (clearAcc { v with acc := setRow v.acc w.vd.val row x } L w.vd.val row
       (if maskZ w then ns else act)) 0#5))

/-- `accwrAns` as an instruction. -/
def accwrInline (w : VWord) (s : State) : Host.Outcome State Fault Refusal :=
  node .vaccwr w s (accwrAns w)

/-- A tile of zeros, with no poison. -/
def clearTile (v : VecState) (tile : Nat) : VecState :=
  (List.range 8).foldl (fun v r =>
    { v with acc := setRow v.acc tile r 0#131072
             pacc := v.pacc.set ((8 * tile + r) % 64) 0#128 (Nat.mod_lt _ (by decide)) }) v

/-- `vaccz` (R161). -/
def acczAns (w : VWord) (s : State) : Ans :=
  .done (vfinish s (clearTile s.me.vec w.vd.val) 0#5)

/-- `acczAns` as an instruction. -/
def acczInline (w : VWord) (s : State) : Host.Outcome State Fault Refusal :=
  node .vaccz w s (acczAns w)

/-- VWLOAD: Copies a weight group into the lanes' weight latches. (R158); the latches hold the
group's number, and nothing that a program can see depends on them. It has no trap of its own: a poisoned
unit of the group traps in the `vmma` that uses it (spec/18_ras.md R419) -/
def execVwload (w : VWord) (s : State) : Host.Outcome State Fault Refusal :=
  node .vwload w s (fun s => .done (setVec s { s.me.vec with latch := some (srcN w.f1) }))

/-- VMMA_X1: Multiplies one A row by the weight tile into an accumulator tile. (R156) -/
def execVmmaX1 (w : VWord) (s : State) : Host.Outcome State Fault Refusal :=
  mmaInline .vmmaX1 1 w s

/-- VMMA_X2: Multiplies two A rows into an accumulator tile. (R156) -/
def execVmmaX2 (w : VWord) (s : State) : Host.Outcome State Fault Refusal :=
  mmaInline .vmmaX2 2 w s

/-- VMMA_X4: Multiplies four A rows into an accumulator tile. (R156) -/
def execVmmaX4 (w : VWord) (s : State) : Host.Outcome State Fault Refusal :=
  mmaInline .vmmaX4 4 w s

/-- VMMA_X8: Multiplies eight A rows into an accumulator tile. (R156) -/
def execVmmaX8 (w : VWord) (s : State) : Host.Outcome State Fault Refusal :=
  mmaInline .vmmaX8 8 w s

/-- VACCRD: Reads an accumulator row into a vector register. (R161) -/
def execVaccrd (w : VWord) (s : State) : Host.Outcome State Fault Refusal :=
  accrdInline w s

/-- VACCWR: Writes a vector register into an accumulator row. (R161) -/
def execVaccwr (w : VWord) (s : State) : Host.Outcome State Fault Refusal :=
  accwrInline w s

/-- VACCZ: Clears an accumulator tile. (R161) -/
def execVaccz (w : VWord) (s : State) : Host.Outcome State Fault Refusal :=
  acczInline w s

end Machine
end Sys2Proof
end

