-- ==== Sys2Proof/Machine/Thresher.lean ====
section
/-! DEFINITION. Thresher (spec/09_thresher.md R186-R206): posting blocks, streams and the seven forms. Each stream function takes a
whole stream, where to begin and whether it has ended, so that inline forms and nodes share it. -/

namespace Sys2Proof
namespace Machine

/-! ### Posting blocks (R186-R188) -/

/-- Where the acting hart's Thresher reads resolve inline: through `MTYPE`, as its vector loads (R201, R202; spec/10_memory.md R208,
R215). -/
def thAt (s : State) : MemAt where
  base := 0
  off := 0
  stride := 1
  space := s.me.vec.mtSpace.toNat
  dir := s.me.vec.mtDir.toNat
  ctx := vectorCtx s
/-- Read n aligned bytes at an offset. -/
def thRead (s : State) (m : MemAt) (va n : Nat) : Except Flt Nat :=
  match resolveAt s m.ctx m.space m.dir .read (va : Int) with
  | .error f => .error f
  | .ok l => .ok (readLoc s l n)

/-- n words of 4 bytes from an address, ascending (R202). -/
def readUnits (s : State) (m : MemAt) (va : Nat) : Nat → Except Flt (List Nat)
  | 0 => .ok []
  | n + 1 =>
    match thRead s m va 4 with
    | .error f => .error f
    | .ok v =>
      match readUnits s m (va + 4) n with
      | .error f => .error f
      | .ok l => .ok (v :: l)

/-- The bytes of some words. -/
def unitBytes (l : List Nat) : List Nat := l.flatMap (fun v => (List.range 4).map (fun k => v / 256 ^ k % 256))

/-- A block's number of `w` bytes at an offset, least significant first. -/
def PostBlock.le (b : PostBlock) (off w : Nat) : Nat :=
  ((b.bytes.drop off).take w).foldr (fun x a => x + 256 * a) 0
/-- FIRST. -/
def PostBlock.first (b : PostBlock) : Nat := b.le 0 4
/-- LAST. -/
def PostBlock.last (b : PostBlock) : Nat := b.le 4 4
/-- END. -/
def PostBlock.ends (b : PostBlock) : Bool := 128 ≤ b.le 8 1
/-- N. -/
def PostBlock.n (b : PostBlock) : Nat := b.le 8 1 % 128 + 1
/-- BD. -/
def PostBlock.bd (b : PostBlock) : Nat := b.le 9 1 % 32
/-- BF. -/
def PostBlock.bf (b : PostBlock) : Nat := b.le 10 1 % 32
/-- ED. -/
def PostBlock.ed (b : PostBlock) : Nat := b.le 11 1
/-- EF. -/
def PostBlock.ef (b : PostBlock) : Nat := b.le 12 1
/-- LEN16. -/
def PostBlock.len16 (b : PostBlock) : Nat := b.le 14 2
/-- Round up to a multiple. -/
def roundUpTo (m n : Nat) : Nat := (n + m - 1) / m * m
/-- The offsets of the delta area, the frequency area, the exception lists, and the end (R186). -/
def PostBlock.offsets (b : PostBlock) : List Nat :=
  let o1 := 16
  let o2 := o1 + 4 * (((b.n - 1) * b.bd + 31) / 32)
  let o3 := o2 + 4 * ((b.n * b.bf + 31) / 32)
  let o4 := o3 + roundUpTo 4 b.ed
  let o5 := o4 + 4 * b.ed
  let o6 := o5 + roundUpTo 4 b.ef
  let o7 := o6 + 4 * b.ef
  [o1, o2, o3, o4, o5, o6, roundUpTo 16 o7]
/-- A section's offset. -/
def PostBlock.off (b : PostBlock) (k : Nat) : Nat := b.offsets.getD k 0
/-- Field j of width w of an area. -/
def PostBlock.field (b : PostBlock) (k len w j : Nat) : Nat := b.le (b.off k) len / 2 ^ (w * j) % 2 ^ w
/-- Positions of exceptions. -/
def PostBlock.positions (b : PostBlock) (k n : Nat) : List Nat := (List.range n).map (fun e => b.le (b.off k + e) 1)
/-- High parts of exceptions. -/
def PostBlock.highs (b : PostBlock) (k n : Nat) : List Nat := (List.range n).map (fun e => b.le (b.off k + 4 * e) 4)
/-- The high part of entry i, or 0. -/
def highAt (ps hs : List Nat) (i : Nat) : Nat :=
  match (ps.zip hs).find? (fun p => p.1 == i) with
  | some p => p.2
  | none => 0
/-- Strictly rising, from a bound, below another. -/
def rising : List Nat → Nat → Nat → Bool
  | [], _, _ => true
  | x :: l, lo, hi => decide (lo ≤ x) && decide (x < hi) && rising l (x + 1) hi

/-- The documents of a block (R187). -/
def PostBlock.docs (b : PostBlock) : List Nat :=
  let ps := b.positions 2 b.ed
  let hs := b.highs 3 b.ed
  let len := b.off 1 - b.off 0
  ((List.range (b.n - 1)).foldl (fun (a : Nat × List Nat) i =>
    let d := a.1 + (b.field 0 len b.bd i + highAt ps hs (i + 1) * 2 ^ b.bd) + 1
    (d, a.2 ++ [d])) (b.first, [b.first])).2
/-- The frequencies of a block (R187). -/
def PostBlock.freqs (b : PostBlock) : List Nat :=
  let ps := b.positions 4 b.ef
  let hs := b.highs 5 b.ef
  (List.range b.n).map (fun i => b.field 1 (b.off 2 - b.off 1) b.bf i + highAt ps hs i * 2 ^ b.bf + 1)

/-- The code of the first condition of R188 that a block breaks, with the LAST of the block before it. -/
def blockCode (b : PostBlock) (prev : Option Nat) : Option Nat :=
  if b.le 9 1 / 32 ≠ 0 ∨ b.le 10 1 / 32 ≠ 0 ∨ b.le 13 1 ≠ 0 ∨ b.n - 1 < b.ed ∨ b.n < b.ef then some 1
  else if b.len16 * 16 ≠ b.off 6 then some 2
  else if !rising (b.positions 2 b.ed) 1 b.n || !rising (b.positions 4 b.ef) 0 b.n ||
      (b.highs 3 b.ed).any (fun h => decide (2 ^ (32 - b.bd) ≤ h)) ||
      (b.highs 5 b.ef).any (fun h => decide (2 ^ (32 - b.bf) ≤ h)) then some 3
  else if b.docs.any (fun d => decide (0xFFFFFFFF ≤ d)) || b.freqs.any (fun f => decide (2 ^ 32 ≤ f)) then some 4
  else if b.docs.getLastD 0 ≠ b.last then some 5
  else match prev with
    | some l => if b.first ≤ l then some 6 else none
    | none => none

/-- Read a block: its header, then the rest (R188). -/
def readBlock (s : State) (m : MemAt) (va : Nat) : Except Flt PostBlock :=
  match readUnits s m va 4 with
  | .error f => .error f
  | .ok h =>
    let b : PostBlock := { bytes := unitBytes h }
    match readUnits s m (va + 16) (4 * b.len16 - 4) with
    | .error f => .error f
    | .ok l => .ok { bytes := b.bytes ++ unitBytes l }

/-- `THDATA` of a locator and a code (R201). -/
def thData (code loc : Nat) : ThErr := .data (loc * 16 + code)

/-- Decode a list from a block: its postings and the blocks read (R195). Documents rise from block to block, so a list has
fewer blocks than `fuel`. -/
def decodeList (s : State) (m : MemAt) (term : Nat) (single : Bool) :
    Nat → Nat → Option Nat → Except ThErr (List Nat × Nat)
  | 0, _, _ => .ok ([], 0)
  | fuel + 1, va, prev =>
    match readBlock s m va with
    | .error f => .error (.flt f)
    | .ok b =>
      match blockCode b prev with
      | some code => .error (thData code (va / 16))
      | none =>
        let ps := (b.docs.zip b.freqs).map (fun p => term * 2 ^ 56 + min p.2 0xFFFFFF * 2 ^ 32 + p.1)
        if single || b.ends then .ok (ps, 1)
        else
          match decodeList s m term single fuel (va + 16 * b.len16) (some b.last) with
          | .error e => .error e
          | .ok (l, n) => .ok (ps ++ l, n + 1)

/-- The filler (R190). -/
def filler : Nat := 2 ^ 64 - 1

/-- `thdec` of references, the first with index i (R195). -/
def decodeRefs (s : State) (m : MemAt) : List Nat → Nat → Except ThErr (List Nat × Nat)
  | [], _ => .ok ([], 0)
  | r :: l, i =>
    if r = filler then decodeRefs s m l (i + 1)
    else if r / 2 ^ 55 % 256 ≠ 0 then .error (thData 7 i)
    else
      match decodeList s m (r % 16) (2 ^ 63 ≤ r) (2 ^ 33) (r / 16 % 2 ^ 51 * 16) none with
      | .error e => .error e
      | .ok (ps, n) =>
        match decodeRefs s m l (i + 1) with
        | .error e => .error e
        | .ok (qs, m) => .ok (ps ++ qs, n + m)

/-! ### Streams (R190, R191) -/

/-- The document of a posting or scored element. -/
def docOf (e : Nat) : Nat := e % 2 ^ 32
/-- The (document, term) key of a posting. -/
def keyOf (e : Nat) : Nat := docOf e * 16 + e / 2 ^ 56 % 16
/-- Check element i of a posting stream when it is consumed: ELEMENT, then ORDER against the posting before it (R190, R191,
R201). -/
def checkPost (key : Nat → Nat) (code i : Nat) (prev : Option Nat) (e : Nat) : Option ThErr :=
  if e / 2 ^ 60 % 16 ≠ 0 then some (thData 12 i)
  else match prev with
    | some p => if key e < key p then some (thData code i) else none
    | none => none
/-- The last posting before a place, fillers aside. -/
def prevOf (hist : List Nat) (i : Nat) : Option Nat := ((hist.take i).filter (· != filler)).getLast?

/-- Merge from places i and j (R196), until a stream that has not ended has nothing more: what is merged, and the places reached,
fillers passed over. -/
def mergeGo (A B : List Nat) (endA endB : Bool) :
    Nat → Nat → Nat → Option Nat → Option Nat → Except ThErr (List MergeItem × Nat × Nat)
  | 0, i, j, _, _ => .ok ([], i, j)
  | fuel + 1, i, j, pa, pb =>
    let takeA (e : Nat) : Except ThErr (List MergeItem × Nat × Nat) :=
      match checkPost keyOf 8 i pa e with
      | some x => .error x
      | none =>
        match mergeGo A B endA endB fuel (i + 1) j (some e) pb with
        | .error x => .error x
        | .ok l => .ok ({ fromB := false, elem := e, i := i + 1, j := j } :: l.1, l.2)
    let takeB (e : Nat) : Except ThErr (List MergeItem × Nat × Nat) :=
      match checkPost keyOf 9 j pb e with
      | some x => .error x
      | none =>
        match mergeGo A B endA endB fuel i (j + 1) pa (some e) with
        | .error x => .error x
        | .ok l => .ok ({ fromB := true, elem := e, i := i, j := j + 1 } :: l.1, l.2)
    match A[i]?, B[j]? with
    | some a, ob =>
      if a = filler then mergeGo A B endA endB fuel (i + 1) j pa pb
      else match ob with
        | some b =>
          if b = filler then mergeGo A B endA endB fuel i (j + 1) pa pb
          else if keyOf a ≤ keyOf b then takeA a else takeB b
        | none => if endB then takeA a else .ok ([], i, j)
    | none, some b =>
      if b = filler then mergeGo A B endA endB fuel i (j + 1) pa pb
      else if endA then takeB b else .ok ([], i, j)
    | none, none => .ok ([], i, j)

/-- The merge of two streams from places i and j. -/
def mergeFrom (A B : List Nat) (endA endB : Bool) (i j : Nat) : Except ThErr (List MergeItem × Nat × Nat) :=
  mergeGo A B endA endB (A.length + B.length + 1) i j (prevOf A i) (prevOf B j)

/-- Split into runs of one document. -/
def runsBy {α : Type} (doc : α → Nat) : List α → List (List α)
  | [] => []
  | x :: l =>
    match runsBy doc l with
    | (y :: ys) :: rest => if doc x = doc y then (x :: y :: ys) :: rest else [x] :: (y :: ys) :: rest
    | rest => [x] :: rest

/-- The complete groups of some runs: all of them at the end, else all but the last. -/
def complete {α : Type} (ended : Bool) (rs : List α) : List α := if ended then rs else rs.dropLast

/-- `thand` and `thor` from places i and j (R196): what is emitted, the places where the unfinished group begins, and the elements
consumed in all, fillers among them (R205). -/
def combineStreams (inter : Bool) (A B : List Nat) (endA endB : Bool) (i j : Nat) :
    Except ThErr (List Nat × Nat × Nat × Nat) :=
  match mergeFrom A B endA endB i j with
  | .error e => .error e
  | .ok (l, i', j') =>
    if inter then
      let gs := complete (endA && endB) (runsBy (fun x => docOf x.elem) l)
      let out := (gs.filter (fun g => g.any (fun x => x.fromB) && g.any (fun x => !x.fromB))).flatMap
        (fun g => g.map (fun x => x.elem))
      .ok (out, match gs.flatten.getLast? with
        | some x => (x.i, x.j, i' + j')
        | none => if l = [] then (i', j', i' + j') else (i, j, i' + j'))
    else .ok (l.map (fun x => x.elem), i', j', i' + j')

/-- The postings of one stream from a place, each with its index, checked in turn; `each` is what a posting's consumption
may raise (R198). -/
def consume (each : Option Nat → Nat → Option ThErr) : List (Nat × Nat) → Option Nat → Except ThErr (List (Nat × Nat))
  | [], _ => .ok []
  | (e, i) :: l, prev =>
    if e = filler then consume each l prev
    else
      match checkPost docOf 8 i prev e with
      | some x => .error x
      | none =>
        match each prev e with
        | some x => .error x
        | none =>
          match consume each l (some e) with
          | .error x => .error x
          | .ok r => .ok ((e, i) :: r)

/-- Stream elements from a place, with their indices. -/
def fromPlace (hist : List Nat) (i : Nat) : List (Nat × Nat) := (hist.drop i).zipIdx i

/-! ### Scoring (R197-R200) -/

/-- `thwand` of one group: whether it is emitted, and NV (R197). -/
def wandGroup (P : Nat → Nat) (g : List Nat) : Bool × BitVec 5 :=
  let vs := g.map (fun e => unpack (fmtOf 9) (P (e / 2 ^ 56 % 16)))
  let th := unpack (fmtOf 9) (P 16)
  if th.isNan || vs.any FVal.isNan || (vs.contains (.inf false) && vs.contains (.inf true)) then (false, fNV)
  else
    let w := if vs.contains (.inf false) then FVal.inf false
      else if vs.contains (.inf true) then .inf true else exactSum vs
    (!ltV w th, 0#5)

/-- The next place of a one-stream form: past everything at the end, else the start of its unfinished group. -/
def nextPlace (hist : List Nat) (ended : Bool) (rs : List (List (Nat × Nat))) (i : Nat) : Nat :=
  if ended then hist.length
  else match rs.getLast? with
    | some ((_, k) :: _) => k
    | _ => max i hist.length

/-- `thwand` from a place: what is emitted, its flags, and the next place. -/
def wandStream (P : Nat → Nat) (hist : List Nat) (ended : Bool) (i : Nat) :
    Except ThErr (List Nat × BitVec 5 × Nat) :=
  match consume (fun _ _ => none) (fromPlace hist i) (prevOf hist i) with
  | .error e => .error e
  | .ok l =>
    let rs := runsBy (fun x => docOf x.1) l
    let rs' := (complete ended rs).map (fun g => g.map (fun x => x.1))
    .ok ((rs'.filter (fun g => (wandGroup P g).1)).flatten,
      rs'.foldl (fun fl g => fl ||| (wandGroup P g).2) 0#5, nextPlace hist ended rs i)

/-- One f32 operation under RNE. -/
def f32op (f : Fmt → RMode → FVal → FVal → FRes) (a b : Nat) : FRes := f (fmtOf 9) rne (unpack (fmtOf 9) a) (unpack (fmtOf 9) b)
/-- The code of 1.0 in f32. -/
def oneF32 : Nat := 0x3F800000
/-- k1p and u3 with their flags (R198). -/
def scoreConsts (P : Nat → Nat) : FRes × FRes :=
  (f32op addV (P 16) oneF32, addV (fmtOf 9) rne (unpack (fmtOf 9) oneF32) (unpack (fmtOf 9) (P 17)).neg)

/-- One posting of a group: the running score (R198). -/
def scorePost (P : Nat → Nat) (d32 : Nat) (acc : FRes) (e : Nat) : FRes :=
  let f := (ofInt (fmtOf 9) rne ((e / 2 ^ 32 % 2 ^ 24 : Nat) : Int)).1
  let k1p := (scoreConsts P).1.1
  let u3 := (scoreConsts P).2.1
  let u1 := f32op mulV (P 17) d32
  let u2 := f32op mulV u1.1 (P 18)
  let u4 := f32op addV u3 u2.1
  let u5 := f32op mulV (P 16) u4.1
  let den := f32op addV f u5.1
  let num := f32op mulV f k1p
  let q := f32op divV num.1 den.1
  let x := f32op mulV (P (e / 2 ^ 56 % 16)) q.1
  let y := f32op addV acc.1 x.1
  (y.1, acc.2 ||| u1.2 ||| u2.2 ||| u4.2 ||| u5.2 ||| den.2 ||| num.2 ||| q.2 ||| x.2 ||| y.2)

/-- A group's scored element and flags, with the length of its document. -/
def scoreGroup (P : Nat → Nat) (dl : Nat) (g : List Nat) : FRes :=
  let d32 := ofInt (fmtOf 9) rne (dl : Int)
  let r := g.foldl (scorePost P d32.1) (0, d32.2)
  (r.1 * 2 ^ 32 + docOf (g.headD 0), r.2)

/-- TABLE (R193). -/
def lengthTable (P : Nat → Nat) : Nat := P 20 + P 21 * 2 ^ 32
/-- The length of a document, read from the table (R198). -/
def docLength (s : State) (m : MemAt) (P : Nat → Nat) (d : Nat) : Except Flt Nat :=
  if lengthTable P = 0 then .ok 0 else thRead s m (lengthTable P + 4 * d) 4
/-- The length of a document, where its read does not fault. -/
def docLengthD (s : State) (m : MemAt) (P : Nat → Nat) (d : Nat) : Nat :=
  match docLength s m P d with
  | .ok n => n
  | .error _ => 0

/-- `thscore` from a place: what is emitted, the flags of every operation done, those of an unfinished group's partial sum included (R97,
R203), the next place, and the length that has been read for the
unfinished group there. `held` is the length read earlier for the group at the place, which is not read again. -/
def scoreStream (s : State) (m : MemAt) (P : Nat → Nat) (hist : List Nat) (ended : Bool) (i : Nat) (held : Option Nat) :
    Except ThErr (List Nat × BitVec 5 × Nat × Option Nat) :=
  let startDoc := ((hist.drop i).find? (· != filler)).map docOf
  let each (prev : Option Nat) (e : Nat) : Option ThErr :=
    if prev.map docOf = some (docOf e) || (held.isSome && startDoc == some (docOf e)) then none
    else match docLength s m P (docOf e) with
      | .error f => some (.flt f)
      | .ok _ => none
  match consume each (fromPlace hist i) (prevOf hist i) with
  | .error e => .error e
  | .ok l =>
    let rs := runsBy (fun x => docOf x.1) l
    let dl (k : Nat) (g : List Nat) : Nat :=
      match k, held with
      | 0, some n => n
      | _, _ => docLengthD s m P (docOf (g.headD 0))
    let lens := rs.zipIdx.map (fun p => (dl p.2 (p.1.map (fun x => x.1)), p.1.map (fun x => x.1)))
    let ys := lens.map (fun p => scoreGroup P p.1 p.2)
    .ok ((complete ended ys).map (fun y => y.1), ys.foldl (fun fl y => fl ||| y.2) 0#5, nextPlace hist ended rs i,
      if ended then none else lens.getLast?.map (fun p => p.1))

/-- `thfuse` of one pair, with the index of the scored element (R199). -/
def fusePair (P : Nat → Nat) (i e v : Nat) : Except ThErr FRes :=
  if e = filler then .ok (filler, 0#5)
  else if docOf e = 0xFFFFFFFF then .error (thData 12 i)
  else
    let x := f32op mulV v (P 1)
    let y := fmaV (fmtOf 9) rne false (unpack (fmtOf 9) (e / 2 ^ 32)) (unpack (fmtOf 9) (P 0)) (unpack (fmtOf 9) x.1)
    .ok (y.1 * 2 ^ 32 + docOf e, x.2 ||| y.2)

/-- `thfuse` of pairs, the first with index i. -/
def fuseStream (P : Nat → Nat) : List (Nat × Nat) → Nat → Except ThErr (List Nat × BitVec 5)
  | [], _ => .ok ([], 0#5)
  | (e, v) :: l, i =>
    match fusePair P i e v with
    | .error x => .error x
    | .ok y =>
      match fuseStream P l (i + 1) with
      | .error x => .error x
      | .ok (r, fl) => .ok (y.1 :: r, y.2 ||| fl)

/-- a ranks before b (R200), positions aside. -/
def ranksBefore (a b : Nat) : Bool :=
  let x := unpack (fmtOf 9) (a / 2 ^ 32)
  let y := unpack (fmtOf 9) (b / 2 ^ 32)
  if x.isNan != y.isNan then y.isNan
  else if !x.isNan && ltV y x then true
  else if !x.isNan && ltV x y then false
  else decide (docOf a < docOf b)
/-- Insert after every element that does not rank below it. -/
def rankInsert (e : Nat) : List Nat → List Nat
  | [] => [e]
  | x :: l => if ranksBefore e x then e :: x :: l else x :: rankInsert e l
/-- The k best in rank order (R200). -/
def topk (k : Nat) (xs : List Nat) : List Nat :=
  ((xs.filter (· != filler)).foldl (fun l e => rankInsert e l) []).take k
/-- The first malformed scored element (R190). -/
def badScored : List (Nat × Nat) → Option ThErr
  | [] => none
  | (e, i) :: l => if e ≠ filler ∧ docOf e = 0xFFFFFFFF then some (thData 12 i) else badScored l

/-- The first parameter out of its range (R193). -/
def badParam (op : VOp) (P : Nat → Nat) : Option ThErr :=
  match op with
  | .thscore =>
    if P 20 % 4 ≠ 0 then some (thData 10 20) else if P 21 / 2 ^ 23 ≠ 0 then some (thData 10 21) else none
  | .thtopk => if P 0 = 0 ∨ 1024 < P 0 then some (thData 10 0) else none
  | _ => none
/-- Parameters that a form reads. -/
def paramUsed : VOp → Nat
  | .thwand => 17
  | .thscore => 22
  | .thfuse => 2
  | .thtopk => 1
  | _ => 0

/-! ### The inline forms (R194, R205) -/

/-- What a form yields inline: its elements, its flags, and the work units it charges. -/
def thValue (op : VOp) (s : State) (m : MemAt) (P : Nat → Nat) (A B : List Nat) :
    Except ThErr (List Nat × BitVec 5 × Nat) :=
  let wu (n : Nat) := (n + 127) / 128
  match badParam op P with
  | some e => .error e
  | none =>
    match op with
    | .thdec => (decodeRefs s m A 0).map (fun r => (r.1, 0#5, r.2))
    | .thand => (combineStreams true A B true true 0 0).map (fun r => (r.1, 0#5, wu (A.length + B.length)))
    | .thor => (combineStreams false A B true true 0 0).map (fun r => (r.1, 0#5, wu (A.length + B.length)))
    | .thwand => (wandStream P A true 0).map (fun r => (r.1, r.2.1, wu A.length))
    | .thscore =>
      (scoreStream s m P A true 0 none).map (fun r =>
        (r.1, r.2.1 ||| (scoreConsts P).1.2 ||| (scoreConsts P).2.2, wu A.length))
    | .thfuse => (fuseStream P (A.zip B) 0).map (fun r => (r.1, r.2, wu (A.length + B.length)))
    | _ =>
      match badScored (A.zipIdx) with
      | some e => .error e
      | none => .ok (topk (P 0) A, 0#5, wu A.length)

/-- The trap of what stops a form. -/
def ThErr.trap : ThErr → Trap
  | .flt f => f.trap
  | .data x => Trap.sync cThdata (BitVec.ofNat 64 x)

/-- The second stream and the parameter register of a form. -/
def thSecond (op : VOp) : Option Nat :=
  match op with
  | .thand | .thor => some 7
  | .thfuse => some 9
  | _ => none
/-- The parameter register of a form (R192). -/
def thParamReg (op : VOp) (w : VWord) : Nat := if op = .thfuse then srcN w.f3 else srcN w.f2

/-- An inline Thresher form (R194). -/
def thInline (op : VOp) (w : VWord) (s : State) : Host.Outcome State Fault Refusal :=
  node op w s (fun s =>
    let L := lanesIn s
    let v := s.me.vec
    let evl := evlOf s 7
    let is := List.range evl
    let A := is.map (elemAt v.regs 7 L (srcN w.f1))
    let B := match thSecond op with
      | some t => is.map (elemAt v.regs t L (srcN w.f2))
      | none => []
    let P (j : Nat) := elemAt v.regs 6 L (thParamReg op w) j
    let us := granules 7 L (srcN w.f1) is ++
      (match thSecond op with
       | some t => granules t L (srcN w.f2) is
       | none => []) ++ granules 6 L (thParamReg op w) (List.range (paramUsed op))
    withUnits s us
      (match thValue op s (thAt s) P A B with
       | .error e => .trap s e.trap
       | .ok (out, fl, wu) =>
         if cap 7 L < out.length then .trap s (thData 11 (cap 7 L)).trap
         else
           let d := regOf w.vd.val
           let x := out.zipIdx.foldl (fun x p => putElem 7 L x p.2 p.1) v.regs.data[d]
           let v' := { v with regs := { v.regs with data := v.regs.data.set d x }, vlLen := BitVec.ofNat 17 out.length }
           .done (charge (vfinish s v' fl) s.me.task (128 * wu))))

/-- THDEC: Decodes posting blocks named by list references into postings. (R195) -/
def execThdec (w : VWord) (s : State) : Host.Outcome State Fault Refusal :=
  thInline .thdec w s

/-- THAND: Intersects two posting streams. (R196) -/
def execThand (w : VWord) (s : State) : Host.Outcome State Fault Refusal :=
  thInline .thand w s

/-- THOR: Merges two posting streams. (R196) -/
def execThor (w : VWord) (s : State) : Host.Outcome State Fault Refusal :=
  thInline .thor w s

/-- THWAND: Emits groups whose upper-bound weight meets the threshold. (R197) -/
def execThwand (w : VWord) (s : State) : Host.Outcome State Fault Refusal :=
  thInline .thwand w s

/-- THSCORE: Scores each document group by the fixed formula. (R198) -/
def execThscore (w : VWord) (s : State) : Host.Outcome State Fault Refusal :=
  thInline .thscore w s

/-- THFUSE: Fuses lexical and vector scores pairwise. (R199) -/
def execThfuse (w : VWord) (s : State) : Host.Outcome State Fault Refusal :=
  thInline .thfuse w s

/-- THTOPK: Selects the k best scored elements in rank order. (R200) -/
def execThtopk (w : VWord) (s : State) : Host.Outcome State Fault Refusal :=
  thInline .thtopk w s

end Machine
end Sys2Proof
end

