-- ==== Sys2Proof/Machine/Partition.lean ====
section
/-! DEFINITION. The grant of a hart: `setvl` and `setvli`, writes of `VL`, changes of the lane partition, and the release of an
installed chain (spec/06_vector_arith.md R124-R126; spec/14_harts_kiln.md R311-R314; spec/13_chains.md R288, R309). -/

namespace Sys2Proof
namespace Machine

/-- The state carried from l0 to l1 lanes (R314; spec/07_matrix.md R159): 8m granules and 16m scale units of each register,
32m columns of each accumulator row, and the poison bits of what is kept. -/
def carry (v : VecState) (l0 l1 : Nat) : VecState :=
  let m := min l0 l1
  { v with
    regs := { data := v.regs.data.map (fun x => BitVec.ofNat 262144 (x.toNat % 2 ^ (2048 * m)))
              scale := v.regs.scale.map (fun x => BitVec.ofNat 18432 (x.toNat % 2 ^ (144 * m))) }
    acc := v.acc.map (fun x => BitVec.ofNat 131072 (x.toNat % 2 ^ (1024 * m)))
    pv := v.pv.map (fun x => BitVec.ofNat 1024 (x.toNat % 2 ^ (8 * m)))
    pacc := v.pacc.map (fun x => BitVec.ofNat 128 (x.toNat % 2 ^ m)) }

/-- CHG: the pending partition differs from the one in force (R312). -/
def changePending (a : Agent) : Bool := a.nlanes != a.lanes || a.nfirst != a.first

/-- Put the pending partition into force (R314). Lanes left behind no longer hold the hart's state. Where lanes had been taken, what was
served from the save rows is in lanes again, and the rows are released (R315; spec/17_traps.md R405). -/
def putInForce (s : State) : State :=
  if changePending s.me || s.me.reclaimed then
    let a := s.me
    let v := if a.lanes = a.nlanes then a.vec else carry a.vec a.lanes.toNat a.nlanes.toNat
    let a' := { a with vec := v, lanes := a.nlanes, first := a.nfirst, reclaimed := false, kept := none
                       saveRows := if a.reclaimed then [] else a.saveRows }
    match a.id with
    | .hart h =>
      let s := if a.reclaimed then releaseRows s (hartCore h) a.saveRows else s
      { s with me := a', laneOwner := s.laneOwner.filter (fun p => p.2 != h || (lanesOf a' h).contains p.1) }
    | .cc _ => { s with me := a' }
  else s

/-- The length granted to a request (R126). -/
def grantLen (ty lanes req : Nat) (bal : Bool) (g : Nat) : Nat :=
  let c := cap ty lanes
  let n := (req + c - 1) / c
  let len := if bal && decide (c < req) then (req + n - 1) / n else min req c
  if 2 ^ g ≤ len then len - len % 2 ^ g else len

/-- Set `VL`. -/
def setVl (s : State) (ty len : Nat) : State :=
  setVec s { s.me.vec with vlTy := BitVec.ofNat 5 ty, vlLen := BitVec.ofNat 17 len }

/-- The trap for an absent type (R125, R126). -/
def typeTrap (ty : Nat) : Trap := Trap.sync cFeature (BitVec.ofNat 64 (128 + ty))

/-- A write of `VL` (R125): the partition, then TYPE, then LEN clamped to the capacity. -/
def writeVl (s : State) (x : Word) : Except Trap State :=
  let ty := x.toNat / 2 ^ 24 % 32
  if 22 ≤ ty then .error (typeTrap ty)
  else
    let s := putInForce s
    .ok (setVl s ty (min (x.toNat % 2 ^ 17) (cap ty (lanesIn s))))

/-- A vector-state instruction that does not wait for the run (R390, R403; spec/05_scalar_ops.md R119): `ILLEGAL` on a
control core, the lazy switch, the report of a failed run, then its own effect. -/
def vectorNow (s : State) (w : Nat) (k : State → Ans) : Ans :=
  hartOnly s w
    (if s.me.vec.rPend then
       .trap (setVec (vsave s) { (vsave s).me.vec with rPend := false }) (reportTrap s.me.vec)
     else k (vsave s))

/-- `setvl` and `setvli` (R126). -/
def grantInline (w : Nat) (rd : Reg) (rs : List Reg) (ty req : Nat) (bal : Bool) (g : Nat) (s : State) :
    Host.Outcome State Fault Refusal :=
  finish 4
    (if 22 ≤ ty then .trap s (typeTrap ty)
     else vectorNow s w (fun s => withG s rs
       (let s := putInForce s
        let len := grantLen ty (lanesIn s) req bal g
        .done (wr (setVl s ty len) rd (BitVec.ofNat 64 len)))))

/-- SETVL: Grants VL from the request in rs1 for a type, with optional balancing and granule. (R126) -/
def execSetvl (rd rs1 : Reg) (ty : Fin 32) (bal : Fin 2) (gexp : Fin 16) (s : State) : Host.Outcome State Fault Refusal :=
  grantInline (encRdRs1TyBalGexp 0x98000000 rd rs1 ty bal gexp) rd [rs1] ty.val (Machine.rd s rs1).toNat (bal.val == 1)
    gexp.val s

/-- SETVLI: Grants VL for an immediate request. (R126) -/
def execSetvli (rd : Reg) (ty : Fin 32) (len : Fin 16384) (s : State) : Host.Outcome State Fault Refusal :=
  grantInline (encRdTyLen 0x99000000 rd ty len) rd [] ty.val len.val false 0 s

/-! ### Quitting a chain -/

/-- The direction that `lnkin` or `lnkout` names (spec/02_encoding.md R36). -/
def linkDir (w : VWord) : Nat := w.f2.val % 4
/-- The opposite direction. -/
def opposite (dir : Nat) : Nat := (dir + 2) % 4
/-- The key of a core's link in a direction. -/
def linkKey (core dir : Nat) : Nat := 4 * core + dir

/-- Discard the packets not yet sent and the units received but not consumed of a chain's link ports (R298). -/
def dropLinks (s : State) (core : Nat) (nodes : List (VOp × VWord)) : State :=
  { s with links := nodes.foldl (fun l n =>
      let dir := linkDir n.2
      match n.1 with
      | .lnkout => tset (linkKey core dir) { tget Link.reset (linkKey core dir) l with out := [] } l
      | .lnkin => match neighbour core dir with
        | some m => tset (linkKey m (opposite dir)) { tget Link.reset (linkKey m (opposite dir)) l with inn := [] } l
        | none => l
      | _ => l) s.links }

/-- Vector state with no chain installed and `RSTART` 0 (R309). The count that `chwait` gives is 0 until a run of the next chain
(spec/13_chains.md R308 says nothing of a `chwait` with no chain installed; DESIGN CHOICE, log 49). -/
def VecState.noChain (v : VecState) : VecState :=
  { v with chbase := none, rRun := false, rTemp := false, rFail := false, rPend := false, rElem := 0#41,
           chain := none, run := none, runFault := none, exits := 0 }

/-- A run fails: it stands at its last commit, with its failure to be reported (spec/13_chains.md R303). -/
def failRun (v : VecState) (f : RunFault) : VecState :=
  { v with rRun := false, rTemp := false, rFail := true, rPend := true, runFault := some f,
           run := v.run.map (fun r => { r with stall := none }) }

/-- Release the reserve and link ports of the acting hart's chain, and set `CHBASE` and `RSTART` to 0 (R288, R309). -/
def quitChain (s : State) : State :=
  match s.me.id, s.me.vec.chain with
  | .hart h, some ch =>
    let s := releaseRows (dropLinks s (hartCore h) ch.nodes) (hartCore h) (List.range' ch.rowLo ch.rows)
    setVec s s.me.vec.noChain
  | _, _ => s

end Machine
end Sys2Proof
end

