-- ==== Sys2Proof/Machine/Collectives.lean ====
section
/-! DEFINITION. Collectives and their transport (spec/15_links_collectives.md R346-R356). A member sends its whole piece to every
other member and folds the pieces itself (DESIGN CHOICE, log 18): R351 fixes the values, R353-R356 the frames. -/

namespace Sys2Proof
namespace Machine

/-! ### Issue (R346-R350) -/

/-- The group image keeps its ranges (R346). -/
def groupOk (w : Vector Word 8) : Bool :=
  let m := w[0].toNat / 2 ^ 32
  2 ≤ m && m ≤ 65536 && w[1].toNat / 2 ^ 32 < m && w[1].toNat % 2 ^ 32 < m && w[3].toNat % 8 == 0 &&
  w[4].toNat / 2 ^ 16 == 0 && 1 ≤ w[4].toNat && w[5] == 0#64 && w[6] == 0#64 && w[7] == 0#64

/-- The collective engine's context for a hart's accesses. -/
def collCtx (s : State) (c : Coll) : XCtx :=
  { hartCtx s (hartOf s c.owner) c.owner (.engine c.owner.die 3) c.mode none with task := c.task }

/-- Forms by fn (R347). -/
def formOf : VOp → Nat
  | .clbcast => 1
  | .clagat => 2
  | .clrsc => 3
  | _ => 0

/-- Elements of a descriptor, none where it is empty. -/
def countOf (d : Option Desc) : Nat := (d.map (fun d => d.count)).getD 0
/-- Element size of a descriptor. -/
def eszOf (d : Option Desc) : Nat := (d.map (fun d => d.esz)).getD 1

/-- The shape of R348 and R351. Element sizes must agree where elements are only moved (DEDUCED, log 18). -/
def shapeOk (form ty op m : Nat) (d s : Desc) : Bool :=
  match form with
  | 0 => op ≤ 5 && !(3 ≤ op && fltTy ty) && d.esz * 8 == elemW ty && s.esz * 8 == elemW ty && d.count == s.count
  | 3 => op ≤ 5 && !(3 ≤ op && fltTy ty) && d.esz * 8 == elemW ty && s.esz * 8 == elemW ty && s.count == m * d.count
  | 2 => d.esz == s.esz && d.count == m * s.count
  | _ => d.esz == s.esz && d.count == s.count

/-- The checks of R350 in order: a refusal code, if any. -/
def collRefuse (c : Coll) (imageOk tableOk same : Bool) : Option Nat :=
  match c.dst, c.src with
  | some d, some s =>
    if !imageOk || !tableOk then some 13
    else if !shapeOk c.form c.ty c.op c.members.length d s then some 4
    else if !(same && (c.form == 0 || c.form == 1)) && clash (footprint d, true) (footprint s, false) then some 3
    else none
  | _, _ => if !imageOk || !tableOk then some 13 else some 5

/-- A member entry (R346). -/
def memberOf (e : Word) : Member := { station := e.toNat % 2 ^ 48, port := e.toNat / 2 ^ 48 % 16 }

/-- The key under which a hart counts the collectives of a group. -/
def groupKey (h : HartId) (group : Nat) : Nat := ((h.die.val * 40 + h.core.val) * 32 + h.ctx.val) * 2 ^ 32 + group

/-- The other ranks of a collective. -/
def otherRanks (c : Coll) : List Nat := (List.range c.members.length).filter (fun r => r != c.rank)

/-- A collective at issue. It is the k-th of its member on the group (R346), and its frames carry k modulo 2^32 as CSEQ (R353). -/
def newColl (s : State) (h : HartId) (op : VOp) (w : VWord) (img : Vector Word 8) (members : List Member) (t : Nat) : Coll where
  owner := h
  ten := s.me.ten
  past := false
  ticket := t
  task := s.me.task
  form := formOf op
  ty := w.vt.val
  rm := if w.rm = 7 then s.me.rmode.toNat else w.rm.val
  op := if formOf op = 0 ∨ formOf op = 3 then (rd s (regOf w.gbG)).toNat else 0
  mode := s.me.mode
  group := img[0].toNat % 2 ^ 32
  cseq := tget 0 (groupKey h (img[0].toNat % 2 ^ 32)) s.groupSeq % 2 ^ 32
  rank := img[1].toNat / 2 ^ 32
  root := img[1].toNat % 2 ^ 32
  seed := img[2]
  timeout := img[4].toNat % 2 ^ 16
  members := members
  dst := s.me.vec.descs[w.f2.val % 16]'(Nat.mod_lt _ (by decide))
  src := s.me.vec.descs[w.f2.val / 16 % 16]'(Nat.mod_lt _ (by decide))
  local_ := []
  peers := ((List.range members.length).filter (fun r => r != img[1].toNat / 2 ^ 32)).map
    (fun r => { rank := r, got := [], used := 0, credit := 0, sent := 0, resent := [], probing := false })
  code := 2
  chunks := 0
  flags := 0#5
  stall := none
  paused := false

/-- Change what a collective knows of a peer. -/
def withPeer (c : Coll) (r : Nat) (f : Peer → Peer) : Coll :=
  { c with peers := c.peers.map (fun p => if p.rank == r then f p else p) }
/-- A collective has not ended. -/
def Coll.pending (c : Coll) : Bool := c.code == 2
/-- A collective of a hart with a ticket. -/
def collOf (s : State) (h : HartId) (t : Nat) : Option Coll :=
  s.colls.find? (fun c => !c.past && c.owner = h && c.ticket == t)
/-- Put a collective back. One of a past task is known by its task too, since a later hart of the context counts its tickets anew. -/
def putColl (s : State) (c : Coll) : State :=
  { s with colls := s.colls.map (fun x =>
      if x.past == c.past && x.owner = c.owner && x.ticket == c.ticket && (!c.past || x.task == c.task) then c else x) }

/-! ### Frames (R353) -/

/-- Kinds of frame. -/
def kData : Nat := 0
def kCredit : Nat := 1
def kAbort : Nat := 2
def kProbe : Nat := 3
def kReply : Nat := 4

/-- Send a frame of a collective to a rank, by the local port its member entry names. -/
def sendKind (s : State) (kind : Nat) (c : Coll) (to_ chunk code : Nat) (last : Bool) (payload : List Byte) : State :=
  let m := c.members.getD to_ { station := 0, port := 0 }
  sendFrame s m.port m.station
    { ver := 1, kind := kind, ty := c.ty, form := c.form, rm := c.rm, op := c.op, last := last, group := c.group,
      cseq := c.cseq, src := c.rank, dst := to_, chunk := chunk, code := code, payload := payload }

/-- End a collective. With any code but DONE it sends ABORT with that code to every member (R355). -/
def endColl (s : State) (c : Coll) (code : Nat) : State :=
  let s := if code = 0 then s
    else (otherRanks c).foldl (fun s r => sendKind s kAbort c r 0 code false []) s
  putColl s { c with code := code, stall := none, paused := false }

/-! ### Pieces and chunks (R351, R353, R354) -/

/-- Bytes of a piece. -/
def pieceBytes (c : Coll) : Nat := countOf c.src * eszOf c.src
/-- Chunks of a piece. -/
def chunksOf (c : Coll) : Nat := (pieceBytes c + 4095) / 4096
/-- Bytes of a chunk. -/
def chunkLen (c : Coll) (k : Nat) : Nat := min 4096 (pieceBytes c - 4096 * k)
/-- The member sends its piece: every member, or only the root of a broadcast. -/
def sends (c : Coll) : Bool := c.form != 1 || c.rank == c.root
/-- The member needs the piece of a rank. -/
def needs (c : Coll) (r : Nat) : Bool := c.form != 1 || r == c.root
/-- The next chunk of a peer's piece has come and has not been consumed. -/
def waits (p : Peer) : Bool := p.got.any (fun g => g.1 == p.used)
/-- A peer's piece has been consumed whole. -/
def whole (c : Coll) (p : Peer) : Bool := !needs c p.rank || p.used == chunksOf c
/-- The piece of a rank. -/
def pieceOf (c : Coll) (r : Nat) : List Byte :=
  if r = c.rank then c.local_
  else match c.peers.find? (fun p => p.rank == r) with
    | some p => (List.range (chunksOf c)).flatMap (fun k => ((p.got.find? (fun g => g.1 == k)).map (fun g => g.2)).getD [])
    | none => []
/-- An element of a piece. -/
def pieceElem (piece : List Byte) (esz m : Nat) : Nat := leNat ((piece.drop (m * esz)).take esz)

/-- The operation of a step (R347). -/
def collOp (n : Nat) : VOp :=
  match n with
  | 1 => .vsscanMin
  | 2 => .vsscanMax
  | 3 => .vsscanAnd
  | 4 => .vsscanOr
  | 5 => .vsscanXor
  | _ => .vsscanAdd

/-- fold(m) of R351: ascending rank, one rounding a step, key SEED + m (R349). -/
def foldElem (c : Coll) (pieces : List (List Byte)) (m : Nat) : FRes :=
  let xs := pieces.map (fun p => pieceElem p (eszOf c.src) m)
  let r : RMode := { mode := c.rm, bits := if c.rm = 5 then srBits (c.seed + BitVec.ofNat 64 m) else 0 }
  (xs.drop 1).foldl (fun a x => let y := scanElem (collOp c.op) c.ty r a.1 x; (y.1, a.2 ||| y.2)) (xs.headD 0, 0#5)

/-- The destination elements and the flags of every step on every member (R351). -/
def collResult (c : Coll) : List Nat × BitVec 5 :=
  let pieces := (List.range c.members.length).map (pieceOf c)
  let n := countOf c.dst
  let e := eszOf c.src
  match c.form with
  | 1 => ((List.range n).map (pieceElem (pieces.getD c.root []) e), 0#5)
  | 2 => ((List.range n).map (fun m => pieceElem (pieces.getD (m / max 1 (countOf c.src)) []) e (m % max 1 (countOf c.src))), 0#5)
  | f =>
    let all := (List.range (countOf c.src)).map (foldElem c pieces)
    let fl := all.foldl (fun a x => a ||| x.2) 0#5
    (((if f = 3 then (all.drop (c.rank * n)).take n else all)).map (fun x => x.1), fl)

/-- Read a chunk of the source (R351): its elements from the first not yet read. -/
def readChunk (s : State) (c : Coll) (d : Desc) : Nat → List Byte → Except Flt (List Byte)
  | 0, l => .ok l
  | n + 1, l =>
    let m := l.length / max 1 d.esz
    if d.count ≤ m then .ok l
    else match resolveAt s (collCtx s c) d.space d.dir .read (d.offset m) with
      | .error f => .error f
      | .ok p => readChunk s c d n (l ++ leBytes d.esz (readLoc s p d.esz))

/-- Write the destination elements from the first, or none of them where one faults, so that each 8-byte unit holds its old value
until all hold their DONE values (R355). -/
def writeElems (s : State) (c : Coll) (d : Desc) : Nat → List Nat → Except Flt State
  | _, [] => .ok s
  | m, x :: l =>
    match resolveAt s (collCtx s c) d.space d.dir .write (d.offset m) with
    | .error f => .error f
    | .ok p => writeElems (writeLoc s p d.esz x) c d (m + 1) l

/-- A fault that the collective engine meets: it stalls with a PAGE record, or ends with POISON or FAULT (R276, R352). -/
def collFault (s : State) (c : Coll) (f : Flt) : State :=
  if stalls f then
    let a := hartOf s c.owner
    let (s', token) := postRecord s a.ten 1 f.cause 0 (recordVa f.trap) (recordWho c.owner 5 a.asid.toNat)
      (recordEntry c.task) (BitVec.ofNat 64 f.acc.code) (some (.collective c.owner c.ticket))
    putColl s' { c with stall := some token }
  else endColl s c (if f.cause = cPoison then 7 else 6)

/-- Send the next chunk that credit allows, to the lowest such rank (R354, R356): a member sends chunk n to a peer only
while n < A + 64. -/
def sendNext (s : State) (c : Coll) : State :=
  match c.peers.find? (fun p => decide (p.sent < min (chunksOf c) (p.credit + 64))) with
  | none => s
  | some p =>
    let k := p.sent
    let s := sendKind s kData c p.rank k 0 (k + 1 == chunksOf c) ((c.local_.drop (4096 * k)).take (chunkLen c k))
    charge (putColl s { c with
      peers := c.peers.map (fun q => if q.rank == p.rank then { q with sent := k + 1 } else q), chunks := c.chunks + 1 })
      c.task 128

/-- Consume the next chunk of a peer's piece: its CREDIT counts the chunks consumed (R353, R354). -/
def consumeChunk (s : State) (c : Coll) (p : Peer) : State :=
  let c' := withPeer c p.rank (fun q => { q with used := q.used + 1 })
  sendKind (putColl s c') kCredit c' p.rank (p.used + 1) 0 false []

/-- One chunk of work: consume a chunk that has come, from the lowest such rank, else read a chunk of the source, or send one (log 18). -/
def collStep (s : State) (c : Coll) : State :=
  match c.peers.find? waits with
  | some p => consumeChunk s c p
  | none =>
  if !sends c then s
  else if c.local_.length < pieceBytes c then
    match c.src with
    | none => s
    | some d =>
      match readChunk s c d (4096 / max 1 d.esz) c.local_ with
      | .error f => collFault s c f
      | .ok l => putColl s { c with local_ := l }
  else sendNext s c

/-! ### Receiving (R353-R355) -/

/-- The group is registered to a tenancy (R346). -/
def registered (s : State) (ten : BitVec 6) (group : Nat) : Bool :=
  s.groups.any (fun g => g.2.valid && g.2.ten == ten && g.2.group.toNat == group)

/-- The collective that a frame of a kind is for: the last one issued, where a later task counts a group anew. -/
def frameColl (s : State) (kind : Nat) (f : Frame) : Option Coll :=
  if f.ver ≠ 1 ∨ f.kind ≠ kind then none
  else s.colls.reverse.find? (fun c => c.group == f.group && c.cseq == f.cseq && c.rank == f.dst && registered s c.ten c.group)

/-- A header agrees with the member's own (R355). -/
def headerOk (c : Coll) (f : Frame) : Bool := f.ty == c.ty && f.form == c.form && f.op == c.op && f.rm == c.rm

/-- Take a DATA frame: a duplicate is dropped, a mismatch ends the collective, a chunk within the window is kept, by a member that is paused
or stalled too; it is credited once it is consumed (R353, R354). -/
def takeData (s : State) (c : Coll) (f : Frame) : State :=
  if !c.pending then s
  else if !headerOk c f || !(decide (f.chunk < chunksOf c)) || f.payload.length != chunkLen c f.chunk then endColl s c 15
  else match c.peers.find? (fun p => p.rank == f.src) with
    | none => s
    | some p =>
      if p.got.any (fun g => g.1 == f.chunk) || decide (p.used + 64 ≤ f.chunk) then s
      else putColl s (withPeer c f.src (fun q => { q with got := (f.chunk, f.payload) :: q.got }))

/-- Take an ABORT frame: the member ends with LEFT, or with MISMATCH (R355). -/
def takeAbort (s : State) (c : Coll) (f : Frame) : State :=
  if c.pending then endColl s c (if f.code = 15 ∨ headerOk c f = false then 15 else 14) else s

/-- A frame that came before its member issued the collective is held (log 18): DATA within the window (R354), and ABORT, which
ends the member once it has issued (R355). -/
def holdEarly (s : State) (f : Frame) : State :=
  if f.ver = 1 ∧ (f.kind = kAbort ∨ (f.kind = kData ∧ f.chunk < 64)) then
    match s.groups.find? (fun g => g.2.valid && g.2.group.toNat == f.group) with
    | some g => if s.early.contains (g.2.ten.toNat, f) then s else { s with early := s.early ++ [(g.2.ten.toNat, f)] }
    | none => s
  else s

/-- Give a new collective the frames held for it. -/
def takeEarly (s : State) (h : HartId) (t : Nat) : State :=
  match collOf s h t with
  | none => s
  | some c =>
    let mine (x : Nat × Frame) : Bool :=
      x.1 == c.ten.toNat && x.2.group == c.group && x.2.cseq == c.cseq && x.2.dst == c.rank
    let fs := s.early.filter mine
    fs.foldl (fun s x => match collOf s h t with
      | some c => if x.2.kind = kAbort then takeAbort s c x.2 else takeData s c x.2
      | none => s) { s with early := s.early.filter (fun x => !mine x) }

/-- Issue of the four transfer forms (R350): the traps of the image, then a wait while 4 are outstanding, then the ticket,
and the checks. BADGROUP also where a member entry's bits [63:52], zero by R346, are not zero (DESIGN CHOICE, log 18). -/
def collInline (op : VOp) (w : VWord) (s : State) : Host.Outcome State Fault Refusal :=
  node op w s (fun s =>
    let ga := rd s (regOf w.ga)
    withUnits s ([RegUnit.g w.ga] ++ (if formOf op = 0 ∨ formOf op = 3 then [RegUnit.g w.gbG] else []))
      (match s.me.id with
       | .cc _ => .done s
       | .hart h =>
         if ga.toNat % 64 ≠ 0 then .trap s (Trap.sync cAlign ga)
         else match readDwords s (vectorCtx s) ga.toNat 8 with
           | .error f => .trap s f.trap
           | .ok l =>
             if 4 ≤ (s.colls.filter (fun c => c.owner == h && c.pending)).length then .wait s
             else
               let img := vec8 l
               let t := s.me.vec.clTickets + 1
               let table := readDwords s (vectorCtx s) img[3].toNat (if groupOk img then img[0].toNat / 2 ^ 32 else 0)
               let es := match table with
                 | .ok es => es
                 | .error _ => []
               let tableOk := (match table with
                 | .ok es => es.all (fun e => e.toNat / 2 ^ 52 == 0)
                 | .error _ => false)
               let c := newColl s h op w img (es.map memberOf) t
               let same := w.f2.val % 16 == w.f2.val / 16 % 16
               let c := { c with code := (collRefuse c (groupOk img) tableOk same).getD 2 }
               let key := groupKey h c.group
               let s := { s with
                 colls := s.colls ++ [c]
                 groupSeq := tset key ((c.cseq + 1) % 2 ^ 32) s.groupSeq }
               gdone (takeEarly (setVec s { s.me.vec with clTickets := t }) h t) w.gd (BitVec.ofNat 64 t)))

/-! ### Status (R352) -/

/-- The status word of a collective. -/
def collStatus (c : Coll) : Word := BitVec.ofNat 64 (c.chunks % 2 ^ 32 * 2 ^ 32 + 0x300 + c.code)
/-- What a ticket reads. -/
def collTicket (s : State) (h : HartId) (t : Nat) : Option Coll :=
  if t = 0 ∨ s.me.vec.clTickets < t ∨ t + 4 ≤ s.me.vec.clTickets then none else collOf s h t

/-- `clwait` (R352): the flags are merged when DONE is returned (R351). -/
def clwaitInline (w : VWord) (s : State) : Host.Outcome State Fault Refusal :=
  node .clwait w s (fun s =>
    withUnits s [RegUnit.g w.ga]
      (match s.me.id with
       | .cc _ => .done s
       | .hart h =>
         match collTicket s h (rd s (regOf w.ga)).toNat with
         | none => gdone s w.gd 0x30C#64
         | some c =>
           if c.pending then .wait s
           else
             let fl := if c.code = 0 then c.flags else 0#5
             gdone { s with me := { s.me with fflags := s.me.fflags ||| fl } } w.gd (collStatus c)))

/-! ### The steps of a collective -/

/-- Do a step of a collective, when it is held and has not ended. -/
def withColl (s : State) (h : HartId) (t : Nat) (f : Coll → State) : Host.Outcome State Fault Refusal :=
  match collOf s h t with
  | some c => if c.pending then .next (f c) else .next s
  | none => .next s

/-- Every piece that the member needs has been consumed whole, its own read, and it has sent what it owes. -/
def collReady (c : Coll) : Bool :=
  c.peers.all (whole c) && (!sends c || (c.local_.length == pieceBytes c && c.peers.all (fun p => p.sent == chunksOf c)))

/-- CLRED: Issues an all-reduce folded in rank order. (R351) -/
def execClred (w : VWord) (s : State) : Host.Outcome State Fault Refusal :=
  collInline .clred w s

/-- CLBCAST: Issues a broadcast from the root rank. (R351) -/
def execClbcast (w : VWord) (s : State) : Host.Outcome State Fault Refusal :=
  collInline .clbcast w s

/-- CLAGAT: Issues an all-gather in rank order. (R351) -/
def execClagat (w : VWord) (s : State) : Host.Outcome State Fault Refusal :=
  collInline .clagat w s

/-- CLRSC: Issues a reduce-scatter folded in rank order. (R351) -/
def execClrsc (w : VWord) (s : State) : Host.Outcome State Fault Refusal :=
  collInline .clrsc w s

/-- CLWAIT: Waits until a collective ticket is final and returns its status. (R352) -/
def execClwait (w : VWord) (s : State) : Host.Outcome State Fault Refusal :=
  clwaitInline w s

/-- A chunk that a member already has from the frame's sender (R354). -/
def duplicate (c : Coll) (f : Frame) : Bool := c.peers.any (fun p => p.rank == f.src && p.got.any (fun g => g.1 == f.chunk))

/-- DATA: A DATA chunk frame of a collective is received. (R354); a frame whose GROUP is not registered is dropped
(R346). A chunk that a past task's collective does not have is for one to be issued (log 18). -/
def execDataFrame (_port : Fin 16) (f : Frame) (s : State) : Host.Outcome State Fault Refusal :=
  match frameColl s kData f with
  | some c => .next (if c.past && !duplicate c f then holdEarly s f else takeData s c f)
  | none => .next (holdEarly s f)

/-- CREDIT: A CREDIT frame advances the sending window. (R354); a member that is DONE still counts it, for its resends -/
def execCreditFrame (_port : Fin 16) (f : Frame) (s : State) : Host.Outcome State Fault Refusal :=
  match frameColl s kCredit f with
  | some c =>
    if c.code ≠ 2 ∧ c.code ≠ 0 then .next s
    else if headerOk c f then .next (putColl s (withPeer c f.src (fun p => { p with credit := f.chunk })))
    else .next (if c.pending then endColl s c 15 else s)
  | none => .next s

/-- ABORT: An ABORT frame ends the collective with LEFT or MISMATCH. (R355) -/
def execAbortFrame (_port : Fin 16) (f : Frame) (s : State) : Host.Outcome State Fault Refusal :=
  match frameColl s kAbort f with
  | some c => .next (takeAbort s c f)
  | none => .next (holdEarly s f)

/-- PROBE: A PROBE frame is answered with REPLY. (R354); by a member that has issued and is pending or DONE (log 18), since a
refused collective sends nothing (R350) and one that has ended otherwise has sent ABORT; a header that differs ends the collective
(R355) -/
def execProbeFrame (_port : Fin 16) (f : Frame) (s : State) : Host.Outcome State Fault Refusal :=
  match frameColl s kProbe f with
  | some c =>
    if c.code ≠ 2 ∧ c.code ≠ 0 then .next s
    else if c.pending && !headerOk c f then .next (endColl s c 15)
    else .next (sendKind s kReply c f.src 0 0 false [])
  | none => .next s

/-- REPLY: A REPLY frame shows the peer reachable. (R354); a header that differs ends the collective (R355) -/
def execReplyFrame (_port : Fin 16) (f : Frame) (s : State) : Host.Outcome State Fault Refusal :=
  match frameColl s kReply f with
  | some c =>
    if c.pending && !headerOk c f then .next (endColl s c 15)
    else .next (putColl s (withPeer c f.src (fun p => { p with probing := false })))
  | none => .next s

/-- A member owes a peer a chunk again: it has sent it, no credit covers it, the window still admits it, and it has not yet been
sent again 8 times (R354). -/
def owes (c : Coll) (peer chunk : Nat) : Bool :=
  (c.code == 2 || c.code == 0) &&
  (c.peers.find? (fun p => p.rank == peer)).any (fun p => decide (p.credit ≤ chunk ∧ chunk < p.sent ∧ chunk < p.credit + 64 ∧
    (p.resent.filter (· == chunk)).length < 8))

/-- RESEND_TIMEOUT: A DATA chunk without credit after 64 µs is sent again. (R354); up to 8 times, after the end of the member's
task too -/
def execResendTimeout (h : HartId) (ticket : Nat) (peer chunk : Nat) (s : State) : Host.Outcome State Fault Refusal :=
  match s.colls.find? (fun c => c.owner == h && c.ticket == ticket && owes c peer chunk) with
  | none => .next s
  | some c =>
    .next (sendKind (putColl s (withPeer c peer (fun q => { q with resent := chunk :: q.resent }))) kData c peer chunk 0
      (chunk + 1 == chunksOf c) ((c.local_.drop (4096 * chunk)).take (chunkLen c chunk)))

/-- SILENCE_TIMEOUT: No frame from a peer for TIMEOUT sends PROBE. (R354) -/
def execSilenceTimeout (h : HartId) (ticket : Nat) (peer : Nat) (s : State) : Host.Outcome State Fault Refusal :=
  withColl s h ticket (fun c =>
    if (otherRanks c).contains peer then
      sendKind (putColl s (withPeer c peer (fun p => { p with probing := true }))) kProbe c peer 0 0 false []
    else s)

/-- UNREACHABLE: No REPLY within a further TIMEOUT ends the collective. (R354) -/
def execUnreachablePeer (h : HartId) (ticket : Nat) (peer : Nat) (s : State) : Host.Outcome State Fault Refusal :=
  withColl s h ticket (fun c =>
    if c.peers.any (fun p => p.rank == peer && p.probing) then endColl s c 16 else s)

/-- COLLECTIVE_END: A collective ends, merging flags or sending ABORT. (R355); the flags reach FFLAGS at clwait
(R351); a fault stalls it (R276) -/
def execCollectiveEnd (h : HartId) (ticket : Nat) (s : State) : Host.Outcome State Fault Refusal :=
  withColl s h ticket (fun c =>
    if c.stall.isSome || taskPaused s h c.task || !collReady c then s
    else match c.dst with
      | none => s
      | some d =>
        let r := collResult c
        match writeElems s c d 0 r.1 with
        | .ok s' => endColl s' { c with flags := r.2 } 0
        | .error f => collFault s c f)

/-- COLLECTIVE_CHECKPOINT: The collective engine pauses or cancels after a chunk. (R356); between checkpoints it
consumes, reads or sends one chunk; the end of its task cancels it where it stands, `cancelWork` -/
def execCollectiveCheckpoint (h : HartId) (ticket : Nat) (s : State) : Host.Outcome State Fault Refusal :=
  withColl s h ticket (fun c =>
    if taskPaused s h c.task then putColl s { c with paused := true }
    else if c.stall.isSome then s
    else collStep s { c with paused := false })


end Machine
end Sys2Proof
end

