-- ==== Sys2Proof/Machine/Queues.lean ====
section
/-! DEFINITION. Queues, dependences and the final status of entries (spec/14_harts_kiln.md R319-R332), with the scanner. -/

namespace Sys2Proof
namespace Machine

/-! ### Queues (R319, R323-R327) -/

/-- A queue number. -/
def queueId (q : Nat) : Fin 4096 := Fin.ofNat 4096 q
/-- The name of an entry by its queue and sequence number, modulo 2^32 (R319). -/
def entryId (q seq : Nat) : EntryId := { queue := queueId q, seq := seq % 2 ^ 32 }

/-- Kiln's context for a queue's accesses: its address space, with the rights of S mode (DESIGN CHOICE, log 14). -/
def queueCtx (s : State) (q : Nat) : XCtx :=
  kilnCtx s (Fin.ofNat 8 (queueOf s q).die.toNat) (queueOf s q).asid.toNat .s

/-- Entries in a queue's memory ring that the machine has not copied on chip. -/
def ringCount (q : Queue) : Nat := q.widx - q.ridx
/-- Slots of a ring. -/
def ringSize (q : Queue) : Nat := 2 ^ q.log2.toNat
/-- The address of a ring slot. -/
def slotVa (q : Queue) (n : Nat) : Nat := q.rbase.toNat + 64 + 64 * (n % ringSize q)

/-- A queue is open to the acting agent (R323; spec/16_isolation.md R371). -/
def queueOpen (s : State) (q : Nat) : Bool :=
  match s.me.id with
  | .hart _ => queueTen s q == s.me.ten
  | .cc _ => s.me.mode != .u || ((queueOf s q).uopen && s.me.cc.asid == (queueOf s q).asid)

/-- Post a record that Kiln makes about a queue: its kind, the sequence number of the entry concerned, or 0 where there is none
(DEDUCED, log 21), and the access that faulted, if one did. -/
def queueRecord (s : State) (q kind seq : Nat) (f : Option Flt) : State :=
  postNote s (queueTen s q) kind ((f.map (fun f => f.cause)).getD 0) 0 (BitVec.ofNat 64 ((f.map (fun f => f.va)).getD 0))
    (recordKiln (queueOf s q).die.toNat (queueOf s q).asid.toNat) (recordEntry (some (entryId q seq))) (f.map (fun f => f.acc))

/-- A queue stalls on a faulting read of its ring with a PAGE record (R326). -/
def stallQueue (s : State) (q seq : Nat) (f : Flt) : State :=
  let (s', token) := postRecord s (queueTen s q) 1 f.cause 0 (recordVa f.trap) (recordKiln (queueOf s q).die.toNat (queueOf s q).asid.toNat)
    (recordEntry (some (entryId q seq))) (BitVec.ofNat 64 f.acc.code) (some (.ring (queueId q)))
  putQueue s' q { queueOf s' q with stall := some token }

/-- Write words at an address in a context; the fault of the first that faults. -/
def writeWordsIn (s : State) (c : XCtx) (va : Nat) : List Word → Except Flt State
  | [] => .ok s
  | w :: l =>
    match writeIn s c va 8 w.toNat with
    | .error f => .error f
    | .ok s' => writeWordsIn s' c (va + 8) l

/-- Read doublewords by the acting agent's scalar side. -/
def readScalarWords (s : State) (va : Nat) : Nat → Except Flt (List Word)
  | 0 => .ok []
  | n + 1 =>
    match resolveScalar s .read va with
    | .error f => .error f
    | .ok l =>
      match readScalarWords s (va + 8) n with
      | .error f => .error f
      | .ok ws => .ok (BitVec.ofNat 64 (readLoc s l 8) :: ws)

/-- The count of entries that the ring of a queue has been given (R319): in ring mode the WIDX of its header, or the one seen last where
that cannot be read or is none that R326 admits. -/
def headWidx (s : State) (q : Nat) : Nat :=
  let v := queueOf s q
  if v.ring then
    match readIn s (queueCtx s q) v.rbase.toNat 8 with
    | .ok w => if v.widx ≤ w ∧ w ≤ v.ridx + ringSize v then w else v.widx
    | .error _ => v.widx
  else v.widx

/-- A queue stops accepting: the entries present are to be rejected, in ring mode those up to the WIDX read now (R327). -/
def disableQueue (s : State) (q : Nat) : State :=
  let v := queueOf s q
  let w := headWidx s q
  putQueue s q { v with en := false, nextSeq := v.nextSeq + (w - v.widx), widx := w, dropped := v.slots.length + (w - v.ridx) }

/-- A fault on the machine's own ring writes disables the queue and posts a record (R323). -/
def ringBroken (s : State) (q : Nat) (f : Flt) : State := queueRecord (disableQueue s q) q 6 0 (some f)

/-- Take on chip what the ring holds, while a slot is free: in order, from the head (R325, R326). A fault on reading the
ring stalls the queue with a PAGE record. `fuel` bounds the slots. -/
def refill (q : Nat) : Nat → State → State
  | 0, s => s
  | fuel + 1, s =>
    let v := queueOf s q
    if 32 ≤ v.slots.length ∨ ringCount v = 0 ∨ v.stall.isSome ∨ (v.en = false ∧ v.dropped ≤ v.slots.length) then s
    else match readDwords s (queueCtx s q) (slotVa v v.ridx) 8 with
      | .error f => stallQueue s q (v.nextSeq - ringCount v) f
      | .ok ws =>
        let slot : Slot := { seq := (v.nextSeq - ringCount v) % 2 ^ 32, words := vec8 ws, ring := some v.ridx, lost := false }
        let s := putQueue s q { v with slots := v.slots ++ [slot], ridx := v.ridx + 1 }
        match writeIn s (queueCtx s q) (v.rbase.toNat + 8) 8 (v.ridx + 1) with
        | .error f => ringBroken s q f
        | .ok s' => refill q fuel s'

/-- Disable a queue (R327): the entries present are delivered in order, and for that those in its ring come on chip. -/
def stopQueue (s : State) (q : Nat) : State := refill q 32 (disableQueue s q)

/-- `enq` into an open queue: the status and the sequence number (R323). A machine ring write that faults part-way leaves none of its
bytes in the ring (DESIGN CHOICE, log 37). -/
def enqueue (s : State) (q : Nat) (img : Vector Word 8) : State × Nat × Nat :=
  let v := queueOf s q
  let seq := v.nextSeq % 2 ^ 32
  if !v.en then (s, 3, 0)
  else if v.ring then (s, 4, 0)
  else if ringCount v = 0 ∧ v.slots.length < 32 then
    (putQueue s q { v with nextSeq := v.nextSeq + 1, slots := v.slots ++ [{ seq := seq, words := img, ring := none, lost := false }] }, 0, seq)
  else if ringCount v < ringSize v then
    match writeWordsIn s (queueCtx s q) (slotVa v v.widx) img.toList with
    | .error f => (ringBroken s q f, 3, 0)
    | .ok s1 =>
      match writeIn s1 (queueCtx s q) v.rbase.toNat 8 (v.widx + 1) with
      | .error f => (ringBroken s q f, 3, 0)
      | .ok s2 => (refill q 32 (putQueue s2 q { v with nextSeq := v.nextSeq + 1, widx := v.widx + 1 }), 1, seq)
  else (s, 2, 0)

/-- The value of `qstat` (R324). -/
def qstatWord (v : Queue) : Word :=
  BitVec.ofNat 64 (v.nextSeq % 2 ^ 32 * 2 ^ 32 + (if ringCount v = 0 then 0 else 2 ^ 11) + (if v.ring then 2 ^ 10 else 0) +
    (if v.en then 2 ^ 9 else 0) + v.slots.length)

/-! ### Dependences (R329) -/

/-- The entry is assigned and not delivered: on chip, or in the ring. -/
def undelivered (v : Queue) (seq : Nat) : Bool :=
  v.slots.any (fun x => x.seq == seq) || decide ((v.nextSeq + 2 ^ 32 - 1 - seq) % 2 ^ 32 < ringCount v)

/-- DEPC of an entry that is not delivered. A ring slot that cannot be read gives a free value (log 5). -/
def depcOf (s : State) (q : Nat) (v : Queue) (seq : Nat) : Nat :=
  match v.slots.find? (fun x => x.seq == seq) with
  | some x => x.words[0].toNat / 2 ^ 32 % 2 ^ 16
  | none =>
    let n := v.widx - 1 - (v.nextSeq + 2 ^ 32 - 1 - seq) % 2 ^ 32
    match readIn s (queueCtx s q) (slotVa v n) 8 with
    | .ok w => w / 2 ^ 32 % 2 ^ 16
    | .error _ => (Config.unreadCounter s.tick).toNat

/-- Decrement an entry's counter: the outcome code (R329). -/
def decrement (s : State) (q seq : Nat) : State × Nat :=
  let v := queueOf s q
  let id := entryId q seq
  match entryOf s id with
  | some e =>
    if 2 ≤ e.counter then (putEntry s { e with counter := e.counter - 1 }, 0)
    else if e.counter = 1 then
      (putEntry s { e with counter := 0, state := if e.state = .waiting then .ready else e.state }, 1)
    else (queueRecord (putEntry s { e with depUnder := true }) q 3 seq none, 2)
  | none =>
    if undelivered v (seq % 2 ^ 32) then
      if 32 ≤ v.pending.length then (s, 4)
      else
        let c := depcOf s q v (seq % 2 ^ 32)
        let k := (v.pending.filter (· == seq % 2 ^ 32)).length + 1
        (nextTick (putQueue s q { v with pending := v.pending ++ [seq % 2 ^ 32] }), if k < c then 0 else if k = c then 1 else 2)
    else (s, 3)

/-! ### The final status (R332) -/

/-- The status word of an entry: word 0 with STATE, CODE and DEPUNDER (R321). -/
def statusWord (e : Entry) : Word :=
  BitVec.ofNat 64 (e.words[0].toNat / 2 ^ 17 * 2 ^ 17 + (if e.depUnder then 2 ^ 16 else 0) + e.code % 256 * 256 + e.state.code)

/-- The successor is to be decremented. -/
def wantsSuccessor (e : Entry) : Bool :=
  (e.state == .done && bit e.words[0] 48) || ((e.state == .rejected || e.state == .ended) && bit e.words[0] 49)

/-- Decrement the successor (R329, R332). A queue of another tenancy is not open to it: UNKNOWN (DEDUCED, log 19). -/
def decrementSuccessor (s : State) (e : Entry) : State × Bool :=
  let q := e.words[7].toNat / 2 ^ 32 % 4096
  let seq := e.words[7].toNat % 2 ^ 32
  let (s', r) := if queueTen s q = e.ten ∧ e.words[7].toNat / 2 ^ 44 = 0 then decrement s q seq else (s, 3)
  if r = 4 then (s', true)
  else if r = 3 then
    (postNote s' e.ten 4 0 0 0#64 (recordKiln e.die.val e.asid.toNat) (recordEntry (some (entryId q seq))) none, false)
  else (s', false)

/-- Make an entry's status final (R332): the status word, the signal, the successor, the ring slot. An entry whose decrement
was BUSY is kept until Kiln has retried it. -/
def finalEntry (s : State) (e : Entry) (st : EntryState) (code : Nat) : State :=
  let e := { e with state := st, code := code }
  let s := putEntry s e
  let w := statusWord e
  let c := kilnCtx s e.die e.asid.toNat .s
  let s := if e.words[6] = 0#64 then s
    else match writeIn s c e.words[6].toNat 8 w.toNat with
      | .ok s' => s'
      | .error f => postNote s e.ten 7 f.cause 0 (BitVec.ofNat 64 f.va) (recordKiln e.die.val e.asid.toNat) (recordEntry (some e.id)) (some f.acc)
  let (s, busy) := if wantsSuccessor e then decrementSuccessor s e else (s, false)
  let s := match e.slot with
    | some n =>
      let v := queueOf s e.id.queue.val
      if v.ridx ≤ n then (match writeIn s c (slotVa v n) 8 w.toNat with
        | .ok s' => s'
        | .error _ => s) else s
    | none => s
  { s with entries := s.entries.filter (fun x => x.id != e.id) ++ (if busy then [{ e with retry := true }] else []) }

/-- ENQ: Submits a 64-byte entry image to a queue's on-chip slots or spill ring. (R323) -/
def execEnq (rd rs1 rs2 : Reg) (s : State) : Host.Outcome State Fault Refusal :=
  let a := Machine.rd s rs1
  let q := Machine.rd s rs2
  scalar s [rs1, rs2]
    (if 4096 ≤ q.toNat ∨ queueOpen s q.toNat = false then .trap s (Trap.sync cQerr q)
     else if a.toNat % 64 ≠ 0 then .trap s (Trap.sync cAlign a)
     else match readScalarWords s a.toNat 8 with
       | .error f => .trap s f.trap
       | .ok img =>
         let (s', st, seq) := enqueue s q.toNat (vec8 img)
         .done (wr s' rd (BitVec.ofNat 64 (if st ≤ 1 then seq * 2 ^ 32 + st else st))))

/-- QSTAT: Reports a queue's next sequence number, mode and occupancy. (R324) -/
def execQstat (rd rs1 : Reg) (s : State) : Host.Outcome State Fault Refusal :=
  let q := Machine.rd s rs1
  scalar s [rs1]
    (if 4096 ≤ q.toNat ∨ queueOpen s q.toNat = false then .trap s (Trap.sync cQerr q)
     else .done (wr s rd (qstatWord (queueOf s q.toNat))))

/-- DEPDEC: Decrements the dependence counter of a named entry, or holds the decrement pending. (R329) -/
def execDepdec (rd rs1 : Reg) (s : State) : Host.Outcome State Fault Refusal :=
  let x := Machine.rd s rs1
  let q := x.toNat / 2 ^ 32 % 4096
  scalar s [rs1]
    (if x.toNat / 2 ^ 44 ≠ 0 ∨ queueOpen s q = false then .trap s (Trap.sync cQerr x)
     else
       let (s', r) := decrement s q (x.toNat % 2 ^ 32)
       .done (wr s' rd (BitVec.ofNat 64 r)))

/-- The queue that the scanner polls next: of those it polls whose interval has elapsed, the first in queue-number order after
the one it polled last; none while it has polled in this kiln cycle (R326; the order is DEDUCED, log 37). -/
def nextPoll (s : State) : Option Nat :=
  let l := (s.queues.filter (fun p => p.2.en && p.2.ring && p.2.stall.isNone && decide (p.2.due ≤ s.kclock))).map (fun p => p.1)
  if s.kclock < s.scanAt then none
  else match l.filter (fun q => decide (s.scanNext ≤ q)) with
    | q :: _ => some q
    | [] => l.head?

/-- SCANNER_POLL: At a queue's interval the scanner reads WIDX and copies new ring entries on chip. (R326) -/
def execScannerPoll (q : Fin 4096) (s : State) : Host.Outcome State Fault Refusal :=
  let v := queueOf s q.val
  if nextPoll s ≠ some q.val then .next s
  else
    let s := { s with scanNext := q.val + 1, scanAt := s.kclock + 1 }
    match readIn s (queueCtx s q.val) v.rbase.toNat 8 with
    | .error f => .next (stallQueue s q.val 0 f)
    | .ok w =>
      if w < v.widx ∨ v.ridx + ringSize v < w then .next (queueRecord (stopQueue s q.val) q.val 6 0 none)
      else
        let n := if w = v.widx then min (2 * v.interval) 65536 else 64
        .next (refill q.val 32 (putQueue s q.val
          { v with nextSeq := v.nextSeq + (w - v.widx), widx := w, interval := n, due := s.kclock + n }))

/-- DECREMENT_RETRY: Kiln retries a BUSY successor decrement. (R329) -/
def execDecrementRetry (e : EntryId) (s : State) : Host.Outcome State Fault Refusal :=
  match s.entries.find? (fun x => x.id = e && x.retry) with
  | none => .next s
  | some x =>
    let (s', busy) := decrementSuccessor s x
    if busy then .next s' else .next { s' with entries := s'.entries.filter (fun y => !(y.id == e && y.retry)) }


end Machine
end Sys2Proof
end

