-- ==== Sys2Proof/Machine/Kiln.lean ====
section
/-! DEFINITION. Kiln: the end of tasks, admission, dispatch, pre-emption, budget and deadlines (spec/14_harts_kiln.md R315,
R330-R343; spec/17_traps.md R398-R405). -/

namespace Sys2Proof
namespace Machine

/-! ### Harts, lanes and rows of a task -/

/-- A hart of a task that has not exited. -/
def liveIn (e : EntryId) (a : Agent) : Bool := a.task == some e && a.status != .idle
/-- The live harts of a task. -/
def liveHarts (s : State) (e : EntryId) : List Agent := (agents s).filter (liveIn e)
/-- The contexts that a task holds, exited harts' among them. -/
def taskAgents (s : State) (e : EntryId) : List Agent := (agents s).filter (fun a => a.task == some e)
/-- The core of an agent on its die. -/
def agentCore (a : Agent) : Nat := match a.id with
  | .hart h => h.core.val
  | .cc _ => 0
/-- The die of an agent. -/
def agentDie (a : Agent) : Nat := match a.id with
  | .hart h => h.die.val
  | .cc _ => 0
/-- The context number of an agent. -/
def agentCtx (a : Agent) : Nat := match a.id with
  | .hart h => h.ctx.val
  | .cc _ => 0
/-- Change every agent. -/
def mapAgents (s : State) (f : Agent → Agent) : State := { s with me := f s.me, others := s.others.map f }

/-- A block, as lowest lane and size, lies in another. -/
def blockIn (a b : Nat × Nat) : Bool := b.1 ≤ a.1 && a.1 + a.2 ≤ b.1 + b.2
/-- The block of lanes in force. -/
def blockNow (a : Agent) : Nat × Nat := (a.first.toNat, a.lanes.toNat)
/-- The pending block. -/
def blockNext (a : Agent) : Nat × Nat := (a.nfirst.toNat, a.nlanes.toNat)
/-- The block that a hart holds beside that in force: its pending block, or what that was before it shrank, until the next `setvl`. -/
def blockKept (a : Agent) : Nat × Nat := (a.kept.map (fun b => (b.1.toNat, b.2.toNat))).getD (blockNext a)
/-- The lane blocks a hart holds: the larger of its block in force and its pending block, both where neither contains the other,
as when a grown pending grant has been shrunk (log 20), or the pending one once the rest has been taken (R315); lanes by which the
pending block has shrunk stay with it. -/
def hartBlocks (a : Agent) : List (Nat × Nat) :=
  if a.reclaimed || blockIn (blockNow a) (blockKept a) then [blockKept a]
  else if blockIn (blockKept a) (blockNow a) then [blockNow a]
  else [blockKept a, blockNow a]
/-- The lanes of some blocks. -/
def blockLanes (l : List (Nat × Nat)) : Nat := l.foldl (fun n b => n + b.2) 0

/-- A hart's lanes are held: it is live, and not stopped for the pre-emption of its task (R334). -/
def holdsLanes (s : State) (a : Agent) : Bool :=
  match a.task.bind (entryOf s) with
  | some e => a.status != .idle && !(e.state == .preempted && a.stopped)
  | none => false

/-- The lane blocks held on a core, pools included. -/
def heldBlocks (s : State) (die core : Nat) : List (Nat × Nat) :=
  ((agents s).filter (fun a => (match a.id with
      | .hart h => h.die.val == die && h.core.val == core
      | .cc _ => false) && holdsLanes s a)).flatMap hartBlocks ++
  (s.entries.filter (fun e => e.die.val == die && !e.state.final)).flatMap (fun e =>
    match gangOf e core with
    | some g => if (liveHarts s e.id).any (fun a => agentCore a == core && holdsLanes s a) then g.pool else []
    | none => [])

/-- A block is disjoint from others. -/
def blockFree (held : List (Nat × Nat)) (b n : Nat) : Bool :=
  held.all (fun p => decide (p.1 + p.2 ≤ b) || decide (b + n ≤ p.1))
/-- The first n aligned free blocks of a size, ascending. -/
def freeBlocks (held : List (Nat × Nat)) (n size : Nat) : List (Nat × Nat) :=
  (((List.range (128 / size)).map (fun k => (k * size, size))).filter (fun b => blockFree held b.1 b.2)).take n

/-- The rows in use on a core: grants and save rows, as first row and count. -/
def usedRows (s : State) (die core : Nat) : List (Nat × Nat) :=
  (s.entries.filter (fun e => e.die.val == die && !e.state.final)).flatMap (fun e =>
    match gangOf e core with
    | some g => [(g.row, g.rows)]
    | none => []) ++
  ((agents s).filter (fun a => agentDie a == die && agentCore a == core)).flatMap (fun a => a.saveRows.map (fun r => (r, 1)))

/-- Rows of a core's tile memory (R211). -/
def coreRows : Nat := 6144
/-- The lowest-numbered run of n free rows (R333). -/
def lowestRun (used : List (Nat × Nat)) (n : Nat) : Option Nat :=
  if n = 0 then some 0
  else ((0 :: used.map (fun p => p.1 + p.2)).filter (fun r => decide (r + n ≤ coreRows) && blockFree used r n)).min?

/-- The save rows of a hart of L lanes (spec/17_traps.md R405). -/
def saveNeed (lanes : Nat) : Nat := (61440 + 17408 * lanes + 8191) / 8192
/-- The n highest free rows of a core, one at a time from the highest. -/
def highestRows (used : List (Nat × Nat)) (n : Nat) : List Nat :=
  (((List.range coreRows).reverse).filter (fun r => blockFree used r 1)).take n
/-- Set aside the save rows that a hart has not yet, once what is kept has been placed; none when too few are free (R405). -/
def takeSaveRows (s : State) (kept : List Placed) (a : Agent) : Option Agent :=
  let used := usedRows s (agentDie a) (agentCore a) ++
    (kept.filter (fun p => p.core == agentCore a)).map (fun p => (p.row, p.rows))
  let n := saveNeed a.lanes.toNat - a.saveRows.length
  let rs := highestRows used n
  if rs.length = n then some { a with saveRows := a.saveRows ++ rs } else none

/-! ### The end of a task (R332, R342; spec/13_chains.md R288; spec/17_traps.md R405) -/

/-- Freeze a run at its last commit: it goes on temporally (spec/13_chains.md R304). TEMP keeps its value of that commit (R290). -/
def freezeRun (v : VecState) : VecState :=
  { v with run := v.run.map (fun r => { r with broken := true }) }

/-- Free what a hart context holds: its links, its save rows, its scalar data memory slot, and the context itself. The collective
engine still sends chunks again and answers for what the context has issued (spec/15_links_collectives.md R354). HALT of the context's
debug object keeps its value, so a halted context may halt the next task's hart too (DESIGN CHOICE, log 21). -/
def freeContext (s : State) (h : HartId) : State :=
  let a := hartOf s h
  let s := match a.vec.chain with
    | some ch => dropLinks s (hartCore h) ch.nodes
    | none => s
  let s := releaseRows s (hartCore h) a.saveRows
  let s := releaseRange s (sdmKey (hartCore h) + h.ctx.val * 0x4000) 0x4000
  let s := putAgent s (Agent.fresh (.hart h))
  { s with
    laneOwner := s.laneOwner.filter (fun p => p.2 != h)
    cmds := s.cmds.filter (fun c => c.owner != h)
    colls := s.colls.map (fun c => if c.owner = h then { c with past := true } else c)
    groupSeq := s.groupSeq.filter (fun p => !(groupKey h 0 ≤ p.1 && p.1 < groupKey h 0 + 2 ^ 32))
    istore := s.istore.filter (fun c => c.agent != .hart h) }

/-- The hart contexts of some agents. -/
def hartIds (l : List Agent) : List HartId := l.filterMap (fun a => a.id.hart?)

/-- Free what a task holds: its contexts and its tile rows, every bit zero. -/
def releaseTask (s : State) (e : Entry) : State :=
  let s := (hartIds (taskAgents s e.id)).foldl freeContext s
  e.gangs.foldl (fun s g => releaseRange s (tileKey (40 * e.die.val + g.core.val) + g.row * 8192) (g.rows * 8192)) s

/-- Withdraw the unanswered PAGE record of a stalled command or collective of a hart (spec/12_atomics_engines.md R277). -/
def withdraw (s : State) (h : HartId) : Option Nat → State
  | none => s
  | some token => dropRecord s (hartOf s h).ten token

/-- The record that a stalled command waits on. -/
def stallToken (c : Command) : Option Nat :=
  match c.phase with
  | .stalled token => some token
  | _ => none

/-- End the engine commands and collectives of a task with CANCELLED, at their present checkpoints (spec/12_atomics_engines.md
R277; spec/15_links_collectives.md R356). -/
def cancelWork (s : State) (e : EntryId) : State :=
  let s := (s.cmds.filter (fun c => c.task == some e && c.phase != .final)).foldl
    (fun s c => endCommand (withdraw s c.owner (stallToken c)) c 11) s
  (s.colls.filter (fun c => c.task == some e && c.pending)).foldl (fun s c => endColl (withdraw s c.owner c.stall) c 11) s

/-- End an entry that is admitted and not final: its harts end, its commands are cancelled, its status becomes ENDED
(R342). -/
def endEntry (s : State) (id : EntryId) (code : Nat) : State :=
  match entryOf s id with
  | none => s
  | some _ =>
    let s := cancelWork s id
    match entryOf s id with
    | none => s
    | some e => finalEntry (releaseTask s e) { e with gangs := [] } .ended code

/-! ### Barriers (R316, R317) -/

/-- Complete the generation in progress if every live hart has arrived. -/
def Barrier.settle (b : Barrier) : Barrier :=
  if b.arr = b.live ∧ b.arr ≠ 0#11 then { b with gen := b.gen + 1#16, tag := 0#16, arr := 0#11 } else b

/-- A hart arrives with a tag. -/
def Barrier.arrive (b : Barrier) (t : BitVec 16) : Barrier :=
  Barrier.settle { b with tag := if b.arr = 0#11 then t else b.tag, arr := b.arr + 1#11 }

/-- Put a gang's barrier back, and release its harts if its generation has completed. -/
def putGbar (s : State) (e : Entry) (core : Nat) (old new : Barrier) : State :=
  let s := putEntry s { e with gangs := e.gangs.map (fun g => if g.core.val = core then { g with gbar := new } else g) }
  if new.gen = old.gen then s
  else mapAgents s (fun a => if a.task = some e.id ∧ agentCore a = core then { a with garr := false } else a)

/-- Put a task's barrier back, and release its harts if its generation has completed. -/
def putTbar (s : State) (e : Entry) (old new : Barrier) : State :=
  let s := putEntry s { e with tbar := new }
  if new.gen = old.gen then s
  else mapAgents s (fun a => if a.task = some e.id then { a with tarr := false } else a)

/-- `gbar` or `tbar` of the acting hart, whose barrier reads b: `BARRIER` for another tag, else arrival, then the wait
(R317). A hart whose generation completed while it was stopped or in a handler completes with that generation's number at the next
`gbar` or `tbar` that it executes, whether or not it is the one that was abandoned (DESIGN CHOICE, log 36). -/
def barrierAns (s : State) (rd : Reg) (t : BitVec 16) (b : Barrier) (arrived : Bool) (waitsFor : Option (BitVec 16))
    (put : State → Barrier → State) (note : State → Bool → Option (BitVec 16) → State) : Ans :=
  match waitsFor with
  | some g => if arrived then .wait s else .done (wr (note s false none) rd (g.setWidth 64))
  | none =>
    if b.arr ≠ 0#11 ∧ t ≠ b.tag then .trap s (Trap.sync cBarrier (b.tag.setWidth 64))
    else
      let b' := b.arrive t
      if b'.gen = b.gen then .wait (note (put s b') true (some b.gen))
      else .done (wr (note (put s b') false none) rd (b.gen.setWidth 64))

/-! ### Exit of a hart (R315, R410) -/

/-- A block lies wholly in a pool. -/
def inPool (pool : List (Nat × Nat)) (b n : Nat) : Bool :=
  (List.range n).all (fun l => pool.any (fun p => decide (p.1 ≤ b + l) && decide (b + l < p.1 + p.2)))
/-- Take a block out of a pool. -/
def outOfPool (pool : List (Nat × Nat)) (b n : Nat) : List (Nat × Nat) :=
  pool.filter (fun p => !(decide (b ≤ p.1) && decide (p.1 + p.2 ≤ b + n)))

/-- The repeated join of R315: while the buddy of a pending block lies wholly in the pool, it joins. -/
def joinPool : Nat → List (Nat × Nat) → Nat → Nat → List (Nat × Nat) × Nat × Nat
  | 0, pool, b, n => (pool, b, n)
  | fuel + 1, pool, b, n =>
    let bb := Nat.xor b n
    if n < 128 && inPool pool bb n then joinPool fuel (outOfPool pool bb n) (min b bb) (2 * n) else (pool, b, n)

/-- The blocks that an exiting hart gives up: every lane it holds, two buddies as one block (R315). -/
def givenBlocks (a : Agent) : List (Nat × Nat) :=
  match hartBlocks a with
  | [x, y] => if x.2 = y.2 ∧ Nat.xor x.1 x.2 = y.1 ∧ x.2 < 128 then [(min x.1 y.1, 2 * x.2)] else [x, y]
  | l => l

/-- A block of the exiting hart joins its buddy, if that is the lanes in force of one live hart of the gang, which holds them still, or
the pool (R315). The doubled block contains what a hart that had been shrunk still holds. -/
def giveBlock (a : Agent) (id : EntryId) (s : State) (block : Nat × Nat) : State :=
  match (entryOf s id).bind (fun e => (gangOf e (agentCore a)).map (fun g => (e, g))) with
  | none => s
  | some (e, g) =>
    let (b, n) := block
    let bb := Nat.xor b n
    let put (pool : List (Nat × Nat)) (s : State) : State :=
      putEntry s { e with gangs := e.gangs.map (fun x => if x.core = g.core then { x with pool := pool } else x) }
    match (liveHarts s id).find? (fun o => o.id != a.id && agentCore o == agentCore a && blockNow o == (bb, n) && decide (n < 128) &&
        (hartBlocks o).any (blockIn (bb, n))) with
    | none => put ((b, n) :: g.pool) s
    | some o =>
      let (pool, b', n') := joinPool 6 g.pool (min b bb) (2 * n)
      put pool (putAgent s { o with nfirst := BitVec.ofNat 7 b', nlanes := BitVec.ofNat 8 n', kept := none })

/-- The exiting hart's lanes join their buddies, or the pool (R315). -/
def giveLanes (s : State) (a : Agent) (e : Entry) : State := (givenBlocks a).foldl (giveBlock a e.id) s

/-- The order in which harts take an `OVERRUN` that another has left: the lowest live hart of the lowest core index (R338). -/
def hartRank (e : Entry) (a : Agent) : Nat :=
  (e.gangs.findIdx (fun g => g.core.val == agentCore a)) * 256 + a.nfirst.toNat
/-- The hart that takes the `OVERRUN` of a task. -/
def overrunTarget (s : State) (e : Entry) : Option HartId :=
  let l := liveHarts s e.id
  ((l.find? (fun a => l.all (fun b => decide (hartRank e a ≤ hartRank e b)))).map (fun a => a.id.hart?)).join

/-- Hold every hart of a task but one, which is to take `OVERRUN` (R338). -/
def holdFor (s : State) (e : EntryId) (h : HartId) : State :=
  mapAgents s (fun a => if a.task = some e ∧ a.status ≠ .idle then
    (if a.id = .hart h then { a with overrun := true, held := false } else { a with held := true }) else a)

/-- The task has completed (R332): every hart has exited and every command has ended. A deadline taken in this kiln cycle came
after the completions of the cycle, so that a completion is then of a later one (R339, R342). -/
def completeNow (s : State) (x : Entry) : Bool :=
  x.state == .running && (liveHarts s x.id).isEmpty &&
  s.cmds.all (fun c => c.task != some x.id || c.phase == .final) && s.colls.all (fun c => c.task != some x.id || !c.pending) &&
  !(x.missed && decide (s.kclock ≤ x.deadline))

/-- The entry becomes DONE if its task has completed, with code 32 after its deadline (R331, R332, R339). -/
def completeEntry (s : State) (id : EntryId) : State :=
  match entryOf s id with
  | none => s
  | some x =>
    if completeNow s x then
      finalEntry (releaseTask s x) { x with gangs := [] } .done (if x.deadline < s.kclock then 32 else 0)
    else s

/-- An exhausted task whose hart has exited passes the trap on, or ends; a completion comes first (R338, R342, R410). -/
def passOverrun (s : State) (id : EntryId) (gone : HartId) : State :=
  match entryOf s id with
  | none => s
  | some e =>
    if e.exhausted && e.target == some gone then
      match overrunTarget s e with
      | some h => holdFor (putEntry s { e with target := some h }) id h
      | none => endEntry (completeEntry s id) id 16
    else s

/-- The step of `hexit` (R410): the chain is quit, LIVE falls in both barriers, the lanes are given up, the vector state is
discarded, and the context waits for the end of its task, its save rows with it (R405). -/
def exitHart (s : State) : State :=
  match s.me.id with
  | .cc _ => s
  | .hart h =>
    let s := quitChain s
    let a := s.me
    let s := match a.task.bind (entryOf s) with
      | none => s
      | some e =>
        let s := match gangOf e h.core.val with
          | some g => putGbar s e h.core.val g.gbar (Barrier.settle { g.gbar with live := g.gbar.live - 1#11 })
          | none => s
        match entryOf s e.id with
        | none => s
        | some e => putTbar s e e.tbar (Barrier.settle { e.tbar with live := e.tbar.live - 1#11 })
    let s := match a.task.bind (entryOf s) with
      | some e => giveLanes s a e
      | none => s
    let s := { s with me := { Agent.fresh (.hart h) with
      ten := a.ten, asid := a.asid, srcq := a.srcq, seq := a.seq, task := a.task, saveRows := a.saveRows } }
    match a.task with
    | some e => passOverrun s e h
    | none => s

/-! ### Admission (R320-R322, R330, R331) -/

/-- Lanes by code (R322). -/
def laneCode (n : Nat) : Nat := 4 * 2 ^ n
/-- Fields of the resource request (R322). -/
def reqFloat (w : Nat) : Bool := w / 2 ^ 36 % 2 == 1
def reqTrows (w : Nat) : Nat := w / 2 ^ 23 % 2 ^ 13
def reqHarts (w : Nat) : Nat := w / 2 ^ 18 % 32 + 1
def reqMinl (w : Nat) : Nat := w / 2 ^ 15 % 8
def reqLanes (w : Nat) : Nat := w / 2 ^ 12 % 8
def reqRows (w : Nat) : Nat := w / 2 ^ 9 % 8 + 1
def reqCols (w : Nat) : Nat := w / 2 ^ 6 % 8 + 1
def reqRow0 (w : Nat) : Nat := w / 8 % 8
def reqCol0 (w : Nat) : Nat := w % 8

/-- The request is well formed (R322). -/
def requestOk (w : Nat) : Bool :=
  w / 2 ^ 37 == 0 && reqLanes w ≤ 5 && reqMinl w ≤ reqLanes w && reqHarts w * laneCode (reqLanes w) ≤ 128 &&
  reqRow0 w + reqRows w ≤ 5 && reqCol0 w + reqCols w ≤ 8 && reqTrows w ≤ coreRows

/-- No rule of R320-R322 fails: the code 4 of R331 does not apply. -/
def imageWell (w : Vector Word 8) : Bool :=
  let w0 := w[0].toNat
  w0 / 2 ^ 51 == 0 && w0 / 2 ^ 28 % 16 == 0 && w0 / 2 ^ 24 % 16 == 0 && w0 % 2 ^ 24 == 0 && (!bit w[0] 49 || bit w[0] 48) &&
  w[1].toNat / 2 ^ 55 == 0 && w[1].toNat % 4 == 0 && requestOk w[3].toNat && w[4].toNat / 2 ^ 40 == 0 &&
  w[5].toNat / 2 ^ 48 == 0 && w[6].toNat / 2 ^ 55 == 0 && w[6].toNat % 8 == 0 && w[7].toNat / 2 ^ 44 == 0

/-- dens(e) (R330). -/
def density (w : Vector Word 8) : Nat := (w[5].toNat * 2 ^ 24 + w[4].toNat - 1) / w[4].toNat

/-- The share of a tenancy on a die. -/
def shareOf (s : State) (ten : BitVec 6) (die : Nat) : Share := tget Share.reset (8 * ten.toNat + die) s.shares

/-- The least that a request takes fits the share (R331, code 3); a fixed rectangle needs no retired core (spec/18_ras.md
R424). -/
def grantOk (s : State) (ten : BitVec 6) (die : Nat) (w : Nat) : Bool :=
  let sh := shareOf s ten die
  let cores := reqRows w * reqCols w
  decide (cores ≤ sh.maxCores.toNat) && decide (cores * reqHarts w * laneCode (reqMinl w) ≤ sh.maxLanes.toNat) &&
  decide (cores * reqTrows w ≤ sh.maxRows.toNat) &&
  (reqFloat w || (List.range cores).all (fun k =>
    !(s.coresOut.contains (40 * die + 8 * (reqRow0 w + k / reqCols w) + reqCol0 w + k % reqCols w))))

/-- Admitted entries of a die that are not final. -/
def admitted (s : State) (die : Nat) : List Entry := s.entries.filter (fun e => e.die.val == die && !e.state.final)

/-- The checks of R331 in order: the code of the first that fails. An entry that was queued at a reset of its tenancy is rejected
as one delivered during it (R343). -/
def rejectCode (s : State) (e : Entry) (doom dis lost : Bool) : Option Nat :=
  let w := e.words
  if (tenOf s e.ten.toNat).rst || doom then some 7
  else if dis then some 6
  else if lost || !imageWell w then some 4
  else if w[5] = 0#64 then some 5
  else if w[4].toNat < 6144 then some 2
  else if !grantOk s e.ten e.die.val w[3].toNat then some 3
  else if (shareOf s e.ten e.die.val).share.toNat <
      ((admitted s e.die.val).filter (fun x => x.ten == e.ten)).foldl (fun n x => n + density x.words) (density w) then some 1
  else none

/-- Apply the pending decrements of an entry, in the order they were held (R329). -/
def applyPending (s : State) (q : Nat) (e : Entry) : State × Entry :=
  let v := queueOf s q
  let n := (v.pending.filter (· == e.id.seq)).length
  let s := putQueue s q { v with pending := v.pending.filter (· != e.id.seq) }
  (List.range n).foldl (fun (p : State × Entry) _ =>
    if 1 ≤ p.2.counter then (p.1, { p.2 with counter := p.2.counter - 1 })
    else (queueRecord p.1 q 3 e.id.seq none, { p.2 with depUnder := true })) (s, e)

/-- An entry as its queue's die kiln takes it. A slot that an error has lost holds nothing (spec/18_ras.md R419). -/
def newEntry (s : State) (q : Nat) (x : Slot) : Entry :=
  let v := queueOf s q
  let w : Vector Word 8 := if x.lost then .replicate 8 0#64 else x.words
  { id := entryId q x.seq, words := w, die := Fin.ofNat 8 v.die.toNat, ten := queueTen s q, asid := v.asid, slot := x.ring,
    state := .queued, code := 0, depUnder := false, counter := w[0].toNat / 2 ^ 32 % 2 ^ 16,
    deadline := s.kclock + w[4].toNat,
    watch := w[4].toNat * (tenOf s (queueTen s q).toNat).wdf.toNat, watched := 0, delivNo := s.delivered, skips := 0, gangs := [],
    tbar := { gen := 0#16, tag := 0#16, arr := 0#11, live := 0#11 }, left := 128 * w[5].toNat, ext := false,
    overdraft := 0, exhausted := false, target := none, missed := false, retry := false }

/-- Deliver the head of a queue (R330, R331, R342, R377). -/
def deliver (s : State) (q : Nat) : State :=
  let v := queueOf s q
  match v.slots with
  | [] => s
  | x :: rest =>
    let e := newEntry s q x
    let marked := v.ends.contains x.seq
    let dis := decide (0 < v.dropped)
    let doom := decide (0 < v.doomed)
    let s := putQueue s q { v with
      slots := rest, ends := v.ends.filter (· != x.seq), dropped := v.dropped - 1, doomed := v.doomed - 1 }
    let s := refill q 32 { s with delivered := s.delivered + 1 }
    let (s, e) := applyPending s q e
    if marked then finalEntry s e .ended 20
    else match rejectCode s e doom dis x.lost with
      | some code => finalEntry s e .rejected code
      | none => { s with entries := s.entries ++ [{ e with state := if e.counter = 0 then .ready else .waiting }] }

/-- The queues of a die with an entry on chip, in queue-number order. -/
def readyQueues (s : State) (die : Nat) : List Nat :=
  (s.queues.filter (fun p => p.2.die.toNat == die && p.2.slots != [])).map (fun p => p.1)

/-- The queue that delivers next: rotation in queue-number order after the one that delivered last (R319). -/
def nextQueue (s : State) (die : Nat) : Option Nat :=
  let l := readyQueues s die
  let last := tget 0 die (s.rotation.map (fun p => (p.1, p.2 + 1)))
  match l.filter (fun q => decide (last ≤ q)) with
  | q :: _ => some q
  | [] => l.head?

/-! ### Placement (R333) -/

/-- What a tenancy holds on a die: its cores, its lanes, its rows. -/
def holdings (s : State) (ten : BitVec 6) (die : Nat) : List Nat × Nat × Nat :=
  let es := s.entries.filter (fun e => e.die.val == die && e.ten == ten && (e.state == .running || e.state == .preempted))
  let cores := (es.flatMap (fun e => e.gangs.map (fun g => g.core.val))).eraseDups
  let lanes := ((agents s).filter (fun a => holdsLanes s a && es.any (fun e => a.task == some e.id))).foldl (fun n a => n + blockLanes (hartBlocks a)) 0
  let pools := (es.filter (fun e => e.state == .running)).foldl (fun n e => e.gangs.foldl (fun n g =>
    if (liveHarts s e.id).any (fun a => agentCore a == g.core.val) then g.pool.foldl (fun n p => n + p.2) n else n) n) 0
  (cores, lanes + pools, es.foldl (fun n e => e.gangs.foldl (fun n g => n + g.rows) n) 0)

/-- The rectangles to try, as cores in row-major order from the origin (R322, R333). -/
def rectangles (w : Nat) : List (List Nat) :=
  let origins := if reqFloat w then
      (List.range (6 - reqRows w)).flatMap (fun r => (List.range (9 - reqCols w)).map (fun c => (r, c)))
    else [(reqRow0 w, reqCol0 w)]
  origins.map (fun o => (List.range (reqRows w * reqCols w)).map (fun k => 8 * (o.1 + k / reqCols w) + o.2 + k % reqCols w))

/-- Free hart contexts of a core. -/
def freeCtxs (s : State) (kept : List Placed) (die core : Nat) : List Nat :=
  (List.range 32).filter (fun c =>
    !((agents s).any (fun a => a.id = .hart ⟨Fin.ofNat 8 die, Fin.ofNat 40 core, Fin.ofNat 32 c⟩ && a.task.isSome)) &&
    !(kept.any (fun p => p.core == core && p.ctxs.contains c)))

/-- A core is out of service, or fenced until a spare is put into service (spec/18_ras.md R423, R424). -/
def coreAway (s : State) (core : Nat) : Bool :=
  s.coresOut.contains core || s.fenced.any (fun u => match u with
    | .lane c _ _ => c == core
    | .core c => c == core
    | _ => false)

/-- Place a gang on a core with blocks of a size, if it fits. -/
def placeCore (s : State) (kept : List Placed) (die w size core : Nat) : Option Placed :=
  let here := kept.filter (fun p => p.core == core)
  let blocks := freeBlocks (heldBlocks s die core ++ here.flatMap (fun p => p.blocks)) (reqHarts w) size
  let ctxs := (freeCtxs s kept die core).take (reqHarts w)
  match lowestRun (usedRows s die core ++ here.map (fun p => (p.row, p.rows))) (reqTrows w) with
  | some row =>
    if blocks.length = reqHarts w ∧ ctxs.length = reqHarts w ∧ coreAway s (40 * die + core) = false then
      some { core := core, row := row, rows := reqTrows w, ctxs := ctxs, blocks := blocks }
    else none
  | none => none

/-- Every result of a list of options. -/
def allSome {α : Type} : List (Option α) → Option (List α)
  | [] => some []
  | none :: _ => none
  | some x :: l => (allSome l).map (fun r => x :: r)

/-- Lane sizes from LANES down to MINL. -/
def sizes (w : Nat) : List Nat := ((List.range (reqLanes w - reqMinl w + 1)).map (fun k => laneCode (reqLanes w - k)))

/-- The placement of a new task, with the one size of all its harts (R333). -/
def placeNew (s : State) (kept : List Placed) (e : Entry) : Option (List Placed) :=
  let w := e.words[3].toNat
  let (cores, lanes, rows) := holdings s e.ten e.die.val
  let sh := shareOf s e.ten e.die.val
  (rectangles w).findSome? (fun rect =>
    if (cores ++ rect).eraseDups.length ≤ sh.maxCores.toNat ∧ rows + rect.length * reqTrows w ≤ sh.maxRows.toNat then
      (sizes w).findSome? (fun size =>
        if lanes + rect.length * reqHarts w * size ≤ sh.maxLanes.toNat then
          allSome (rect.map (placeCore s kept e.die.val w size))
        else none)
    else none)

/-- The live harts of a task on a core, in ascending order of their pending blocks. -/
def gangHarts (s : State) (e : EntryId) (core : Nat) : List Agent :=
  ((List.range 128).flatMap (fun l => (liveHarts s e).filter (fun a => agentCore a == core && a.nfirst.toNat == l)))

/-- The placement of a pre-empted task: the same cores, rows and contexts, each hart on the lowest lanes of its pending
block, all shrunk alike as far as MINL allows (R315, R334; DEDUCED, log 20), within the share, its cores and rows among the tenancy's
holdings (R333). -/
def placeAgain (s : State) (kept : List Placed) (e : Entry) : Option (List Placed) :=
  let minl := laneCode (reqMinl e.words[3].toNat)
  let (cores, lanes, rows) := holdings s e.ten e.die.val
  let sh := shareOf s e.ten e.die.val
  (List.range 6).findSome? (fun k =>
    let cut (a : Agent) : Nat := max minl (a.nlanes.toNat / 2 ^ k)
    let pl := e.gangs.map (fun g =>
      let as := gangHarts s e.id g.core.val
      { core := g.core.val, row := g.row, rows := g.rows, ctxs := as.map agentCtx, blocks := as.map (fun a => (a.nfirst.toNat, cut a)) : Placed })
    let total := pl.foldl (fun n p => p.blocks.foldl (fun n b => n + b.2) n) 0
    if cores.length ≤ sh.maxCores.toNat && rows ≤ sh.maxRows.toNat && lanes + total ≤ sh.maxLanes.toNat && pl.all (fun p =>
        !(coreAway s (40 * e.die.val + p.core)) &&
        p.blocks.all (fun b => blockFree (heldBlocks s e.die.val p.core ++
          (kept.filter (fun q => q.core == p.core)).flatMap (fun q => q.blocks)) b.1 b.2)) then some pl
    else none)

/-- fits(e) of R333. -/
def fits (s : State) (kept : List Placed) (e : Entry) : Option (List Placed) :=
  if e.state = .preempted then placeAgain s kept e else placeNew s kept e

/-! ### Start, shrinking and pre-emption (R77, R312-R316, R333, R334) -/

/-- A hart as a task starts it (spec/03_assembly.md R77): `i` its index in its gang, `ci` the task's core index. -/
def startHart (e : Entry) (p : Placed) (ci i ctx : Nat) (b : Nat × Nat) : Agent :=
  let h : HartId := ⟨e.die, Fin.ofNat 40 p.core, Fin.ofNat 32 ctx⟩
  let a := Agent.fresh (.hart h)
  let set (g : Vector Word 32) (r : Fin 32) (n : Nat) := g.set r (BitVec.ofNat 64 n)
  { a with
    g := ((((set a.g 2 (winSdm + ctx * 0x4000 + 0x4000)).set 4 e.words[2] |> fun g => set g 5 i) |> fun g => set g 6 p.blocks.length)
      |> fun g => set g 7 ci)
    pc := e.words[1]
    lanes := BitVec.ofNat 8 b.2
    first := BitVec.ofNat 7 b.1
    nlanes := BitVec.ofNat 8 b.2
    nfirst := BitVec.ofNat 7 b.1
    ten := e.ten
    asid := e.asid
    srcq := BitVec.ofNat 12 e.id.queue.val
    seq := BitVec.ofNat 32 e.id.seq
    task := some e.id
    status := .running }

/-- A barrier of a new gang or task. -/
def Barrier.new (live : Nat) : Barrier := { gen := 0#16, tag := 0#16, arr := 0#11, live := BitVec.ofNat 11 live }

/-- Start a new task on a placement (R333). -/
def startNew (s : State) (e : Entry) (pl : List Placed) : State :=
  let s := pl.zipIdx.foldl (fun s pc => (pc.1.ctxs.zip pc.1.blocks).zipIdx.foldl (fun s x =>
    putAgent s (startHart e pc.1 pc.2 x.2 x.1.1 x.1.2)) s) s
  putEntry s { e with
    state := .running
    skips := 0
    gangs := pl.map (fun p => { core := Fin.ofNat 40 p.core, row := p.row, rows := p.rows, gbar := Barrier.new p.ctxs.length, pool := [] })
    tbar := Barrier.new (pl.foldl (fun n p => n + p.ctxs.length) 0) }

/-- What the answer of a record does to a run, a command or a collective (R377; spec/13_chains.md R301;
spec/12_atomics_engines.md R276). A command goes on from the checkpoint at which it stands, once its task is not paused (R277). -/
def answerWork (s : State) (r : Pending) (decline : Bool) : State :=
  match r.subject with
  | .run h cause va =>
    let a := hartOf s h
    if a.ten = r.ten ∧ (a.vec.run.bind (fun x => x.stall)) = some r.token then
      putAgent s { a with vec := if decline then failRun a.vec { cause := cause, xval := va, access := r.words[4].toNat % 4 } else
        { a.vec with run := a.vec.run.map (fun x => { x with stall := none }) } }
    else s
  | .command h ticket =>
    match commandOf s h ticket with
    | some c =>
      if (hartOf s h).ten = r.ten ∧ c.phase = .stalled r.token then
        (if decline then endCommand s c 6 else putCommand s { c with phase := .paused })
      else s
    | none => s
  | .collective h ticket =>
    match collOf s h ticket with
    | some c =>
      if (hartOf s h).ten = r.ten ∧ c.stall = some r.token then
        (if decline then endColl s c 6 else putColl s { c with stall := none })
      else s
    | none => s
  | _ => s

/-- The hart whose run, command or collective a record is about. -/
def workHart : Subject → Option HartId
  | .run h _ _ => some h
  | .command h _ => some h
  | .collective h _ => some h
  | _ => none

/-- A hart goes on: the answers that came for its work while it was pre-empted or halted take effect (spec/16_isolation.md R368;
spec/17_traps.md R414). A hart parked on a record takes its own answer at its turn. -/
def goOn (s : State) (h : HartId) : State :=
  let a := hartOf s h
  if a.stopped || a.halted then s
  else (s.records.filter (fun r => r.answered.isSome && workHart r.subject == some h)).foldl
    (fun s r => answerWork (dropRecord s r.ten r.token) r (r.answered.getD false)) s

/-- Lanes beyond a hart's pending block are taken: what those in force hold goes to its save rows (R315). -/
def takeLanes (s : State) (h : HartId) (a : Agent) : Agent :=
  if blockIn (blockNow a) (blockNext a) then { a with kept := none }
  else poisonSaved s (hartCore h) { a with reclaimed := true, kept := none }

/-- Give a hart of a resumed task its lanes (R334). Slices that its save rows served, and that have lanes again, are loaded back by the
next VSAVE (spec/17_traps.md R404). -/
def resumeHart (s : State) (die core ctx : Nat) (b : Nat × Nat) : State :=
  let h : HartId := ⟨Fin.ofNat 8 die, Fin.ofNat 40 core, Fin.ofNat 32 ctx⟩
  let a := hartOf s h
  let a' := { a with nfirst := BitVec.ofNat 7 b.1, nlanes := BitVec.ofNat 8 b.2, stopped := false, reclaimed := false, kept := none }
  let a' := { a' with inRows := a.inRows || (a.reclaimed && blockIn (blockNow a') (blockNext a')) }
  goOn (putAgent s (takeLanes s h a')) h

/-- Start an entry on a placement, or resume it (R333, R334): its count of skips begins again (DEDUCED, log 35), and what its gangs'
pools held at its pre-emption is gone (log 20). -/
def launch (s : State) (e : Entry) (pl : List Placed) : State :=
  if e.state = .preempted then
    let s := pl.foldl (fun s p => (p.ctxs.zip p.blocks).foldl (fun s x => resumeHart s e.die.val p.core x.1 x.2) s) s
    putEntry s { e with state := .running, skips := 0, gangs := e.gangs.map (fun g => { g with pool := [] }) }
  else startNew s e pl

/-- Halve a hart's pending grant, towards MINL (R315). The lanes stay with the hart while CHG is set, but for those of a run in
progress, which breaks. A grown grant that is halved back to just the block in force leaves no change pending: CHG reads 0 and the lanes
of the growth are free at once, with no setvl (DESIGN CHOICE, log 20). -/
def shrinkHart (s : State) (minl : Nat) (h : HartId) : State :=
  let a := hartOf s h
  let n := a.nlanes.toNat / 2
  if n < minl then s
  else
    let a' := { a with nlanes := BitVec.ofNat 8 n, vec := freezeRun a.vec }
    putAgent s (if a.vec.rRun then takeLanes s h a'
      else { a' with kept := if changePending a' then some (a.kept.getD (a.nfirst, a.nlanes)) else none })

/-- Pre-empt a running task (R334): its harts then stop. Its gangs' pools are given up (DESIGN CHOICE, log 20). -/
def preemptTask (s : State) (id : EntryId) : State :=
  match entryOf s id with
  | none => s
  | some e =>
    if e.state ≠ .running then s
    else putEntry s { e with state := .preempted, gangs := e.gangs.map (fun g => { g with pool := [] }) }

/-- The tasks with a strictly later deadline, latest first (R333). -/
def victims (s : State) (e : Entry) : List Entry :=
  let l := s.entries.filter (fun x => x.die == e.die && x.state == .running && decide (e.deadline < x.deadline))
  l.mergeSort (fun a b => decide (b.deadline < a.deadline) || (a.deadline == b.deadline && decide (b.delivNo ≤ a.delivNo)))

/-- The state once every lane being taken is free: shrunk grants are in force and pre-empted harts have stopped. -/
def freed (s : State) : State :=
  mapAgents s (fun a =>
    let a := { a with kept := none, reclaimed := a.reclaimed || !blockIn (blockNow a) (blockNext a) }
    match a.task.bind (entryOf s) with
    | some e => if e.state = .preempted then { a with stopped := true } else a
    | none => a)

/-- Do a change. -/
def Change.apply (s : State) : Change → State
  | .shrink h minl => shrinkHart s minl h
  | .preempt e => preemptTask s e
/-- The harts whose lanes a change takes. -/
def Change.harts (s : State) : Change → List HartId
  | .shrink h minl => if (hartOf s h).nlanes.toNat / 2 < minl then [] else [h]
  | .preempt e => hartIds (liveHarts s e)

/-- Do changes one at a time until e fits once they have come about: the state, and the harts whose lanes are taken. -/
def untilFits (kept : List Placed) (id : EntryId) : State → List HartId → List Change → State × List HartId
  | s, hs, [] => (s, hs)
  | s, hs, c :: l =>
    match entryOf s id with
    | none => (s, hs)
    | some e => if (fits (freed s) kept e).isSome then (s, hs) else untilFits kept id (c.apply s) (hs ++ c.harts s) l

/-- The changes in the order of R333: each later task's harts from the highest lanes down, five halvings each; then the tasks
pre-empted. -/
def changes (s : State) (vs : List Entry) : List Change :=
  vs.flatMap (fun v => (hartIds ((liveHarts s v.id).mergeSort (fun a b => decide (b.nfirst.toNat ≤ a.nfirst.toNat)))).flatMap
    (fun h => List.replicate 5 (.shrink h (laneCode (reqMinl v.words[3].toNat))))) ++ vs.map (fun v => .preempt v.id)

/-- Set save rows aside for harts; where too few are free once what is kept has been placed, the first such hart (R405). -/
def setAside (kept : List Placed) : State → List HartId → Except HartId State
  | s, [] => .ok s
  | s, h :: l =>
    match takeSaveRows s kept (hartOf s h) with
    | none => .error h
    | some a => setAside kept (putAgent s a) l

/-- Shrink and pre-empt until e fits, and set the save rows aside. Nothing is taken from a hart whose save rows are not free once
e has been placed. `fuel` bounds the changes. -/
def makeRoom (kept : List Placed) (id : EntryId) (s : State) : Nat → List Change → Option (State × List Placed)
  | 0, _ => none
  | fuel + 1, cs =>
    let (s', hs) := untilFits kept id s [] cs
    match (entryOf s' id).bind (fits (freed s') kept) with
    | none => none
    | some pl =>
      match setAside (kept ++ pl) s' hs.eraseDups with
      | .ok t => some (t, pl)
      | .error h => makeRoom kept id s fuel (cs.filter (fun c => match c with
          | .shrink k _ => k != h
          | .preempt e => !(hartIds (liveHarts s e)).contains h))

/-- The stopped harts of pre-empted tasks whose lanes a placement takes: their state goes to save rows if the newcomer executes a
vector instruction (R404). -/
def displaced (s : State) (die : Nat) (pl : List Placed) : List HartId :=
  hartIds ((agents s).filter (fun a => a.stopped && agentDie a == die && a.status != .idle && (match a.task.bind (entryOf s) with
      | some e => e.state == .preempted
      | none => false) &&
    pl.any (fun p => p.core == agentCore a && p.blocks.any (fun b => !blockFree (hartBlocks a) b.1 b.2))))

/-- The entries that start while others are skipped count against them; the first that has been skipped 16 times is the drain
entry, one at a time (R333). -/
def countSkips (die : Nat) (s : State) (skipped : List EntryId) : State :=
  let s := skipped.foldl (fun s k => match entryOf s k with
    | none => s
    | some x => putEntry s { x with skips := x.skips + 1 }) s
  if s.drain.any (fun d => d.1 == die) then s
  else match skipped.find? (fun k => (entryOf s k).any (fun x => decide (16 ≤ x.skips))) with
    | some k => { s with drain := (die, k) :: s.drain }
    | none => s

/-- One entry of a pass (R333). -/
def passEntry (die : Nat) (p : Pass) (id : EntryId) : Pass :=
  match p.stopped, entryOf p.s id with
  | false, some e =>
    let drain := (p.s.drain.find? (fun d => d.1 == die)).map (fun d => d.2)
    if drain.isSome && drain != some id then { p with stopped := true }
    else match fits p.s p.kept e with
      | some pl =>
        match setAside (p.kept ++ pl) p.s (displaced p.s die pl) with
        | .ok s =>
          let s := launch s e pl
          let s := if drain = some id then { s with drain := s.drain.filter (fun d => d.1 != die) } else s
          { p with s := countSkips die s p.skipped }
        | .error _ => { p with skipped := p.skipped ++ [id] }
      | none =>
        match fits (freed p.s) p.kept e with
        | some pl => { p with kept := p.kept ++ pl }
        | none =>
          let cs := changes p.s (victims p.s e)
          match makeRoom p.kept id p.s (cs.length + 1) cs with
          | some (s, pl) => { p with s := s, kept := p.kept ++ pl }
          | none => { p with skipped := p.skipped ++ [id] }
  | _, _ => p

/-- The eligible entries of a die in the order of the pass. -/
def passOrder (s : State) (die : Nat) : List EntryId :=
  ((s.entries.filter (fun e => e.die.val == die && (e.state == .ready || e.state == .preempted))).mergeSort
    (fun a b => decide (a.deadline < b.deadline) || (a.deadline == b.deadline && decide (a.delivNo ≤ b.delivNo)))).map (fun e => e.id)

/-- A dispatch pass of a die (R333). A drain entry that has ended drains no more, and another that has been skipped 16 times
takes its place. -/
def dispatchPass (s : State) (die : Nat) : State :=
  let s := { s with drain := s.drain.filter (fun d => (entryOf s d.2).isSome) }
  let s := if s.drain.any (fun d => d.1 == die) then s
    else match (passOrder s die).find? (fun k => (entryOf s k).any (fun x => decide (16 ≤ x.skips))) with
      | some k => { s with drain := (die, k) :: s.drain }
      | none => s
  ((passOrder s die).foldl (passEntry die) { s := s, kept := [], skipped := [], stopped := false }).s

/-! ### Budget, deadline and time (R336-R341) -/

/-- Work units left, as `BUDGET` shows them. -/
def remain (e : Entry) : Nat := min (e.left / 128) (2 ^ 48 - 1)

/-- The task of the acting hart. -/
def myTask (s : State) : Option Entry := s.me.task.bind (entryOf s)

/-- A hart of the task is halted for debug (R341). -/
def taskHalted (s : State) (e : Entry) : Bool := (liveHarts s e.id).any (fun a => a.halted)

/-- The lanes a task holds. -/
def taskLanes (s : State) (e : Entry) : Nat :=
  ((liveHarts s e.id).filter (holdsLanes s)).foldl (fun n a => n + blockLanes (hartBlocks a)) 0 +
  (if e.state = .running then e.gangs.foldl (fun n g =>
    if (liveHarts s e.id).any (fun a => agentCore a == g.core.val) then g.pool.foldl (fun n p => n + p.2) n else n) 0 else 0)

/-- REMAIN has reached 0 (R338): the other harts are held and one is to take `OVERRUN`, or the task ends: with the extension
spent, whether or not the handler still runs, or with no live hart. -/
def spendBudget (s : State) (id : EntryId) : State :=
  match entryOf s id with
  | none => s
  | some x =>
    if x.left = 0 ∧ (x.state = .running ∨ x.state = .preempted) then
      if x.ext then endEntry s id 16
      else if x.exhausted then s
      else match overrunTarget s x with
        | some h => holdFor (putEntry s { x with exhausted := true, target := some h }) id h
        | none => endEntry s id 16
    else s

/-- The deadline passes (R339): MISSED, its record, and with ENDLATE the end. -/
def passDeadline (s : State) (id : EntryId) : State :=
  match entryOf s id with
  | none => s
  | some x =>
    if x.deadline ≤ s.kclock ∧ x.missed = false then
      let s := postNote (putEntry s { x with missed := true }) x.ten 5 0 0 0#64 (recordKiln x.die.val x.asid.toNat) (recordEntry (some id)) none
      if bit x.words[0] 50 then endEntry s id 17 else s
    else s

/-- The watchdog's limit (R340). -/
def passWatchdog (s : State) (id : EntryId) : State :=
  match entryOf s id with
  | none => s
  | some x => if x.watch ≤ x.watched then endEntry s id 18 else s

/-- The events of one entry that are due in this kiln cycle, in the order of R342. -/
def closeEntry (s : State) (id : EntryId) : State :=
  passWatchdog (passDeadline (spendBudget (completeEntry s id) id) id) id

/-- A kiln cycle ends: every event due in it is taken (R342). -/
def closeCycle (s : State) : State := (s.entries.map (fun e => e.id)).foldl closeEntry s

/-- Kiln cycles pass in which nothing falls due: the clock and the watchdogs (R340, R341). -/
def tickKiln (s : State) (n : Nat) : State :=
  { s with
    kclock := s.kclock + n
    entries := s.entries.map (fun e => if taskHalted s e then e else { e with watched := e.watched + n }) }

/-- The kiln cycles, at most n, to the next instant at which a deadline or a watchdog falls due. -/
def nextDue (s : State) (n : Nat) : Nat :=
  let soon (m t now : Nat) : Nat := if now < t then min m (t - now) else m
  (s.entries.filter (fun e => !e.state.final)).foldl (fun m e =>
    let m := soon m e.deadline s.kclock
    if taskHalted s e then m else soon m e.watch e.watched) n

/-- The charges for the grants that running tasks hold, over some arithmetic cycles (R337). -/
def chargeCycles (s : State) (n : Nat) : State :=
  s.entries.foldl (fun s e =>
    if e.state = .running ∧ taskHalted s e = false then charge s (some e.id) (taskLanes s e * n) else s) s

/-- n kiln cycles pass, and c arithmetic cycles evenly over them (log 3), each instant's charges made and its events taken before the
next (R342). `fuel` bounds the instants: two to an entry. -/
def elapseKiln : Nat → Nat → Nat → State → State
  | 0, n, c, s => tickKiln (chargeCycles s c) n
  | fuel + 1, n, c, s =>
    if n = 0 then chargeCycles s c
    else
      let t := closeCycle s
      let d := nextDue t n
      elapseKiln fuel (n - d) (c - c * d / n) (tickKiln (chargeCycles t (c * d / n)) d)

/-- Time passes (log 3): the charges for held grants, the clocks, and what falls due; and records that wait in Kiln go out as far
as their rings have room (spec/16_isolation.md R376). -/
def elapse (s : State) (kiln cycles : Nat) : State :=
  let s := elapseKiln (2 * s.entries.length + 1) kiln cycles { s with cycles := s.cycles + cycles }
  (List.range 64).foldl (fun s t => flushRecords t (tenOf s t).waiting.length s) s

/-- The S-mode write of `BUDGET` in an `OVERRUN` handler (R336, R338): the single extension, less the overdraft. Bits [63:48] of the
value lie in EXT and the reserved field, and are ignored (spec/00_scope.md R8). -/
def writeBudget (s : State) (x : Word) : State :=
  match myTask s, s.me.id with
  | some e, .hart h =>
    if s.me.mode = .s ∧ e.exhausted ∧ e.target = some h ∧ s.me.overrun = false ∧ e.ext = false then
      putEntry s { e with left := 128 * min (x.toNat % 2 ^ 48) (tenOf s e.ten.toNat).extlim.toNat - e.overdraft, ext := true, overdraft := 0 }
    else s
  | _, _ => s

/-- The `xret` that ends an `OVERRUN` handler (R338, R408): the task goes on, or ends with code 16. -/
def endOverrun (s : State) : State :=
  match myTask s with
  | none => s
  | some e =>
    if e.ext ∧ 128 ≤ e.left then
      mapAgents (putEntry s { e with exhausted := false, target := none }) (fun a => if a.task = some e.id then { a with held := false } else a)
    else endEntry s e.id 16

/-- GBAR: Arrives at the gang barrier and waits for the generation to complete. (R317); a hart outside any task has
no barrier and waits -/
def execGbar (rd rs1 : Reg) (s : State) : Host.Outcome State Fault Refusal :=
  finish 4 (hartOnly s (encRdRs1 0xB0000000 rd rs1) (runGate s (withG s [rs1]
    (match s.me.id, myTask s with
     | .hart h, some e =>
       match gangOf e h.core.val with
       | some g => barrierAns s rd ((Machine.rd s rs1).setWidth 16) g.gbar s.me.garr s.me.gwait
           (fun s b => putGbar s e h.core.val g.gbar b)
           (fun s arrived w => { s with me := { s.me with garr := arrived, gwait := w } })
       | none => .wait s
     | _, _ => .wait s))))

/-- TBAR: Arrives at the task barrier and waits for the generation to complete. (R317) -/
def execTbar (rd rs1 : Reg) (s : State) : Host.Outcome State Fault Refusal :=
  finish 4 (hartOnly s (encRdRs1 0xB0000001 rd rs1) (runGate s (withG s [rs1]
    (match myTask s with
     | some e => barrierAns s rd ((Machine.rd s rs1).setWidth 16) e.tbar s.me.tarr s.me.twait
         (fun s b => putTbar s e e.tbar b)
         (fun s arrived w => { s with me := { s.me with tarr := arrived, twait := w } })
     | none => .wait s))))

/-- HEXIT: Ends the hart after its earlier work and run, quitting its chain and giving up its lanes. (R410); the
context then stands idle -/
def execHexit  (s : State) : Host.Outcome State Fault Refusal :=
  finish 4 (hartOnly s 0x60000004
    (match runGate s (.done s) with
     | .done s => .jump (exitHart s) (exitHart s).me.pc
     | k => k))

/-- DELIVERY: The die kiln takes the next entry, applies pending decrements and sets its deadline. (R330); while a
die holds 4,096 entries it delivers nothing -/
def execDelivery (die : Fin 8) (s : State) : Host.Outcome State Fault Refusal :=
  if s.bootstat.toNat ≠ 4 ∨ 4096 ≤ (admitted s die.val).length then .next s
  else match nextQueue s die.val with
    | none => .next s
    | some q => .next (deliver { s with rotation := tset die.val q s.rotation } q)

/-- DISPATCH_PASS: The die kiln starts, shrinks, pre-empts or skips eligible entries in deadline order. (R333) -/
def execDispatchPass (die : Fin 8) (s : State) : Host.Outcome State Fault Refusal :=
  .next (dispatchPass s die.val)

/-- HART_STOP: A pre-empted hart stops at P within its bound and its scalar state is saved. (R398); a run freezes at
its last commit (R304) -/
def execHartStop (h : HartId) (s : State) : Host.Outcome State Fault Refusal :=
  let a := hartOf s h
  match a.task.bind (entryOf s) with
  | some e =>
    if e.state = .preempted ∧ a.stopped = false ∧ a.status ≠ .idle then
      .next (putAgent s { a with stopped := true, vec := freezeRun a.vec })
    else .next s
  | none => .next s

/-- RECLAIM_TIMEOUT: A hart without setvl 4,096 cycles after CHG is pre-empted. (R315); it resumes at once on its
smaller lanes -/
def execReclaimTimeout (h : HartId) (s : State) : Host.Outcome State Fault Refusal :=
  let a := hartOf s h
  if (a.kept.isSome ∨ blockIn (blockNow a) (blockNext a) = false ∧ a.reclaimed = false) ∧ holdsLanes s a then
    let a' := takeLanes s h { a with vec := freezeRun a.vec }
    .next { putAgent s a' with laneOwner := s.laneOwner.filter (fun p => p.2 != h || (lanesOf a' h).contains p.1) }
  else .next s

/-- TASK_COMPLETION: All harts exited and commands ended; the entry becomes DONE. (R332) -/
def execTaskCompletion (e : EntryId) (s : State) : Host.Outcome State Fault Refusal :=
  .next (completeEntry s e)

/-- BUDGET_EXHAUSTED: REMAIN reaches 0; other harts are held, or the task is ended. (R338); the budget is spent when
its lane-cycles are, as R443 counts them (DEDUCED, log 22); a completion in the same kiln cycle comes first (R342) -/
def execBudgetExhausted (e : EntryId) (s : State) : Host.Outcome State Fault Refusal :=
  .next (spendBudget (completeEntry s e) e)

/-- A hart may take the `OVERRUN` that is pending for it: it is in U mode, and no hart of its task is halted (spec/17_traps.md
R400, R414). -/
def overrunNow (s : State) (a : Agent) : Bool :=
  a.overrun && a.mode == .u && !((a.task.bind (entryOf s)).any (taskHalted s))

/-- The acting hart takes its pending `OVERRUN` at its PC, which ends the pending (R338, R389, R391, R400). -/
def takeOverrun (s : State) : State :=
  takeTrap { s with me := { s.me with overrun := false, overdue := false } }
    { cause := cOverrun, xval := 0#64, async := true, runrep := false, access := 0 }

/-- OVERRUN: The OVERRUN trap is taken at a point P within 4,096 cycles of exhaustion. (R400); held in S mode and
while parked -/
def execOverrun (e : EntryId) (s : State) : Host.Outcome State Fault Refusal :=
  match entryOf s e with
  | none => .next s
  | some x =>
    match x.target with
    | none => .next s
    | some h =>
      let a := hartOf s h
      if overrunNow s a ∧ a.status = .running ∧ a.stopped = false ∧ a.halted = false then .next (asHart s h takeOverrun)
      else .next s

/-- DEADLINE: The deadline passes; MISSED is set and the entry may be ended. (R339); a completion or the end of the budget in
the same kiln cycle comes first (R342) -/
def execDeadline (e : EntryId) (s : State) : Host.Outcome State Fault Refusal :=
  .next (passDeadline (spendBudget (completeEntry s e) e) e)

/-- WATCHDOG: The watchdog limit ends an entry that is not final. (R340); the other events of the kiln cycle come first (R342) -/
def execWatchdog (e : EntryId) (s : State) : Host.Outcome State Fault Refusal :=
  .next (closeEntry s e)


end Machine
end Sys2Proof
end

