-- ==== Sys2Proof/Machine/System.lean ====
section
/-! DEFINITION. Control and status registers but OBJCMD, and the system instructions (spec/05_scalar_ops.md R118, R119;
spec/17_traps.md R388, R396, R406-R413). -/

namespace Sys2Proof
namespace Machine

/-! ### Reading a register (spec/02_encoding.md R49) -/

/-- `VL` (spec/06_vector_arith.md R125). -/
def readVl (v : VecState) : Word := BitVec.ofNat 64 (v.vlTy.toNat * 2 ^ 24 + v.vlLen.toNat)
/-- `VMAX` (spec/14_harts_kiln.md R313). -/
def readVmax (a : Agent) : Word := BitVec.ofNat 64 (a.lanes.toNat * 2 ^ 32 + cap a.vec.vlTy.toNat a.lanes.toNat)
/-- `MTYPE` (spec/10_memory.md R214). -/
def readMtype (v : VecState) : Word := BitVec.ofNat 64 (v.mtDir.toNat * 4 + v.mtSpace.toNat)
/-- A bit as a number at its place. -/
def flagAt (b : Bool) (n : Nat) : Nat := if b then 2 ^ n else 0
/-- `RSTART` (spec/13_chains.md R290). -/
def readRstart (v : VecState) : Word :=
  BitVec.ofNat 64 (flagAt v.rRun 63 + flagAt v.rTemp 62 + flagAt v.rFail 61 + flagAt v.rPend 60 + v.rElem.toNat)
/-- `CHBASE` (spec/13_chains.md R289). -/
def readChbase (v : VecState) : Word := match v.chbase with
  | some a => BitVec.ofNat 64 (a.toNat * 8 + 1)
  | none => 0#64
/-- `PARTN` (spec/14_harts_kiln.md R312). -/
def readPartn (a : Agent) : Word :=
  BitVec.ofNat 64 (a.nlanes.toNat * 2 ^ 24 + a.nfirst.toNat * 2 ^ 17 + flagAt (changePending a) 16 + a.lanes.toNat * 2 ^ 8 + a.first.toNat)
/-- `GBAR` and `TBAR` (spec/14_harts_kiln.md R316). -/
def readBarrier (b : Barrier) : Word :=
  BitVec.ofNat 64 (b.gen.toNat * 2 ^ 48 + b.tag.toNat * 2 ^ 32 + b.arr.toNat * 2 ^ 16 + b.live.toNat)
/-- The gang barrier of the acting hart, if it has a task. -/
def readGbar (s : State) : Word := match hartGang s s.me.task (agentCore s.me) with
  | some g => readBarrier g.gbar
  | none => 0#64
/-- The task barrier. -/
def readTbar (s : State) : Word := match myTask s with
  | some e => readBarrier e.tbar
  | none => 0#64
/-- `BUDGET` (spec/14_harts_kiln.md R336). -/
def readBudget (s : State) : Word := match myTask s with
  | some e => BitVec.ofNat 64 (flagAt e.ext 63 + remain e)
  | none => 0#64
/-- LEFT (spec/14_harts_kiln.md R339). -/
def leftOf (s : State) (e : Entry) : Nat := min (e.deadline - s.kclock) (2 ^ 40 - 1)
/-- `DEADL` (spec/14_harts_kiln.md R339). -/
def readDeadl (s : State) : Word := match myTask s with
  | some e => BitVec.ofNat 64 (flagAt (e.missed || decide (e.deadline < s.kclock)) 63 + leftOf s e)
  | none => 0#64
/-- `XCAUSE` (spec/17_traps.md R388). -/
def readXcause (a : Agent) : Word := BitVec.ofNat 64 (flagAt a.xasync 63 + a.xcause.toNat)
/-- `XSTAT` (spec/17_traps.md R388). -/
def readXstat (a : Agent) : Word := BitVec.ofNat 64 (flagAt a.runrep 7 + flagAt a.fof 6 + a.pm.toNat)

/-- A number is one of a hart's registers. -/
def isHart (a : Agent) : Bool := match a.id with
  | .hart _ => true
  | .cc _ => false

/-- The lowest mode of a register on the acting agent; none where the number is unassigned (R49; spec/16_isolation.md
R369). -/
def csrMode (a : Agent) (n : Nat) : Option Mode :=
  if n = 4 ∨ n = 5 ∨ n = 0x22 ∨ (0xF00 ≤ n ∧ n ≤ 0xF04) then some .u
  else if 0x40 ≤ n ∧ n ≤ 0x43 then some .s
  else if isHart a then
    if n ≤ 8 ∨ (0x10 ≤ n ∧ n ≤ 0x12) ∨ (0x20 ≤ n ∧ n ≤ 0x23) then some .u else none
  else if n = 0x803 then some .m
  else if (0x800 ≤ n ∧ n ≤ 0x802) ∨ n = 0x810 ∨ n = 0x811 ∨ (0x818 ≤ n ∧ n ≤ 0x81F) then some .s
  else none

/-- The acting agent may access a register. -/
def csrOk (a : Agent) (n : Nat) : Bool := match csrMode a n with
  | some md => decide (md.code ≤ a.mode.code)
  | none => false

/-- The number of a control core. -/
def ccNumber (a : Agent) : Nat := match a.id with
  | .cc n => n.val
  | .hart _ => 0

/-- Read a register by its map (R118). -/
def readCsr (s : State) (n : Nat) : Word :=
  let a := s.me
  let v := a.vec
  let c := a.cc
  if n = 0x000 then readVl v
  else if n = 0x001 then readVmax a
  else if n = 0x002 then v.vstart.setWidth 64
  else if n = 0x003 then readMtype v
  else if n = 0x004 then a.rmode.setWidth 64
  else if n = 0x005 then a.fflags.setWidth 64
  else if n = 0x006 then v.srseed
  else if n = 0x007 then readRstart v
  else if n = 0x008 then readChbase v
  else if n = 0x010 then readPartn a
  else if n = 0x011 then readGbar s
  else if n = 0x012 then readTbar s
  else if n = 0x020 then readBudget s
  else if n = 0x021 then readDeadl s
  else if n = 0x022 then (if isHart a then BitVec.ofNat 64 (a.ten.toNat * 2 ^ 32 + a.asid.toNat) else 0#64)
  else if n = 0x023 then BitVec.ofNat 64 (a.srcq.toNat * 2 ^ 48 + a.seq.toNat)
  else if n = 0x040 then a.xpc
  else if n = 0x041 then readXcause a
  else if n = 0x042 then a.xval
  else if n = 0x043 then readXstat a
  else if n = 0x800 then BitVec.ofNat 64 (ccNumber a)
  else if n = 0x801 then c.tenmask
  else if n = 0x802 then BitVec.ofNat 64 (flagAt c.rootOn 63 + c.asid.toNat * 2 ^ 36 + c.root.toNat)
  else if n = 0x803 then BitVec.ofNat 64 (flagAt c.wren 0)
  else if n = 0x810 then BitVec.ofNat 64 (c.kind.toNat * 2 ^ 60 + c.index.toNat)
  else if n = 0x811 then BitVec.ofNat 64 (c.status.toNat * 256 + c.cmd.toNat)
  else if 0x818 ≤ n ∧ n ≤ 0x81F then c.objd.toList.getD (n - 0x818) 0#64
  else if n = 0xF00 then Config.fver
  else if 0xF01 ≤ n ∧ n ≤ 0xF04 then Config.feat (n - 0xF01)
  else 0#64

/-! ### Writing a register -/

/-- Change the acting agent. -/
def setMe (s : State) (a : Agent) : State := { s with me := a }
/-- Change the acting control core's registers. -/
def setCc (s : State) (c : CcRegs) : State := { s with me := { s.me with cc := c } }

/-- A write of MODE in `RMODE` (spec/04_formats.md R91). -/
def writeRmode (s : State) (x : Word) : Except Trap State :=
  let m := x.toNat % 8
  if m = 5 ∧ Config.hasFeature 99 = false then .error (Trap.sync cFeature 99#64)
  else .ok (setMe s { s.me with rmode := if 6 ≤ m then 0#3 else BitVec.ofNat 3 m })

/-- A write of `MTYPE` (spec/10_memory.md R214). -/
def writeMtype (s : State) (x : Word) : Except Trap State :=
  if x.toNat % 4 = 2 ∧ Config.hasFeature 101 = false then .error (Trap.sync cFeature 101#64)
  else .ok (setVec s { s.me.vec with mtDir := x.extractLsb' 2 2, mtSpace := x.extractLsb' 0 2 })

/-- What a write of PM stores (spec/17_traps.md R388). -/
def storedPm (hart : Bool) (x : Nat) : Nat := if hart then min x 1 else if x = 2 then 0 else x

/-- Write a register but OBJCMD (R118): `full` for `csrst`, whose write reaches every field; the other forms write the RW
fields only. A write of a read-only register is ignored (spec/00_scope.md R7). -/
def writeCsr (s : State) (n : Nat) (x : Word) (full : Bool) : Except Trap State :=
  let a := s.me
  let v := a.vec
  let c := a.cc
  if n = 0x000 then writeVl s x
  else if n = 0x002 then .ok (setVec s { v with vstart := x.setWidth 17 })
  else if n = 0x003 then writeMtype s x
  else if n = 0x004 then writeRmode s x
  else if n = 0x005 then .ok (setMe s { a with fflags := x.setWidth 5 })
  else if n = 0x006 then .ok (setVec s { v with srseed := x })
  else if n = 0x020 then .ok (if full then writeBudget s x else s)
  else if n = 0x040 then .ok (setMe s { a with xpc := x &&& ~~~3#64 })
  else if n = 0x041 then .ok (setMe s { a with xasync := bit x 63, xcause := x.setWidth 8 })
  else if n = 0x042 then .ok (setMe s { a with xval := x })
  else if n = 0x043 then
    .ok (setMe s { a with
      runrep := bit x 7
      fof := a.fof && !(full && bit x 6)
      pm := BitVec.ofNat 2 (storedPm (isHart a) (x.toNat % 4)) })
  else if n = 0x801 then .ok (if a.mode = .m then setCc s { c with tenmask := x } else s)
  else if n = 0x802 then
    .ok (setCc s { c with rootOn := bit x 63, asid := x.extractLsb' 36 16, root := x.extractLsb' 0 36 })
  else if n = 0x803 then .ok (setCc s { c with wren := bit x 0 })
  else if n = 0x810 then .ok (setCc s { c with kind := x.extractLsb' 60 4, index := x.extractLsb' 0 32 })
  else if 0x818 ≤ n ∧ n ≤ 0x81F then
    .ok (setCc s { c with objd := c.objd.set ((n - 0x818) % 8) x (Nat.mod_lt _ (by decide)) })
  else .ok s

/-- The registers of the vector state (spec/17_traps.md R402, R403). -/
def vectorCsr (n : Nat) : Bool := n == 0 || n == 2 || n == 3 || n == 6 || n == 7 || n == 8

/-! ### The vector image (spec/17_traps.md R411-R413) -/

/-- Bytes of an image. -/
def imageBytes (lanes : Nat) : Nat := 61440 + 17408 * lanes

/-- The scale store of a lane: sixteen slots of nine bits. -/
def laneScales (v : VRegs) (r lanes lane : Nat) : Nat :=
  (List.range 16).foldl (fun x k => x + scaleAt v r (k * lanes + lane) * 2 ^ (9 * k)) 0

/-- The doubleword at an offset of the image of the acting hart (R411). -/
def imageWord (s : State) (off : Nat) : Nat :=
  let v := s.me.vec
  let lanes := s.me.lanes.toNat
  if off < 0x1000 then
    if off = 0 then lanes
    else if off = 8 then (readVl v).toNat
    else if off = 16 then v.vstart.toNat
    else if off = 24 then (readMtype v).toNat
    else if off = 32 then v.srseed.toNat
    else if off = 40 then (readChbase v).toNat
    else if off = 48 then (readRstart v).toNat
    else 0
  else if off < 0xF000 then
    ((v.masks[((off - 0x1000) / 8192 + 1) % 8]'(Nat.mod_lt _ (by decide))).extractLsb' (8 * ((off - 0x1000) % 8192)) 64).toNat
  else
    let lane := (off - 0xF000) / 17408
    let x := (off - 0xF000) % 17408
    if x < 8192 then bitsAt v.regs (x / 256) (256 * (x % 256 / 32 * lanes + lane) + 8 * (x % 32)) 64
    else if x < 9216 then laneScales v.regs ((x - 8192) / 32) lanes lane / 2 ^ (8 * ((x - 8192) % 32)) % 2 ^ 64
    else
      let y := x - 9216
      ((accRow v.acc (y / 1024) (y % 1024 / 128)).extractLsb' (32 * (32 * lane + y % 128 / 4)) 64).toNat

/-- The doubleword at an offset lies in a poisoned unit (spec/18_ras.md R418, R419): a poisoned granule takes its lane's
scale store with it. -/
def imageBad (a : Agent) (off : Nat) : Bool :=
  let lanes := a.lanes.toNat
  if off < 0x1000 then false
  else if off < 0xF000 then unitBad a (.m ((off - 0x1000) / 8192 + 1))
  else
    let lane := (off - 0xF000) / 17408
    let x := (off - 0xF000) % 17408
    if x < 8192 then unitBad a (.v (x / 256) (x % 256 / 32 * lanes + lane))
    else if x < 9216 then (List.range 8).any (fun k => unitBad a (.v ((x - 8192) / 32) (k * lanes + lane)))
    else unitBad a (.acc ((x - 9216) / 128) lane)

/-- Write the image from an offset, in ascending order: n doublewords. A fault leaves what was written (R412). -/
def saveFrom (s : State) (va : Nat) : Nat → Nat → Except (State × Flt) State
  | 0, _ => .ok s
  | n + 1, off =>
    let badUnit := imageBad s.me off
    match resolve s (vectorCtx s) .write (va + off) with
    | .error f => .error (s, f)
    | .ok l =>
      let s' := writeLoc s l 8 (if badUnit then 0 else imageWord s off)
      let s' := match badUnit, l with
        | true, .mem k => addPoison s' (k / 64)
        | _, _ => s'
      saveFrom s' va n (off + 8)

/-- `vcsave` to an address (R412). -/
def saveImage (s : State) (va : Nat) : Except (State × Flt) State := saveFrom s va (imageBytes s.me.lanes.toNat / 8) 0

/-- Put a doubleword of an image of `lanes` lanes into the vector state. -/
def putImage (lanes : Nat) (v : VecState) (off x : Nat) : VecState :=
  if off < 0x1000 then v
  else if off < 0xF000 then
    let m := ((off - 0x1000) / 8192 + 1) % 8
    let lo := 8 * ((off - 0x1000) % 8192)
    let old := v.masks[m]'(Nat.mod_lt _ (by decide))
    { v with masks := v.masks.set m ((old &&& ~~~(BitVec.ofNat 65536 (2 ^ 64 - 1) <<< lo)) ||| (BitVec.ofNat 65536 x <<< lo)) (Nat.mod_lt _ (by decide)) }
  else
    let lane := (off - 0xF000) / 17408
    let y := (off - 0xF000) % 17408
    if y < 8192 then
      let r := regOf (y / 256)
      { v with regs := { v.regs with
        data := v.regs.data.set r (setBits v.regs.data[r] (256 * (y % 256 / 32 * lanes + lane) + 8 * (y % 32)) 64 x) } }
    else if y < 9216 then
      let r := regOf ((y - 8192) / 32)
      let q := 8 * ((y - 8192) % 32)
      let store := laneScales v.regs r.val lanes lane
      let store := store - store / 2 ^ q % 2 ^ 64 * 2 ^ q + x * 2 ^ q
      { v with regs := { v.regs with scale := v.regs.scale.set r ((List.range 16).foldl
        (fun z k => setScale z (k * lanes + lane) (store / 2 ^ (9 * k) % 512)) v.regs.scale[r]) } }
    else
      let z := y - 9216
      let row := accRow v.acc (z / 1024) (z % 1024 / 128)
      let n := 32 * lane + z % 128 / 4
      { v with acc := setRow v.acc (z / 1024) (z % 1024 / 128) (putCol (putCol row n (x % 2 ^ 32)) (n + 1) (x / 2 ^ 32)) }

/-- The doublewords of an image, from an offset: what each reads. -/
def readImage (s : State) (va : Nat) : Nat → Nat → List (Nat × Except Flt Nat)
  | 0, _ => []
  | n + 1, off => (off, readIn s (vectorCtx s) (va + off) 8) :: readImage s va n (off + 8)

/-- The first fault among some reads. -/
def firstFault : List (Nat × Except Flt Nat) → Option Flt
  | [] => none
  | (_, .error f) :: _ => some f
  | (_, .ok _) :: l => firstFault l

/-- The vector state that a whole image gives, before it is carried to the hart's lanes. -/
def wholeImage (v : VecState) (lanes : Nat) (ws : List (Nat × Except Flt Nat)) : VecState :=
  let z := VecState.zero
  let v := { v with regs := z.regs, masks := z.masks, acc := z.acc, pv := z.pv, pm := z.pm, pacc := z.pacc }
  ws.foldl (fun v w => match w.2 with
    | .ok x => putImage lanes v w.1 x
    | .error _ => v) v

/-- The vector state that an image leaves when a read of it faults: which of its doublewords have been restored is free
(log 10). -/
def partImage (v : VecState) (lanes tick : Nat) (ws : List (Nat × Except Flt Nat)) : VecState :=
  ws.foldl (fun v w => match w.2 with
    | .ok x => if Config.restored tick w.1 then putImage lanes v w.1 x else v
    | .error _ => v) v

/-- A word of the header of an image. -/
def headerWord (ws : List (Nat × Except Flt Nat)) (off : Nat) : Word :=
  match ws.find? (fun w => w.1 == off) with
  | some (_, .ok x) => BitVec.ofNat 64 x
  | _ => 0#64

/-- LANES of the image at an address, or the trap that reading it takes (R413). -/
def imageLanes (s : State) (va : Nat) : Except Trap Nat :=
  match readIn s (vectorCtx s) va 8 with
  | .error f => .error f.trap
  | .ok lanes =>
    if [4, 8, 16, 32, 64, 128].contains lanes then .ok lanes else .error (Trap.sync cIllegal (BitVec.ofNat 64 va))

/-- `vcrest` from an address (R413): the state, and the trap that it takes, if any. The chain is quit before the image is read. -/
def restoreImage (s : State) (va : Nat) : State × Option Trap :=
  match imageLanes s va with
  | .error t => (s, some t)
  | .ok lanes =>
      let s := quitChain s
      let ws := readImage s va (imageBytes lanes / 8) 0
      match firstFault ws with
      | some f => (nextTick (setVec s (partImage s.me.vec lanes s.tick ws)), some f.trap)
      | none =>
        let v := wholeImage s.me.vec lanes ws
        let s := setVec s (if lanes = lanesIn s then v else carry v lanes (lanesIn s))
        match writeVl s (headerWord ws 8) with
        | .error t => (s, some t)
        | .ok s =>
          match writeMtype s (headerWord ws 24) with
          | .error t => (s, some t)
          | .ok s => (setVec s { s.me.vec with srseed := headerWord ws 32, vstart := (headerWord ws 16).setWidth 17 }, none)

/-- ECALL: Traps ECALL with XPC at the word. (R407) -/
def execEcall  (s : State) : Host.Outcome State Fault Refusal :=
  finish 4 (.trap s (Trap.sync cEcall 0#64))

/-- EBREAK: Traps EBREAK with XPC at the word. (R407) -/
def execEbreak  (s : State) : Host.Outcome State Fault Refusal :=
  finish 4 (.trap s (Trap.sync cEbreak 0#64))

/-- XRET: Returns to XPC in mode PM, applying R338 after an OVERRUN handler. (R408); it does not return when it ends
the task -/
def execXret  (s : State) : Host.Outcome State Fault Refusal :=
  finish 4 (needS s 0x60000002
    (if (modeOf s.me.pm).code > s.me.mode.code then illegal s 0x60000002
     else
       let s' := if isHart s.me && s.me.xcause.toNat == cOverrun && s.me.xasync then endOverrun s else s
       if isHart s.me && s'.me.status == .idle then .wait s' else .jump { s' with me := leave s'.me } s'.me.xpc))

/-- `vcsave` and `vcrest` (R412, R413): the lazy switch and the report (R390), `ALIGN`, then their own tests, and the wait for the
run before the effect. -/
def imageWordInline (w : Nat) (rs1 : Reg) (s : State) (test : State → Nat → Option Trap) (k : State → Nat → Ans) :
    Host.Outcome State Fault Refusal :=
  finish 4 (needS s w (vectorNow s w (fun s => withG s [rs1]
    (let va := rd s rs1
     if va.toNat % 64 ≠ 0 then .trap s (Trap.sync cAlign va)
     else match test s va.toNat with
       | some t => .trap s t
       | none => if s.me.vec.rRun then .wait s else k s va.toNat))))

/-- VCSAVE: Writes the hart's vector image to memory at rs1. (R412) -/
def execVcsave (rs1 : Reg) (s : State) : Host.Outcome State Fault Refusal :=
  imageWordInline (encRs1 0x60000005 rs1) rs1 s (fun _ _ => none) (fun s va => match saveImage s va with
    | .ok s' => .done s'
    | .error (s', f) => .trap s' f.trap)

/-- VCREST: Restores the hart's vector state from the image at rs1. (R413) -/
def execVcrest (rs1 : Reg) (s : State) : Host.Outcome State Fault Refusal :=
  imageWordInline (encRs1 0x60000006 rs1) rs1 s (fun s va => match imageLanes s va with
    | .error t => some t
    | .ok _ => none) (fun s va => match restoreImage s va with
    | (s', none) => .done s'
    | (s', some t) => .trap s' t)


end Machine
end Sys2Proof
end

