-- ==== Sys2Proof/Machine/Objects.lean ====
section
/-! DEFINITION. The configuration objects and the commands of OBJCMD, answers to records, tenancy reset, debug, migration
(spec/16_isolation.md R368-R378; spec/17_traps.md R414, R415; spec/18_ras.md R421, R422), and the csr instructions. -/

namespace Sys2Proof
namespace Machine

/-! ### Answers (R368, R377) -/

/-- Give a parked hart the answer to its record: it goes on, takes the trap, or its task ends with code 20, after
what is due in the same kiln cycle (R368; spec/14_harts_kiln.md R342). -/
def applyAnswer (s : State) (h : HartId) (decline : Bool) (va : Word) : State :=
  let a := hartOf s h
  let s := putAgent s { a with status := .running, overdue := a.overrun }
  if !decline then s
  else match a.status with
    | .parked _ true =>
      if a.mode = .u then
        asHart s h (fun s => { s with me := enter s.me (Trap.sync cPfault va) .s (tenOf s s.me.ten.toNat).htvec })
      else (match a.task with
        | some e => endEntry (closeEntry s e) e 20
        | none => s)
    | _ => (match a.task with
        | some e => endEntry (closeEntry s e) e 20
        | none => s)

/-- The record that a parked hart waits on. -/
def parkedRecord (s : State) (a : Agent) : Option Pending :=
  match a.status with
  | .parked token _ => s.records.find? (fun r => r.ten == a.ten && r.token == token)
  | _ => none

/-- The answer that waits for a parked hart takes effect (R368): its record is then gone. -/
def takeAnswer (s : State) (h : HartId) : State :=
  match parkedRecord s (hartOf s h) with
  | some r => (match r.answered with
    | some d => applyAnswer (dropRecord s r.ten r.token) h d r.words[1]
    | none => s)
  | none => s

/-- An answer waits for its hart to go on: the record is answered, and waits no more in Kiln. -/
def holdAnswer (s : State) (r : Pending) (decline : Bool) : State :=
  let t := tenOf s r.ten.toNat
  putTen { s with records := s.records.map (fun x => if x = r then { r with answered := some decline } else x) } r.ten.toNat
    { t with waiting := t.waiting.filter (fun w => w[0].toNat / 2 ^ 32 != r.token) }

/-- Answer a record (R377). For a hart that is pre-empted or halted, and for its work, the answer waits until it goes on (R368;
spec/17_traps.md R414). -/
def answer (s : State) (r : Pending) (decline : Bool) : State :=
  let gone := dropRecord s r.ten r.token
  match r.subject with
  | .hartPage h | .hartFault h =>
    let a := hartOf s h
    if parkedRecord s a ≠ some r then gone
    else if a.stopped || a.halted then holdAnswer s r decline
    else applyAnswer gone h decline r.words[1]
  | .run h _ _ | .command h _ | .collective h _ =>
    if (hartOf s h).stopped || (hartOf s h).halted then holdAnswer s r decline else answerWork gone r decline
  | .ring q =>
    let v := queueOf gone q.val
    if v.stall = some r.token then
      (if decline then putQueue gone q.val { v with stall := none, en := false, dropped := v.slots.length }
       else refill q.val 32 (putQueue gone q.val { v with stall := none }))
    else gone

/-! ### Objects (R370-R373) -/

/-- STATUS codes (R370). -/
def stOk : Nat := 0
def stBadKind : Nat := 1
def stBadIndex : Nat := 2
def stDenied : Nat := 3
def stRange : Nat := 4
def stBusy : Nat := 5
def stBadCmd : Nat := 6

/-- The commands a kind accepts (R373). -/
def kindTakes (kind cmd : Nat) : Bool :=
  if kind = 1 then [1, 2, 3, 4].contains cmd
  else if kind = 7 then cmd == 1 || cmd == 5
  else if kind = 8 then cmd == 1 || cmd == 6
  else decide (2 ≤ kind) && decide (kind ≤ 11) && (cmd == 1 || cmd == 2)

/-- The number of objects of a kind (R371); hart debug has 40 cores to a die. -/
def indexOk (kind n : Nat) : Bool :=
  match kind with
  | 1 => n < 64
  | 2 => n < 512
  | 3 => n < 65536
  | 4 => n < 4096
  | 5 => n < 16
  | 6 => n < 1024
  | 7 => n < 4096
  | 8 => true
  | 9 => n < 8
  | 10 => n < 8
  | _ => n / 2048 < 8 && n % 2048 / 32 < 40

/-- The hart context of a debug object (spec/17_traps.md R415). -/
def debugHart (n : Nat) : HartId := ⟨Fin.ofNat 8 (n / 2048), Fin.ofNat 40 (n % 2048 / 32), Fin.ofNat 32 (n % 32)⟩
/-- The debug object of a hart context. -/
def debugIndex (h : HartId) : Nat := 2048 * h.die.val + 32 * h.core.val + h.ctx.val
/-- A migration object. -/
def migOf (s : State) (n : Nat) : Migration := tget Migration.reset n s.migrations
/-- A group registration. -/
def groupOf (s : State) (n : Nat) : GroupReg := tget GroupReg.reset n s.groups
/-- A hart debug object. -/
def debugOf (s : State) (n : Nat) : DebugObj := tget DebugObj.reset n s.debug

/-- The tenancies to check against `TENMASK` (R370, R373): of the object, and for a write of a group or migration object the
one it names. A token names its tenancy (log 16). -/
def objTenancies (s : State) (kind n : Nat) (d : Vector Word 8) (write : Bool) : List Nat :=
  match kind with
  | 1 => [n]
  | 2 => [n / 8]
  | 3 => [(aspOf s n).ten.toNat]
  | 4 => [(queueTen s n).toNat]
  | 6 => (groupOf s n).ten.toNat :: (if write then [fld d[0] 37 32] else [])
  | 7 => [(queueTen s n).toNat]
  | 8 => [n % 64]
  | 10 => if write then [fld d[3] 5 0] else [(migOf s n).ten.toNat]
  | 11 => [(hartOf s (debugHart n)).ten.toNat]
  | _ => []

/-- The acting control core may not command the object (R370). -/
def denied (s : State) (kind n : Nat) (d : Vector Word 8) (write : Bool) : Bool :=
  s.me.mode != .m &&
  (kind == 5 || kind == 9 || (objTenancies s kind n d write).any (fun t => !s.me.cc.tenmask.getLsbD t))

/-- An unanswered record by its token. -/
def recordOf (s : State) (token : Nat) : Option Pending := s.records.find? (fun r => r.token == token && r.answered.isNone)

/-- Word 0 of a hart debug object. -/
def debugWord0 (s : State) (n : Nat) : Word :=
  let a := hartOf s (debugHart n)
  BitVec.ofNat 64 (flagAt (debugOf s n).halt 63 + flagAt a.halted 62 + a.mode.code * 2 ^ 60 + a.ten.toNat * 2 ^ 32 + a.seq.toNat)

/-- The value of the register that a debug object selects, at P. While the hart runs there is no P: zero (DEDUCED, log 21). -/
def debugValue (s : State) (n : Nat) : Word :=
  let a := hartOf s (debugHart n)
  let o := debugOf s n
  if !a.halted then 0#64
  else if o.space then readCsr (switchTo s a.id) o.reg.toNat
  else getG a (regOf o.reg.toNat)

/-- PC of a debug object: the address of P. -/
def debugPc (s : State) (n : Nat) : Word := if (hartOf s (debugHart n)).halted then (hartOf s (debugHart n)).pc else 0#64

/-- The words of an entry object (R373): an entry that a queue holds undelivered shows STATE 0, whatever it was submitted with
(R377). Where its ring slot cannot be read the answer is BUSY: the spec names no status for it (DESIGN CHOICE, log 21). -/
def entryWords (s : State) (q seq : Nat) : Except Nat (Vector Word 8) :=
  match entryOf s (entryId q seq) with
  | some e => .ok (vec8 [statusWord e, BitVec.ofNat 64 (leftOf s e),
      BitVec.ofNat 64 (if e.gangs = [] then e.words[5].toNat else remain e)])
  | none =>
    let v := queueOf s q
    let out (w : Vector Word 8) := vec8 [w[0] &&& ~~~255#64, Config.undeliveredLeft s.tick, w[5]]
    if undelivered v (seq % 2 ^ 32) = false then .error stBadIndex
    else match v.slots.find? (fun x => x.seq == seq % 2 ^ 32) with
      | some x => .ok (out x.words)
      | none =>
        let k := v.widx - 1 - (v.nextSeq + 2 ^ 32 - 1 - seq % 2 ^ 32) % 2 ^ 32
        match readDwords s (queueCtx s q) (slotVa v k) 8 with
        | .ok l => .ok (out (vec8 l))
        | .error _ => .error stBusy

/-- READ (R373): the words of an object. -/
def readObject (s : State) (kind n : Nat) (d : Vector Word 8) : Except Nat (Vector Word 8) :=
  let w (l : List Nat) : Vector Word 8 := vec8 (l.map (BitVec.ofNat 64))
  match kind with
  | 1 =>
    let t := tenOf s n
    .ok (w [flagAt t.rst 62 + t.wdf.toNat, t.htvec.toNat, t.fqbase.toNat, t.fqirq.toNat * 2 ^ 32 + t.fqlog2.toNat,
      t.extlim.toNat, t.fqlost.toNat])
  | 2 =>
    let x := tget Share.reset n s.shares
    .ok (w [x.share.toNat, x.maxCores.toNat, x.maxLanes.toNat, x.maxRows.toNat])
  | 3 => .ok (w [flagAt (aspOf s n).valid 63 + (aspOf s n).ten.toNat, (aspOf s n).root.toNat])
  | 4 =>
    let v := queueOf s n
    .ok (w [flagAt v.en 63 + flagAt v.ring 62 + flagAt v.uopen 61 + v.die.toNat * 2 ^ 48 + v.asid.toNat, v.rbase.toNat,
      v.log2.toNat, (qstatWord v).toNat])
  | 5 =>
    let p := portOf s n
    .ok (w [p.station.toNat, p.tagPrio.toNat * 2 ^ 16 + p.vlan.toNat * 16 + flagAt p.tag 3 + p.prio.toNat, p.rxbase.toNat,
      p.txbase.toNat, p.txlog2.toNat * 256 + p.rxlog2.toNat, p.drops.toNat])
  | 6 =>
    let g := groupOf s n
    .ok (w [flagAt g.valid 63 + g.ten.toNat * 2 ^ 32 + g.group.toNat])
  | 7 => entryWords s n (d[0].toNat % 2 ^ 32)
  | 8 => match recordOf s n with
    | some r => .ok r.words
    | none => .error stBadIndex
  | 9 => .ok (Vector.ofFn (fun i => (s.bmeas[n % 8]'(Nat.mod_lt _ (by decide))).extractLsb' (64 * i.val) 64))
  | 10 =>
    let m := migOf s n
    .ok (w [flagAt m.busy 63 + m.line.toNat * 2 ^ 32 + m.result.toNat, m.src.toNat * 2 ^ 16, m.dst.toNat * 2 ^ 16, m.ten.toNat])
  | _ =>
    let o := debugOf s n
    .ok (vec8 [debugWord0 s n, debugPc s n, BitVec.ofNat 64 (flagAt o.space 16 + o.reg.toNat), debugValue s n, o.image,
      o.imgop.setWidth 64])

/-- The bits of word k that R371 and R415 name, for each kind: every other bit is a zero field (DEDUCED, log 21).
Word 3 of a queue, which a READ fills with what `qstat` returns (R373), is no field of a WRITE and is ignored (DESIGN CHOICE,
log 21). -/
def namedBits (kind k : Nat) : Nat :=
  let m (hi lo : Nat) := 2 ^ (hi + 1) - 2 ^ lo
  match kind, k with
  | 1, 0 => m 62 62 + m 7 0
  | 1, 1 => m 63 2
  | 1, 2 => m 51 6
  | 1, 3 => m 63 32 + m 4 0
  | 1, 4 => m 47 0
  | 1, 5 => m 31 0
  | 2, 0 => m 39 0
  | 2, 1 => m 5 0
  | 2, 2 => m 12 0
  | 2, 3 => m 17 0
  | 3, 0 => m 63 63 + m 5 0
  | 3, 1 => m 35 0
  | 4, 0 => m 63 61 + m 50 48 + m 15 0
  | 4, 1 => m 63 6
  | 4, 2 => m 4 0
  | 4, 3 => m 63 0
  | 5, 0 => m 47 0
  | 5, 1 => m 18 0
  | 5, 2 => m 63 0
  | 5, 3 => m 63 0
  | 5, 4 => m 12 8 + m 4 0
  | 5, 5 => m 31 0
  | 6, 0 => m 63 63 + m 37 0
  | 9, _ => m 63 0
  | 10, 0 => m 63 63 + m 41 32 + m 7 0
  | 10, 1 => m 51 16
  | 10, 2 => m 51 16
  | 10, 3 => m 5 0
  | 11, 0 => m 63 60 + m 37 0
  | 11, 1 => m 63 0
  | 11, 2 => m 16 16 + m 11 0
  | 11, 3 => m 63 0
  | 11, 4 => m 63 6
  | 11, 5 => m 1 0
  | _, _ => 0

/-- No zero field is written non-zero (R370). -/
def zeroOk (kind : Nat) (d : Vector Word 8) : Bool :=
  (List.range 8).all (fun k => (d.toList.getD k 0#64) &&& ~~~(BitVec.ofNat 64 (namedBits kind k)) == 0#64)

/-- A number lies in a range. -/
def within (lo hi n : Nat) : Bool := lo ≤ n && n ≤ hi

/-- The fault queue of a tenancy holds records. -/
def fqHolds (s : State) (t : Tenancy) : Bool :=
  t.fqlog2 != 0#5 && Memory.readLE s.mem t.fqbase.toNat 8 != Memory.readLE s.mem (t.fqbase.toNat + 8) 8

/-- WRITE of a tenancy (R371, R372). -/
def writeTenancy (s : State) (n : Nat) (d : Vector Word 8) : State × Nat :=
  let t := tenOf s n
  let t' := { t with
    wdf := d[0].setWidth 8, htvec := d[1], fqbase := d[2].setWidth 52, fqirq := d[3].extractLsb' 32 32,
    fqlog2 := d[3].setWidth 5, extlim := d[4].setWidth 48 }
  if !(within 2 64 (fld d[0] 7 0) && within 5 20 (fld d[3] 4 0)) then (s, stRange)
  else if (t'.fqbase != t.fqbase || t'.fqlog2 != t.fqlog2) && fqHolds s t then (s, stBusy)
  else (putTen s n t', stOk)

/-- WRITE of a die share (R371). -/
def writeShare (s : State) (n : Nat) (d : Vector Word 8) : State × Nat :=
  let x : Share := { share := d[0].setWidth 40, maxCores := d[1].setWidth 6, maxLanes := d[2].setWidth 13, maxRows := d[3].setWidth 18 }
  let sum := (List.range 64).foldl (fun m t => m + (if 8 * t + n % 8 = n then x else tget Share.reset (8 * t + n % 8) s.shares).share.toNat) 0
  if 40 < x.maxCores.toNat ∨ 5120 < x.maxLanes.toNat ∨ 245760 < x.maxRows.toNat ∨ 420548881 < sum then (s, stRange)
  else ({ s with shares := tset n x s.shares }, stOk)

/-- WRITE of an address space (R371). A queue uses the ASID that it was written with, enabled or not; a queue that nothing has written
uses none, ASID 0 of its reset included (DESIGN CHOICE, log 21). -/
def writeSpace (s : State) (n : Nat) (d : Vector Word 8) : State × Nat :=
  let x : ASpace := { valid := bit d[0] 63, ten := d[0].setWidth 6, root := d[1].setWidth 36 }
  let used := s.queues.any (fun q => q.2.asid.toNat == n) || s.entries.any (fun e => e.asid.toNat == n && !e.state.final)
  if x.ten != (aspOf s n).ten && used then (s, stBusy) else ({ s with aspaces := tset n x s.aspaces }, stOk)

/-- WRITE of a queue (R371, R327). Its ring holds what its header says, polled or not (R319). A queue that is enabled keeps the indices
of its ring (DESIGN CHOICE, log 37), takes on chip what the ring still holds, and is polled after its interval (R326). -/
def writeQueue (s : State) (n : Nat) (d : Vector Word 8) : State × Nat :=
  let v := queueOf s n
  let v' := { v with
    en := bit d[0] 63, ring := bit d[0] 62, uopen := bit d[0] 61, die := d[0].extractLsb' 48 3, asid := d[0].setWidth 16,
    rbase := d[1], log2 := d[2].setWidth 5 }
  let held := v.slots != [] || decide (v.ridx < headWidx s n) || v.pending != []
  if !(within 5 20 v'.log2.toNat) || !(aspOf s v'.asid.toNat).valid then (s, stRange)
  else if held && v' != { v with en := v'.en } then (s, stBusy)
  else if v.en && !v'.en then
    let s := stopQueue s n
    (putQueue s n { queueOf s n with
      ring := v'.ring, uopen := v'.uopen, die := v'.die, asid := v'.asid, rbase := v'.rbase, log2 := v'.log2 }, stOk)
  else if !v.en && v'.en then
    (refill n 32 (putQueue s n { v' with interval := 64, due := s.kclock + 64 }), stOk)
  else (putQueue s n v', stOk)

/-- WRITE of a port (R371, R372). -/
def writePort (s : State) (n : Nat) (d : Vector Word 8) : State × Nat :=
  let p := portOf s n
  if !(within 1 12 (fld d[4] 12 8) && within 1 12 (fld d[4] 4 0)) then (s, stRange)
  else ({ s with ports := tset n { p with
    station := d[0].setWidth 48, tagPrio := d[1].extractLsb' 16 3, vlan := d[1].extractLsb' 4 12, tag := bit d[1] 3,
    prio := d[1].setWidth 3, rxbase := d[2], txbase := d[3], txlog2 := d[4].extractLsb' 8 5, rxlog2 := d[4].setWidth 5 } s.ports }, stOk)

/-- WRITE of a group registration (R371). -/
def writeGroup (s : State) (n : Nat) (d : Vector Word 8) : State × Nat :=
  let g : GroupReg := { valid := bit d[0] 63, ten := d[0].extractLsb' 32 6, group := d[0].setWidth 32 }
  if g.valid && s.groups.any (fun x => x.1 != n && x.2.valid && x.2.group == g.group) then (s, stRange)
  else ({ s with groups := tset n g s.groups }, stOk)

/-- The bytes of eight words, least significant first. -/
def wordBytes (d : Vector Word 8) : List Byte := d.toList.flatMap (fun w => leBytes 8 w.toNat)

/-- An extension of a measurement by a 64-byte digest (R382). -/
def extend (m : BitVec 512) (d : List Byte) : BitVec 512 := sha512 (leBytes 64 m.toNat ++ d)

/-- WRITE of a measurement (R382). -/
def writeMeasurement (s : State) (n : Nat) (d : Vector Word 8) : State × Nat :=
  if n < 3 then (s, stDenied)
  else ({ s with bmeas := s.bmeas.set (n % 8) (extend (s.bmeas[n % 8]'(Nat.mod_lt _ (by decide))) (wordBytes d)) (Nat.mod_lt _ (by decide)) }, stOk)

/-- A frame lies in HBM4E. -/
def frameOk (f : Nat) : Bool := f * 65536 + 65536 ≤ hbmEnd

/-- WRITE of a migration object starts a migration (spec/18_ras.md R421). -/
def writeMigration (s : State) (n : Nat) (d : Vector Word 8) : State × Nat :=
  let m := migOf s n
  let src := fld d[1] 51 16
  let dst := fld d[2] 51 16
  if m.busy then (s, stBusy)
  else if !(frameOk src && frameOk dst) || src == dst then (s, stRange)
  else ({ s with migrations := tset n { m with busy := true, src := BitVec.ofNat 36 src, dst := BitVec.ofNat 36 dst, ten := d[3].setWidth 6, next := 0 } s.migrations }, stOk)

/-- A task of the hart can be halted (spec/17_traps.md R414). -/
def canHalt (s : State) (a : Agent) : Bool :=
  a.status != .idle && (match a.task.bind (entryOf s) with
    | some e => e.state == .running || e.state == .preempted
    | none => false)

/-- Write the register that a debug object selects, at the halted hart (spec/17_traps.md R415). -/
def debugWrite (s : State) (h : HartId) (space : Bool) (reg : Nat) (x : Word) : Option State :=
  let t := switchTo s (.hart h)
  if !space then some (switchTo (wr t (regOf reg) x) s.me.id)
  else match writeCsr t reg x true with
    | .ok t' => some (switchTo t' s.me.id)
    | .error _ => none

/-- IMGOP at the halted hart (R415): a fault gives RANGE. A run in progress gives BUSY (DEDUCED, log 21). -/
def debugImage (s : State) (h : HartId) (op : Nat) (va : Word) : State × Nat :=
  let t := switchTo s (.hart h)
  if op = 0 then (s, stOk)
  else if t.me.vec.rRun then (s, stBusy)
  else if op = 1 then
    match saveImage t va.toNat with
    | .ok t' => (switchTo t' s.me.id, stOk)
    | .error (t', _) => (switchTo t' s.me.id, stRange)
  else match restoreImage t va.toNat with
    | (t', none) => (switchTo t' s.me.id, stOk)
    | (t', some _) => (switchTo t' s.me.id, stRange)

/-- WRITE of a hart debug object (spec/17_traps.md R414, R415). A hart has no register of a higher mode than S, so S mode is
DENIED the numbers that are unassigned on a hart (log 21). -/
def writeDebug (s : State) (n : Nat) (d : Vector Word 8) : State × Nat :=
  let h := debugHart n
  let a := hartOf s h
  let space := bit d[2] 16
  let reg := fld d[2] 11 0
  let op := fld d[5] 1 0
  let halt := bit d[0] 63
  let o : DebugObj := { halt := halt, space := space, reg := BitVec.ofNat 12 reg, image := d[4], imgop := BitVec.ofNat 2 op }
  let put (s : State) : State := { s with debug := tset n o s.debug }
  if space ∧ csrMode a reg = none then (s, if s.me.mode = .m then stRange else stDenied)
  else if op = 3 ∨ (space = false ∧ 32 ≤ reg) then (s, stRange)
  else if !a.halted then
    if d[1] ≠ 0#64 ∨ d[3] ≠ 0#64 ∨ op ≠ (debugOf s n).imgop.toNat ∨ (halt && !canHalt s a) then (s, stBusy) else (put s, stOk)
  else if op ≠ 0 ∧ a.vec.rRun then (s, stBusy)
  else match debugWrite (putAgent s { a with pc := d[1] }) h space reg d[3] with
    | none => (s, stRange)
    | some s1 =>
      let (s2, st) := debugImage (put s1) h op d[4]
      let b := hartOf s2 h
      (if halt then s2 else goOn (putAgent s2 { b with halted := false }) h, st)

/-- WRITE (R370). -/
def writeObject (s : State) (kind n : Nat) (d : Vector Word 8) : State × Nat :=
  if !zeroOk kind d then (s, stRange)
  else match kind with
    | 1 => writeTenancy s n d
    | 2 => writeShare s n d
    | 3 => writeSpace s n d
    | 4 => writeQueue s n d
    | 5 => writePort s n d
    | 6 => writeGroup s n d
    | 9 => writeMeasurement s n d
    | 10 => writeMigration s n d
    | _ => writeDebug s n d

/-- END (R377). What falls due for the entry in the same kiln cycle comes first (spec/14_harts_kiln.md R342). -/
def endObject (s : State) (q seq : Nat) : State × Nat :=
  let v := queueOf s q
  if (entryOf s (entryId q seq)).isSome then (endEntry (closeEntry s (entryId q seq)) (entryId q seq) 20, stOk)
  else if undelivered v (seq % 2 ^ 32) then
    (if v.ends.contains (seq % 2 ^ 32) then s else putQueue s q { v with ends := v.ends ++ [seq % 2 ^ 32] }, stOk)
  else (s, stBadIndex)

/-- TRESET (R378): the entries that its queues hold are to be rejected with code 7 (spec/14_harts_kiln.md R343). -/
def resetTenancy (s : State) (n : Nat) : State × Nat :=
  let t := tenOf s n
  (if t.rst then s
   else putTen { s with queues := s.queues.map (fun p =>
     if (queueTen s p.1).toNat = n then (p.1, { p.2 with doomed := p.2.slots.length + ringCount p.2 }) else p) } n
     { t with rst := true, quiet := false }, stOk)
/-- TRELEASE (R378): BUSY before quiescence; of a tenancy that is not in reset, OK with no effect (DESIGN CHOICE, log 21). -/
def releaseTenancy (s : State) (n : Nat) : State × Nat :=
  let t := tenOf s n
  if t.rst && !t.quiet then (s, stBusy) else (putTen s n { t with rst := false, quiet := false }, stOk)

/-- What a command does to the package and the words it reads; its checks in the order BADCMD, BADKIND, BADINDEX, DENIED, then
its own (DEDUCED, log 21). -/
def command (s : State) (cmd : Nat) : State × Nat × Vector Word 8 :=
  let c := s.me.cc
  let kind := c.kind.toNat
  let n := c.index.toNat
  let d := c.objd
  let out (p : State × Nat) : State × Nat × Vector Word 8 := (p.1, p.2, d)
  if cmd = 0 ∨ 7 ≤ cmd then (s, stBadCmd, d)
  else if !kindTakes kind cmd then (s, stBadKind, d)
  else if !indexOk kind n then (s, stBadIndex, d)
  else if denied s kind n d (cmd == 2) then (s, stDenied, d)
  else match cmd with
    | 1 => (match readObject s kind n d with
      | .ok w => (nextTick s, stOk, w)
      | .error st => (s, st, d))
    | 2 => out (writeObject s kind n d)
    | 3 => out (resetTenancy s n)
    | 4 => out (releaseTenancy s n)
    | 5 => out (endObject s n (d[0].toNat % 2 ^ 32))
    | _ => (match recordOf s n with
      | some r => (answer s r (bit d[0] 0), stOk, d)
      | none => (s, stBadIndex, d))

/-- A write of CMD executes the command (R370) as the acting control core, and STATUS tells its outcome. -/
def runCommand (s : State) (cmd : Nat) : State :=
  let (s', st, w) := command s cmd
  setCc s' { s'.me.cc with status := BitVec.ofNat 8 st, cmd := BitVec.ofNat 8 cmd, objd := w }

/-- A control core executes a command by a write of OBJCMD, in S mode or above. -/
def asCommand (cc : Fin 32) (cmd : Nat) (want : State → Bool) (s : State) : Host.Outcome State Fault Refusal :=
  let t := switchTo s (.cc cc)
  if t.me.mode = .u ∨ want t = false then .next s else .next (switchTo (runCommand t cmd) s.me.id)

/-! ### The csr instructions (spec/05_scalar_ops.md R118) -/

/-- Write a register, OBJCMD among them. -/
def storeCsr (s : State) (n : Nat) (x : Word) (full : Bool) : Except Trap State :=
  if n = 0x811 then .ok (runCommand s (x.toNat % 256)) else writeCsr s n x full

/-- A csr instruction (R118): an unassigned number or a mode too low is `ILLEGAL`; then the lazy switch and the report for a
register of the vector state (spec/17_traps.md R390, R403); then the read and the write. A write of `FFLAGS` waits for a run that
has been issued (R119), which a read does not (spec/04_formats.md R97). -/
def csrInline (w : Nat) (rd : Reg) (rs : List Reg) (n : Nat) (new : Word → Option Word) (full : Bool) (s : State) :
    Host.Outcome State Fault Refusal :=
  let k (s : State) : Ans := withG s rs
    (let old := readCsr s n
     match new old with
     | none => .done (wr s rd old)
     | some x => if n = 5 && s.me.vec.rRun then .wait s else match storeCsr s n x full with
       | .ok s' => .done (wr s' rd old)
       | .error t => .trap s t)
  finish 4 (if !csrOk s.me n then illegal s w else if vectorCsr n then vectorNow s w k else k s)

/-- CSRLD: Reads a control and status register into rd without writing it. (R118) -/
def execCsrld (rd : Reg) (csr : Fin 4096) (s : State) : Host.Outcome State Fault Refusal :=
  csrInline (encRdCsr 0x50000000 rd csr) rd [] csr.val (fun _ => none) true s

/-- CSRST: Reads a register into rd and writes rs1 into every field. (R118) -/
def execCsrst (rd rs1 : Reg) (csr : Fin 4096) (s : State) : Host.Outcome State Fault Refusal :=
  let v := Machine.rd s rs1
  csrInline (encRdRs1Csr 0x50000001 rd rs1 csr) rd [rs1] csr.val (fun _ => some v) true s

/-- CSRBSET: Reads a register and sets the RW bits given by rs1. (R118) -/
def execCsrbset (rd rs1 : Reg) (csr : Fin 4096) (s : State) : Host.Outcome State Fault Refusal :=
  let v := Machine.rd s rs1
  csrInline (encRdRs1Csr 0x50000002 rd rs1 csr) rd [rs1] csr.val (fun old => some (old ||| v)) false s

/-- CSRBCLR: Reads a register and clears the RW bits given by rs1. (R118) -/
def execCsrbclr (rd rs1 : Reg) (csr : Fin 4096) (s : State) : Host.Outcome State Fault Refusal :=
  let v := Machine.rd s rs1
  csrInline (encRdRs1Csr 0x50000003 rd rs1 csr) rd [rs1] csr.val (fun old => some (old &&& ~~~v)) false s

/-- CSRSTI: Reads a register and writes zext(uimm5) into every field. (R118) -/
def execCsrsti (rd : Reg) (uimm : Fin 32) (csr : Fin 4096) (s : State) : Host.Outcome State Fault Refusal :=
  let v : Word := BitVec.ofNat 64 uimm.val
  csrInline (encRdUimmCsr 0x51000001 rd uimm csr) rd [] csr.val (fun _ => some v) true s

/-- CSRBSETI: Reads a register and sets the RW bits given by uimm5. (R118) -/
def execCsrbseti (rd : Reg) (uimm : Fin 32) (csr : Fin 4096) (s : State) : Host.Outcome State Fault Refusal :=
  let v : Word := BitVec.ofNat 64 uimm.val
  csrInline (encRdUimmCsr 0x51000002 rd uimm csr) rd [] csr.val (fun old => some (old ||| v)) false s

/-- CSRBCLRI: Reads a register and clears the RW bits given by uimm5. (R118) -/
def execCsrbclri (rd : Reg) (uimm : Fin 32) (csr : Fin 4096) (s : State) : Host.Outcome State Fault Refusal :=
  let v : Word := BitVec.ofNat 64 uimm.val
  csrInline (encRdUimmCsr 0x51000003 rd uimm csr) rd [] csr.val (fun old => some (old &&& ~~~v)) false s

/-- CMD_READ: OBJCMD READ places the selected object's words in OBJD0-OBJD7. (R373) -/
def execCmdRead (cc : Fin 32) (s : State) : Host.Outcome State Fault Refusal :=
  asCommand cc 1 (fun _ => true) s

/-- CMD_WRITE: OBJCMD WRITE sets every RW field of the object at once. (R370) -/
def execCmdWrite (cc : Fin 32) (s : State) : Host.Outcome State Fault Refusal :=
  asCommand cc 2 (fun _ => true) s

/-- TRESET: Sets RST and starts quiescing the tenancy. (R378) -/
def execTreset (cc : Fin 32) (s : State) : Host.Outcome State Fault Refusal :=
  asCommand cc 3 (fun _ => true) s

/-- TRELEASE: Ends a tenancy reset after quiescence. (R378) -/
def execTrelease (cc : Fin 32) (s : State) : Host.Outcome State Fault Refusal :=
  asCommand cc 4 (fun _ => true) s

/-- END: Ends an admitted entry or marks an undelivered one to be ended. (R377) -/
def execEndEntry (cc : Fin 32) (s : State) : Host.Outcome State Fault Refusal :=
  asCommand cc 5 (fun _ => true) s

/-- ANSWER_RETRY: Answers a record RETRY, re-executing or continuing the stalled work. (R368) -/
def execAnswerRetry (cc : Fin 32) (s : State) : Host.Outcome State Fault Refusal :=
  asCommand cc 6 (fun t => !bit t.me.cc.objd[0] 0) s

/-- ANSWER_DECLINE: Answers a record DECLINE, trapping, failing or ending the work. (R368) -/
def execAnswerDecline (cc : Fin 32) (s : State) : Host.Outcome State Fault Refusal :=
  asCommand cc 6 (fun t => bit t.me.cc.objd[0] 0) s

/-- HALTED: The hart stops at P and HALTED reads 1. (R414); a run freezes at its last commit. HALT stays as it was written when the
hart's task ends, but for a tenancy reset (DESIGN CHOICE, log 21) -/
def execHalted (h : HartId) (s : State) : Host.Outcome State Fault Refusal :=
  let a := hartOf s h
  if (debugOf s (debugIndex h)).halt ∧ a.halted = false ∧ canHalt s a then
    .next (putAgent s { a with halted := true, vec := freezeRun a.vec })
  else .next s

/-- QUIESCENCE: The tenancy's work is stopped, discarded and freed. (R378) -/
def execQuiescence (ten : Fin 64) (s : State) : Host.Outcome State Fault Refusal :=
  let t := tenOf s ten.val
  if t.rst = false ∨ t.quiet then .next s
  else
    let mine (e : Entry) : Bool := e.ten.toNat == ten.val && !e.state.final
    let s := (s.entries.filter mine).foldl (fun s e => endEntry (closeEntry s e.id) e.id 19) s
    let s := { s with
      records := s.records.filter (fun r => r.ten.toNat != ten.val)
      tlb := s.tlb.filter (fun x => (aspOf s x.asid).ten.toNat != ten.val)
      colls := s.colls.filter (fun c => c.ten.toNat != ten.val)
      early := s.early.filter (fun x => x.1 != ten.val)
      queues := s.queues.map (fun (p : Nat × Queue) => if (aspOf s p.2.asid.toNat).ten.toNat = ten.val then (p.1, { p.2 with stall := none }) else p)
      debug := List.map (fun (p : Nat × DebugObj) => if (hartOf s (debugHart p.1)).task = none then (p.1, { p.2 with halt := false }) else p) s.debug }
    let s := s.migrations.foldl (fun (s : State) (p : Nat × Migration) =>
      if p.2.busy ∧ p.2.ten.toNat = ten.val then
        { releaseRange s (p.2.dst.toNat * 65536) 65536 with
          migrations := tset p.1 { p.2 with busy := false, result := 3#8 } s.migrations }
      else s) s
    .next (putTen s ten.val { tenOf s ten.val with quiet := true, waiting := [] })

/-- The next line of a migration, read under spec/18_ras.md R417 and failing both reads or not; or its end (R422). -/
def migrateLine (s : State) (obj : Fin 8) (lasting : Bool) : State :=
  let m := migOf s obj.val
  let put (s : State) (m : Migration) : State := { s with migrations := tset obj.val m s.migrations }
  let src := m.src.toNat * 65536 + 64 * m.next
  let dst := m.dst.toNat * 65536 + 64 * m.next
  let who := recordPlace (40 * obj.val) 2
  if m.busy = false then s
  else if 1024 ≤ m.next then
    postNote (put s { m with busy := false, result := 0#8, line := 0#10 }) m.ten 11 0 0 (BitVec.ofNat 64 (m.src.toNat * 65536)) who 0#64 none
  else if isPoisoned s src then
    put (addPoison { s with mem := Memory.zeroRange s.mem dst 64 } (dst / 64)) { m with next := m.next + 1 }
  else if lasting then
    let s := addPoison { s with mem := (List.range 64).foldl (fun m k =>
      Memory.write m (src + k) (Config.lostByte (64 * s.tick + k))) s.mem } (src / 64)
    let s := releaseRange s (m.dst.toNat * 65536) 65536
    let s := put s { m with busy := false, result := 1#8, line := BitVec.ofNat 10 m.next }
    let s := { s with fenced := s.fenced ++ [if Config.channelFails s.tick then .hbmChannel (src / 64) else .hbmRow (src / 64)] }
    nextTick ([9, 10, 12].foldl (fun s kind => postNote s m.ten kind 0 0 (BitVec.ofNat 64 src) who 0#64 none) s)
  else put { s with mem := Memory.writeLE s.mem dst 64 (Memory.readLE s.mem src 64) } { m with next := m.next + 1 }

/-- MIGRATION_END: A migration finishes or aborts and its record is posted. (R422); its lines from the next on are copied in turn,
the first of `lasting` failing both reads, with the LASTING and POISONED records of R417 -/
def execMigrationEnd (obj : Fin 8) (lasting : List (Fin 1024)) (s : State) : Host.Outcome State Fault Refusal :=
  .next ((List.range (1025 - (migOf s obj.val).next)).foldl (fun s _ =>
    migrateLine s obj (lasting.any (fun k => k.val == (migOf s obj.val).next))) s)

/-- FQUEUE: A control core takes the fault queue interrupt between instructions. (R392); held while the core is in M
mode -/
def execFqueue (cc : Fin 32) (s : State) : Host.Outcome State Fault Refusal :=
  let t := switchTo s (.cc cc)
  if t.me.cc.fqueue ∧ t.me.mode ≠ .m then
    .next (switchTo (takeTrap (setCc t { t.me.cc with fqueue := false })
      { cause := cFqueue, xval := 0#64, async := true, runrep := false, access := 0 }) s.me.id)
  else .next s


end Machine
end Sys2Proof
end

