-- ==== Sys2Proof/Machine/Chains.lean ====
section
/-! DEFINITION. Chains and runs (spec/13_chains.md R281-R310; spec/07_matrix.md R160-R168; spec/08_permute_sparse.md R185; spec/09_thresher.md R203;
spec/10_memory.md R229; spec/12_atomics_engines.md R279). A strip is evaluated by its node words in block order, which R307 makes the value of
every way a run may execute, and committed in one step. -/

namespace Sys2Proof
namespace Machine

/-! ### Nodes (R282) -/

/-- The stores and scatter-reduces, whose vd is a source. -/
def storeForm : VOp → Bool
  | .vst | .vstSt | .vstIx | .vcompressSt | .vsrdoAdd | .vsrduAdd | .vsrduMin | .vsrduMax | .vsrduAnd | .vsrduOr
  | .vsrduXor => true
  | _ => false
/-- The loads. -/
def loadForm : VOp → Bool
  | .vld | .vldSt | .vldIx | .vldff => true
  | _ => false
/-- The matrix forms, with log2 of G. -/
def mmaG : VOp → Option Nat
  | .vmmaX1 => some 0
  | .vmmaX2 => some 1
  | .vmmaX4 => some 2
  | .vmmaX8 => some 3
  | _ => none
/-- The Thresher forms. -/
def thForm : VOp → Bool
  | .thdec | .thand | .thor | .thwand | .thscore | .thfuse | .thtopk => true
  | _ => false
/-- The reductions. -/
def redForm : VOp → Bool
  | .vredosum | .vredtsum | .vredmin | .vredmax | .vredand | .vredor | .vredxor => true
  | _ => false
/-- The mask forms of major 0x04. -/
def mopForm : VOp → Bool
  | .mand | .mor | .mxor | .mandn | .mnot | .mmv | .mset | .mclr => true
  | _ => false
/-- The compares. -/
def cmpForm : VOp → Bool
  | .vceq | .vcne | .vclt | .vcle | .vcgt | .vcge | .vcun => true
  | _ => false

/-- The source fields of a node, each with the type it is read in (R282). -/
def nodeFields (op : VOp) (w : VWord) : List (Fin 512 × Nat) :=
  if (mmaG op).isSome then (w.f1, w.vt.val) :: (if w.f3.val = 0 then [] else [(w.f3, 9)])
  else if indexForm op then [(viFld w, idxTy w.vt.val)]
  else match op with
    | .vcvt | .vpack | .vunpack => [(w.f1, w.f2.val)]
    | .vsput => [(w.f1, 5)]
    | .thdec | .thwand | .thscore | .thtopk => [(w.f1, 7)]
    | .thand | .thor => [(w.f1, 7), (w.f2, 7)]
    | .thfuse => [(w.f1, 7), (w.f2, 9)]
    | _ => (vsrcFields w op).map (fun f => (f, w.vt.val))

/-- The queues a node reads, each with the type it reads it in. -/
def nodeReads (op : VOp) (w : VWord) : List (Nat × Nat) :=
  ((nodeFields op w).filter (fun f => srcQ f.1)).map (fun f => (srcN f.1, f.2)) ++
  (if storeForm op && 32 ≤ w.vd.val then [(w.vd.val - 32, w.vt.val)] else [])
/-- The distinct queues a node reads. -/
def nodeQueues (op : VOp) (w : VWord) : List Nat := ((nodeReads op w).map (fun p => p.1)).eraseDups

/-- The class of a node (R282). Three forms that R282 does not place read no queue (DEDUCED, log 23): `vpcnt`, which emits one unit
for each position (spec/08_permute_sparse.md R185), stands with the sources; the mask forms, which write their mask at each commit
(spec/06_vector_arith.md R152), and `vwload` stand with `vaccz`. -/
def nodeClass (op : VOp) (w : VWord) : NodeClass :=
  if storeForm op || cmpForm op then .exit
  else match op with
    | .lnkout | .ereq | .vaccwr => .exit
    | .vld | .vldSt | .vldff | .vaccrd | .lnkin | .eresp | .vpcnt | .vpcntInc => .source
    | .vldIx => if srcQ (viFld w) then .inner else .source
    | .vaccz | .vwload | .mand | .mor | .mxor | .mandn | .mnot | .mmv | .mset | .mclr => .clear
    | _ => .inner

/-- A node of the class has a destination. -/
def hasDest (op : VOp) (w : VWord) : Bool :=
  match nodeClass op w with
  | .source | .inner => true
  | _ => false
/-- The queue a node writes. -/
def nodeQueue (op : VOp) (w : VWord) : Option Nat :=
  if hasDest op w && 32 ≤ w.vd.val then some (w.vd.val - 32) else none
/-- The type a node writes its queue in. -/
def outTy (op : VOp) (w : VWord) : Nat :=
  if (mmaG op).isSome then 9 else if thForm op then 7 else if op = .vsget then 5 else w.vt.val
/-- The most units a queue of a type carries in one strip, C(q) (R291). -/
def queueCap (t : Nat) : Nat := 2 ^ 18 / unitW t
/-- The engine and stream of an `ereq` or `eresp` (R284). -/
def engineKey (w : VWord) : Nat := w.f2.val % 32
/-- The engine. -/
def nodeEngine (w : VWord) : Nat := w.f2.val % 4
/-- The stream of an engine node. -/
def nodeStream (w : VWord) : Nat := w.f2.val / 4 % 8
/-- The distance of a `delay` (spec/07_matrix.md R165). -/
def delayDist (w : VWord) : Nat := w.f2.val % 256 + 1

/-! ### Validation (R281, R283) -/

/-- Nodes with their index in the block, from 1. -/
def numbered {α : Type} (l : List α) : List (α × Nat) := l.zipIdx 1

/-- The indices of the nodes that write a queue. -/
def writersOf (nodes : List (VOp × VWord)) (q : Nat) : List Nat :=
  ((numbered nodes).filter (fun n => nodeQueue n.1.1 n.1.2 == some q)).map (fun n => n.2)
/-- The indices of the nodes that read a queue. -/
def readersOf (nodes : List (VOp × VWord)) (q : Nat) : List Nat :=
  ((numbered nodes).filter (fun n => (nodeQueues n.1.1 n.1.2).contains q)).map (fun n => n.2)
/-- Node i of a block. -/
def nodeAt (nodes : List (VOp × VWord)) (i : Nat) : Option (VOp × VWord) := if i = 0 then none else nodes[i - 1]?
/-- The queues that a block names. -/
def blockQueues (nodes : List (VOp × VWord)) : List Nat :=
  (List.range 16).filter (fun q => writersOf nodes q != [] || readersOf nodes q != [])
/-- The least of some numbers. -/
def least (l : List Nat) : Option Nat := l.foldl (fun m x => some (match m with
  | some y => min y x
  | none => x)) none

/-- Where QUEUE is broken at a queue: of its breaches, the lowest node. -/
def queueBreach (nodes : List (VOp × VWord)) (q : Nat) : Option Nat :=
  let ws := writersOf nodes q
  let rs := readersOf nodes q
  least ((if ws = [] then rs.take 1 else []) ++ (ws.drop 1).take 1 ++ (if rs = [] then ws.take 1 else []) ++ (rs.drop 8).take 1)

/-- The nodes at which WIDTH is broken. -/
def widthBreach (nodes : List (VOp × VWord)) : List Nat :=
  ((numbered nodes).filter (fun n => (nodeReads n.1.1 n.1.2).any (fun p =>
    match ((writersOf nodes p.1).head?).bind (nodeAt nodes) with
    | some x => unitW (outTy x.1 x.2) != unitW p.2
    | none => false))).map (fun n => n.2)

/-- The nodes at which ORDER is broken. -/
def orderBreach (nodes : List (VOp × VWord)) : List Nat :=
  ((numbered nodes).filter (fun n => (nodeQueues n.1.1 n.1.2).any (fun q =>
    match (writersOf nodes q).head? with
    | some j => ((nodeAt nodes j).map (fun x => x.1)) != some .delay && n.2 ≤ j
    | none => false))).map (fun n => n.2)

/-- The nodes past the first `lim` with a property. -/
def pastLimit (nodes : List (VOp × VWord)) (lim : Nat) (p : VOp × VWord → Bool) : List Nat :=
  (((numbered nodes).filter (fun n => p n.1)).map (fun n => n.2)).drop lim
/-- The nodes that share a key with an earlier node. -/
def repeats (nodes : List (VOp × VWord)) (key : VOp × VWord → Option Nat) : List Nat :=
  ((numbered nodes).filter (fun n => (key n.1).isSome &&
    (nodes.take (n.2 - 1)).any (fun m => key m == key n.1))).map (fun n => n.2)

/-- The nodes at which RESOURCE is broken. -/
def resourceBreach (nodes : List (VOp × VWord)) : List Nat :=
  pastLimit nodes 16 (fun n => loadForm n.1 || storeForm n.1) ++
  pastLimit nodes 8 (fun n => thForm n.1) ++
  ((numbered nodes).filter (fun n => (mmaG n.1.1).isSome &&
    4 < (nodes.take n.2).foldl (fun m x => m + (match mmaG x.1 with
      | some g => min (2 ^ g) 4
      | none => 0)) 0)).map (fun n => n.2) ++
  repeats nodes (fun n => if cmpForm n.1 || mopForm n.1 then some (n.2.vd.val % 8) else none) ++
  repeats nodes (fun n => if n.1 = .vaccwr then some (n.2.vd.val % 8) else none) ++
  repeats nodes (fun n => if n.1 = .ereq then some (engineKey n.2) else none) ++
  repeats nodes (fun n => if n.1 = .eresp then some (engineKey n.2) else none) ++
  ((numbered nodes).filter (fun n => n.1.1 = .eresp &&
    !nodes.any (fun m => m.1 = .ereq && engineKey m.2 == engineKey n.1.2))).map (fun n => n.2)

/-- The link port that a node names: its direction, twice, plus 1 for `lnkout`. -/
def linkPort (n : VOp × VWord) : Option Nat :=
  match n.1 with
  | .lnkin => some (2 * linkDir n.2)
  | .lnkout => some (2 * linkDir n.2 + 1)
  | _ => none
/-- The other harts with a chain installed on the acting hart's core. -/
def coreChains (s : State) (h : HartId) : List Chain :=
  (agents s).filterMap (fun a => match a.id with
    | .hart k => if k ≠ h ∧ hartCore k = hartCore h then a.vec.chain else none
    | .cc _ => none)

/-- The nodes at which LINK is broken. -/
def linkBreach (s : State) (h : HartId) (nodes : List (VOp × VWord)) : List Nat :=
  ((numbered nodes).filter (fun n => (linkPort n.1).isSome &&
    ((neighbour (hartCore h) (linkDir n.1.2)).isNone ||
     (coreChains s h).any (fun c => c.nodes.any (fun m => linkPort m == linkPort n.1))))).map (fun n => n.2) ++
  repeats nodes linkPort

/-- The rows of the reserve (R288). -/
def reserveRows (nodes : List (VOp × VWord)) : Nat :=
  let n (p : VOp → Bool) := (nodes.filter (fun x => p x.1)).length
  (32768 * (blockQueues nodes).length + 2048 * n (fun op => op == .delay) + 280576 * n (fun op => (mmaG op).isSome) +
    8192 * n thForm + 4096 + 8191) / 8192

/-- The lowest row of the reserve: the highest run of the grant in no other chain's reserve (R288). -/
def reserveAt (s : State) (h : HartId) (need : Nat) : Option Nat :=
  match hartGang s s.me.task h.core.val with
  | none => none
  | some g =>
    if g.rows < need then none
    else
      (((List.range (g.rows - need + 1)).map (fun j => g.row + j)).filter (fun lo =>
        (coreChains s h).all (fun c => decide (c.rowLo + c.rows ≤ lo) || decide (lo + need ≤ c.rowLo)))).getLast?

/-- The first condition of R283 that fails, 2 to 10, with its node; else the lowest row of the reserve. -/
def checkBlock (s : State) (h : HartId) (nodes : List (VOp × VWord)) (last : Word) : Except (Nat × Nat) Nat :=
  let stops := (((numbered nodes).filter (fun n => n.1.1 = .stop)).map (fun n => n.2)) ++
    (if last = 0xE1000000#64 then [] else [0])
  let dests := ((numbered nodes).filter (fun n => hasDest n.1.1 n.1.2 && n.1.2.vd.val < 32)).map (fun n => n.2)
  let sources := (if nodes.any (fun n => nodeClass n.1 n.2 = .source) then [] else [0]) ++
    ((numbered nodes).filter (fun n =>
      (nodeClass n.1.1 n.1.2 = .exit || nodeClass n.1.1 n.1.2 = .inner) && nodeQueues n.1.1 n.1.2 == [])).map (fun n => n.2)
  match least stops with
  | some i => .error (2, i)
  | none =>
  match least dests with
  | some i => .error (3, i)
  | none =>
  match least ((blockQueues nodes).filterMap (queueBreach nodes)) with
  | some i => .error (4, i)
  | none =>
  match least (widthBreach nodes) with
  | some i => .error (5, i)
  | none =>
  match least (orderBreach nodes) with
  | some i => .error (6, i)
  | none =>
  match least sources with
  | some i => .error (7, i)
  | none =>
  match least (resourceBreach nodes) with
  | some i => .error (8, i)
  | none =>
  match least (linkBreach s h nodes) with
  | some i => .error (9, i)
  | none =>
  match reserveAt s h (reserveRows nodes) with
  | none => .error (10, 0)
  | some lo => .ok lo

/-- The decode tests of R53 on node words, in block order: the trap of the first that fails. `ILLEGAL` shows the word, of an entry
that begins with a 32-bit word that word zero-extended (spec/02_encoding.md R31, R50). -/
def decodeNodes : List Word → Except Trap (List (VOp × VWord))
  | [] => .ok []
  | x :: l =>
    match decodeBlockWord x.toNat with
    | .error .illegal => .error (Trap.sync cIllegal (BitVec.ofNat 64 (x.toNat % 2 ^ (8 * wordLen x.toNat))))
    | .error (.feature n) => .error (Trap.sync cFeature (BitVec.ofNat 64 n))
    | .ok n =>
      match decodeNodes l with
      | .error t => .error t
      | .ok r => .ok (n :: r)

/-- The header keeps R281. -/
def blockHeaderOk (x : Word) : Bool :=
  x.toNat / 2 ^ 24 == 0 && !x.getLsbD 15 && !x.getLsbD 7 && 1 ≤ x.toNat % 128 && x.toNat % 128 ≤ 64

/-- The trap `CHFETCH` of a code at a node (R283). -/
def chfetch (code i : Nat) : Trap := Trap.sync cChfetch (BitVec.ofNat 64 (code + 256 * i))

/-- The block at an address: its header, its nodes, their words, and the lowest row of its reserve; or the trap (R286). -/
def readChain (s : State) (h : HartId) (ga : Nat) :
    Except Trap (Word × List Word × List (VOp × VWord) × Nat) :=
  match readIn s (vectorCtx s) ga 8 with
  | .error f => .error f.trap
  | .ok x =>
    let x := BitVec.ofNat 64 x
    if !blockHeaderOk x then .error (chfetch 1 0)
    else
      match readDwords s (vectorCtx s) (ga + 8) (x.toNat % 128 + 1) with
      | .error f => .error f.trap
      | .ok l =>
        match decodeNodes l.dropLast with
        | .error t => .error t
        | .ok nodes =>
          match checkBlock s h nodes (l.getLastD 0#64) with
          | .error (code, i) => .error (chfetch code i)
          | .ok lo => .ok (x, l.dropLast, nodes, lo)

/-- The single step of `chain` (R286, R288): the old chain goes, and the rows of the new reserve lose their contents. -/
def install (s : State) (h : HartId) (ga : Word) (x : Word) (words : List Word) (nodes : List (VOp × VWord)) (lo : Nat) :
    State :=
  let s := quitChain s
  let s := releaseRows s (hartCore h) (List.range' lo (reserveRows nodes))
  setVec s { s.me.vec.noChain with
    chbase := some (ga.extractLsb' 3 52)
    chain := some { cid := x.toNat / 2 ^ 16 % 256, infl := x.toNat / 2 ^ 12 % 8, sgran := x.toNat / 2 ^ 8 % 16,
                    words := words, nodes := nodes, rowLo := lo, rows := reserveRows nodes, damaged := false } }

/-- `chain` (R285-R287). -/
def chainInline (w : VWord) (s : State) : Host.Outcome State Fault Refusal :=
  node .chain w s (fun s =>
    let ga := rd s (regOf w.ga)
    withUnits s [RegUnit.g w.ga]
      (match s.me.id with
       | .cc _ => .done s
       | .hart h =>
         if ga.toNat % 8 ≠ 0 then .trap s (Trap.sync cAlign ga)
         else match readChain s h ga.toNat with
           | .error t => .trap s t
           | .ok (x, words, nodes, lo) =>
             let s := install s h ga x words nodes lo
             .done (vfinish s s.me.vec 0#5)))

/-! ### Starting a run (R291, R292) -/

/-- The length that a run's strips have (R291). -/
def stripLen (v : VecState) (sgran : Nat) : Nat := v.vlLen.toNat - v.vlLen.toNat % 2 ^ sgran
/-- A node names a block type, in vt or in a conversion's source field (R291). -/
def namesBlock (n : VOp × VWord) : Bool :=
  blkTy n.2.vt.val || (match n.1 with
    | .vcvt | .vpack | .vunpack => blkTy n.2.f2.val
    | _ => false)
/-- The first node with a property. -/
def firstNode (nodes : List (VOp × VWord)) (p : VOp × VWord → Bool) : Option Nat :=
  ((numbered nodes).find? (fun n => p n.1)).map (fun n => n.2)

/-- The first start check of R291 that fails: its code and node. Where several fail, the first row of its table is reported, and within
STRIP a strip that a queue cannot carry before one that is not whole blocks: the spec gives no order (DESIGN CHOICE, log 50). -/
def startCheck (v : VecState) (lanes : Nat) (ch : Chain) (n : Nat) : Option (Nat × Nat) :=
  let size := stripLen v ch.sgran
  let tooBig (x : VOp × VWord) : Bool := (nodeQueue x.1 x.2).isSome && queueCap (outTy x.1 x.2) < size
  if 2 ^ 41 ≤ n then some (5, 0)
  else if 0 < n ∧ size = 0 then some (6, 0)
  else match firstNode ch.nodes tooBig with
    | some i => some (6, i)
    | none =>
    match (if size % 32 = 0 then none else firstNode ch.nodes namesBlock) with
    | some i => some (6, i)
    | none =>
    match firstNode ch.nodes (fun x => (mmaG x.1).isSome && size % mmaK x.2.vt.val != 0) with
    | some i => some (4, i)
    | none =>
    match firstNode ch.nodes (fun x => (mmaG x.1).isSome &&
        queueCap 9 < size / mmaK x.2.vt.val * (8 * mmaC x.2.vt.val v.vlLen.toNat lanes)) with
    | some i => some (7, i)
    | none =>
    match firstNode ch.nodes (fun x => (x.1 = .ereq || x.1 = .eresp) && nodeEngine x.2 == 1 &&
        (match v.descs[nodeStream x.2 % 16]'(Nat.mod_lt _ (by decide)) with
         | none => true
         | some d => x.1 = .eresp && 8 * d.esz != unitW x.2.vt.val)) with
    | some i => some (8, i)
    | none => none

/-- Every poisoned unit of an agent's registers. -/
def badUnits (a : Agent) : List RegUnit :=
  if cleanAgent a then []
  else
    ((List.range 32).flatMap (fun r => (List.range 1024).map (RegUnit.v r)) ++ (List.range 8).map RegUnit.m ++
      (List.range 64).flatMap (fun r => (List.range 128).map (RegUnit.acc r)) ++ (List.range 32).map RegUnit.g).filter (unitBad a)

/-- The engines and link ports that a block uses (R282, R306; spec/09_thresher.md R203). -/
def supplies (h : HartId) (nodes : List (VOp × VWord)) : List Supply :=
  nodes.filterMap (fun n => match n.1 with
    | .ereq | .eresp => some (.engine h.die (nodeEngine n.2))
    | .lnkin | .lnkout => some (.link (hartCore h) (linkDir n.2))
    | op => if thForm op then some (.engine h.die 2) else none)

/-- Lanes enough to run spatially: those captured, and whole sheaves for every matrix node (R306; spec/07_matrix.md
R164). -/
def lanesOk (a : Agent) (lanes : Nat) (nodes : List (VOp × VWord)) : Bool :=
  let have_ := if a.reclaimed then a.nlanes.toNat else a.lanes.toNat
  let sheaves := nodes.foldl (fun m x => m + (match mmaG x.1 with
    | some g => min (2 ^ g) 4
    | none => 0)) 0
  decide (lanes ≤ have_) && decide (32 * sheaves ≤ have_)

/-- A hart's chain can run spatially (R306): it has the lanes, and none of its engines and link ports is withheld. -/
def spatialOk (s : State) (h : HartId) (lanes : Nat) (nodes : List (VOp × VWord)) : Bool :=
  lanesOk (hartOf s h) lanes nodes && (supplies h nodes).all (fun x => !s.withheld.contains x)

/-- The state a node starts a run with. -/
def NodeState.start : NodeState := { used := 0, carry := [], count := 0, ended := false, nums := [] }

/-- The values captured at `run` (R292). -/
def newRun (s : State) (h : HartId) (ch : Chain) (n : Nat) : Run :=
  let a := hartOf s h
  {
  n := n
  size := stripLen a.vec ch.sgran
  vlLen := a.vec.vlLen.toNat
  lanes := a.lanes.toNat
  dir := a.vec.mtDir.toNat
  space := a.vec.mtSpace.toNat
  rmode := a.rmode.toNat
  srseed := a.vec.srseed
  mode := a.mode
  masks := a.vec.masks
  g := a.g
  v := a.vec.regs
  acc := a.vec.acc
  descs := a.vec.descs
  strip := 0
  streams := []
  nodes := ch.nodes.map (fun _ => NodeState.start)
  exit := 0
  stall := none
  broken := !spatialOk s h a.lanes.toNat ch.nodes
  bad := badUnits a }

/-- `run` (R291): NOCHAIN, then a failed run goes on, ga ignored, else the start checks and a new run. -/
def runInline (w : VWord) (s : State) : Host.Outcome State Fault Refusal :=
  node .run w s (fun s =>
    let v := s.me.vec
    match v.chain, s.me.id with
    | some ch, .hart h =>
      if v.rFail then .done (vfinish s { v with rFail := false, rRun := true, runFault := none } 0#5)
      else withUnits s [RegUnit.g w.ga]
        (let n := (rd s (regOf w.ga)).toNat
         match startCheck v (lanesIn s) ch n with
         | some (code, i) => .trap s (Trap.sync cChlen (BitVec.ofNat 64 (code + 256 * i)))
         | none =>
           .done (vfinish s { v with
             rRun := decide (n ≠ 0), rTemp := false, rElem := 0#41, exits := 0,
             run := if n = 0 then none else some (newRun s h ch n) } 0#5))
    | _, _ => .trap s (chfetch 11 0))

/-! ### The operands of a node at a strip -/

/-- The strip. -/
def StripEnv.t (e : StripEnv) : Nat := e.r.strip
/-- Source strips, T (R293). -/
def StripEnv.total (e : StripEnv) : Nat := (e.r.n + e.r.size - 1) / e.r.size
/-- The first source element of the strip. -/
def StripEnv.n0 (e : StripEnv) : Nat := min (e.t * e.r.size) e.r.n
/-- Source elements of the strip. -/
def StripEnv.len (e : StripEnv) : Nat := min ((e.t + 1) * e.r.size) e.r.n - e.n0
/-- The strip is the last source strip, or a drain strip. -/
def StripEnv.last (e : StripEnv) : Bool := decide (e.total ≤ e.t + 1)
/-- The context of the run's memory accesses (R229, R247; spec/16_isolation.md R365). -/
def StripEnv.ctx (e : StripEnv) : XCtx := hartCtx e.s e.s.me e.h (.ports e.h) e.r.mode (some e.ch.cid)
/-- Where the run's Thresher reads resolve: through the `MTYPE` it captured (R292; spec/10_memory.md R208, R215). -/
def StripEnv.thAt (e : StripEnv) : MemAt where
  base := 0
  off := 0
  stride := 1
  space := e.r.space
  dir := e.r.dir
  ctx := e.ctx

/-- `CHLEN` at a node of the strip (R297). -/
def StripEnv.chlen (e : StripEnv) (code i : Nat) : RFault :=
  { cause := cChlen, xval := BitVec.ofNat 64 (code + 256 * i + 65536 * e.t), stall := false, acc := 0 }
/-- The fault of an access at the strip (R301). -/
def fltFault (f : Flt) : RFault :=
  { cause := f.cause, xval := BitVec.ofNat 64 f.va, stall := stalls f, acc := f.acc.code, offset := f.offset }
/-- A failure of the strip with a cause and `XVAL`. -/
def failAt (cause : Nat) (xval : Word) : RFault := { cause := cause, xval := xval, stall := false, acc := 0 }
/-- The fault of what stops a Thresher form. -/
def thFault : ThErr → RFault
  | .flt f => fltFault f
  | .data x => failAt cThdata (BitVec.ofNat 64 x)

/-- The stream of a queue in a table of streams. -/
def streamOf (tab : List (Nat × Stream)) (q : Nat) : Stream := tget { units := [], ended := false } q tab
/-- Unit n of a queue. -/
def unitAt (tab : List (Nat × Stream)) (q n : Nat) : Nat := (streamOf tab q).units.getD n 0
/-- A unit read in a type: its code, so bits [7:6] of e3m2 and e2m3 are ignored (spec/04_formats.md R83). A block's unit is whole. -/
def unitIn (t u : Nat) : Nat := if blkTy t then u else u % 2 ^ codeW t

/-- Element i of a captured register; a place beyond the hart's capacity holds no stated value (log 5). -/
def regElem (r : Run) (t reg i : Nat) : Nat :=
  if i < cap t r.lanes then elemAt r.v t r.lanes reg i else Config.beyondCapacity i % 2 ^ elemW t
/-- A captured g register. -/
def runG (r : Run) (k : Nat) : Word := if k % 32 = 0 then 0#64 else r.g[regOf k]
/-- The operand of a source field for unit i of the strip, the node's unit n: a queue's unit, or a register's element
(spec/06_vector_arith.md R152). -/
def fieldAt (e : StripEnv) (tab : List (Nat × Stream)) (t : Nat) (f : Fin 512) (i n : Nat) : Nat :=
  if srcQ f then unitIn t (unitAt tab (srcN f) n) else regElem e.r t (srcN f) (srcIndex f i)
/-- The mask bit of position i of the strip. -/
def runMask (e : StripEnv) (w : VWord) (i : Nat) : Bool := maskBitOf e.r.masks (maskReg w) i
/-- The rounding mode for stream index n (R91, R93). -/
def runMode (e : StripEnv) (w : VWord) (n : Nat) : RMode := vmode w.rm e.r.rmode e.r.srseed n

/-- `POISON` for a captured unit that was poisoned, among some that a node reads (spec/18_ras.md R419). -/
def unitFault (e : StripEnv) (us : List RegUnit) : Option RFault :=
  (us.find? (fun u => e.r.bad.contains u)).map (fun u => failAt cPoison (unitTrap u).xval)

/-- Registers of a gather table. -/
def gatherG : VOp → Nat
  | .vrgatherX2 => 2
  | .vrgatherX4 => 4
  | .vrgatherX8 => 8
  | _ => 1
/-- The gathers. -/
def gatherForm : VOp → Bool
  | .vrgatherX1 | .vrgatherX2 | .vrgatherX4 | .vrgatherX8 => true
  | _ => false

/-- The units of the register fields of a node at some of their positions. -/
def fieldUnits (L : Nat) (f : Fin 512 × Nat) (is : List Nat) : List RegUnit := if srcQ f.1 then [] else srcUnits f.2 L f.1 is

/-- The registers that a node reads for an active position i of a strip of k; `idx` is its index into a gather's table. -/
def nodeRegs (e : StripEnv) (op : VOp) (w : VWord) (i k idx : Nat) : List RegUnit :=
  let L := e.r.lanes
  let t := w.vt.val
  (match op with
   | .vshup | .vshdn | .vjoinup | .vjoindn =>
     (match slideIndex op (runG e.r (srcN w.f2)).toNat k i with
      | some (false, j) => fieldUnits L (w.f1, t) [j]
      | some (true, j) => fieldUnits L (w.f3, t) [j]
      | none => []) ++ [RegUnit.g (srcN w.f2)]
   | .vconflict => fieldUnits L (w.f1, t) ((List.range (i + 1)).filter (runMask e w))
   | .vrgatherX1 | .vrgatherX2 | .vrgatherX4 | .vrgatherX8 =>
     (nodeFields op w).flatMap (fun f => fieldUnits L f [i]) ++
     (if idx < e.r.vlLen * gatherG op then granules t L (srcN w.f1 + idx / e.r.vlLen) [idx % e.r.vlLen] else [])
   | .vredosum | .vredtsum | .vredmin | .vredmax | .vredand | .vredor | .vredxor => fieldUnits L (w.f1, t) [i]
   | .vpcnt | .vpcntInc => [RegUnit.m (srcN w.f1)]
   | .vsscanAdd | .vsscanMin | .vsscanMax | .vsscanAnd | .vsscanOr | .vsscanXor =>
     RegUnit.m (srcN w.f2) :: fieldUnits L (w.f1, t) [i]
   | _ => (nodeFields op w).flatMap (fun f => fieldUnits L f [i])) ++
  (if w.x.val = 1 then [RegUnit.g (srcN w.f2)] else []) ++
  (if loadForm op || storeForm op then
    RegUnit.g w.gb :: (if strideForm op then [RegUnit.g (srcN (viFld w))] else []) else []) ++
  (if storeForm op && w.vd.val < 32 then granules t L w.vd.val [i] else [])

/-- The `POISON` of position i: its mask's, whatever its bit, and, where it is active, that of the registers it reads. -/
def regFault (e : StripEnv) (op : VOp) (w : VWord) (active : Bool) (i k idx : Nat) : Option RFault :=
  if e.r.bad = [] then none
  else unitFault e (maskUnits w ++ (if active then nodeRegs e op w i k idx else []))

/-- Go through units in order until one faults. -/
def unitLoop (f : Nat → List Nat → Except RFault UnitOut) : List Nat → UnitOut → UnitOut × Option RFault
  | [], a => (a, none)
  | i :: l, a =>
    match f i a.st with
    | .error x => (a, some x)
    | .ok u => unitLoop f l { st := u.st, outs := a.outs ++ u.outs, flags := a.flags ||| u.flags, effs := a.effs ++ u.effs }

/-- A unit that emits units. -/
def emits (st outs : List Nat) (fl : BitVec 5) : Except RFault UnitOut :=
  .ok { st := st, outs := outs, flags := fl, effs := [] }
/-- A unit that has effects at the commit. -/
def causes (st : List Nat) (fl : BitVec 5) (effs : List Effect) : Except RFault UnitOut :=
  .ok { st := st, outs := [], flags := fl, effs := effs }

/-- The code of element q of a block unit. -/
def blockCodeAt (t u q : Nat) : Nat := u / 2 ^ (elemW t * q) % 2 ^ elemW t
/-- The scale of a block unit. -/
def blockScale (t u : Nat) : Nat := u / 2 ^ (32 * elemW t) % 512
/-- A block unit of codes and a scale. -/
def blockUnit (t : Nat) (codes : List (Nat × Nat)) (scale : Nat) : Nat :=
  codes.foldl (fun u p => u + p.2 % 2 ^ elemW t * 2 ^ (elemW t * p.1)) (scale % 512 * 2 ^ (32 * elemW t))

/-! ### Memory ports (spec/10_memory.md R229) -/

/-- Where a port takes its addresses. -/
def portAt (e : StripEnv) (op : VOp) (w : VWord) : MemAt where
  base := sx 64 (runG e.r w.gb).toNat
  off := off9 w
  stride := if strideForm op then sx 64 (runG e.r (srcN (viFld w))).toNat else 1
  space := e.r.space
  dir := e.r.dir
  ctx := e.ctx

/-- The position of unit n of a port, with its index. -/
def portPos (op : VOp) (w : VWord) (m : MemAt) (idx below n : Nat) : Int :=
  position op m.stride (fun _ => idx) (idxTy w.vt.val) (fun _ => below) n

/-- The positions of a block that the mask admits, for the block at position i of the strip. -/
def portActive (e : StripEnv) (w : VWord) (i : Nat) : List Nat := (List.range 32).filter (fun q => runMask e w (32 * i + q))

/-- A unit that a load port reads: zero where the mask is 0. -/
def loadUnit (e : StripEnv) (op : VOp) (w : VWord) (m : MemAt) (idx i n : Nat) : Except RFault UnitOut :=
  let t := w.vt.val
  if blkTy t then
    let qs := portActive e w i
    if qs = [] then emits [] [0] 0#5
    else match blockLoad e.s m t n qs with
      | .error f => .error (fltFault f)
      | .ok (cs, sc) => emits [] [blockUnit t (qs.zip cs) sc] 0#5
  else if runMask e w i then
    match elemLoad e.s m t (portPos op w m idx 0 n) with
    | .error f => .error (fltFault f)
    | .ok x => emits [] [x] 0#5
  else emits [] [0] 0#5

/-- A unit that a store port writes at the commit; `below` active elements come before it. -/
def storeUnit (e : StripEnv) (op : VOp) (w : VWord) (m : MemAt) (idx x below i n : Nat) : Except RFault UnitOut :=
  let t := w.vt.val
  if blkTy t then
    let qs := portActive e w i
    if qs = [] then causes [] 0#5 []
    else match blockAccess e.s m t .write n (qs.map (fun q => (q, blockCodeAt t x q))) (blockScale t x) with
      | .error f => .error (fltFault f)
      | .ok ws => causes [] 0#5 (ws.map Effect.mem)
  else if runMask e w i then
    match storeElem e.s m t (portPos op w m idx below n) x with
    | .error f => .error (fltFault f)
    | .ok ws => causes [below + 1] 0#5 (ws.map Effect.mem)
  else causes [below] 0#5 []

/-- The forms of scatter-reduce. -/
def srdForm : VOp → Bool
  | .vsrdoAdd | .vsrduAdd | .vsrduMin | .vsrduMax | .vsrduAnd | .vsrduOr | .vsrduXor => true
  | _ => false

/-- A scatter-reduce element (spec/12_atomics_engines.md R258): its place is resolved at the strip, its update made at the commit. -/
def srdUnit (e : StripEnv) (op : VOp) (w : VWord) (m : MemAt) (idx x i n : Nat) : Except RFault UnitOut :=
  let t := w.vt.val
  if runMask e w i then
    match elemPlace e.s m t .both (portPos op w m idx 0 n) with
    | .error f => .error (fltFault f)
    | .ok l => causes [] 0#5 [.srd op t l (runMode e w n).mode (runMode e w n).bits x]
  else causes [] 0#5 []

/-! ### Engine nodes (spec/12_atomics_engines.md R279) -/

/-- An engine's access for a chain (spec/16_isolation.md R365). -/
def engineCtx (e : StripEnv) (n : Nat) : XCtx := { e.ctx with unit := .engine e.h.die n }

/-- The table element of engine 1, or zero out of range. -/
def tableRead (e : StripEnv) (w : VWord) (idx : Nat) : Except RFault Nat :=
  match e.r.descs[nodeStream w % 16]'(Nat.mod_lt _ (by decide)) with
  | none => .ok 0
  | some d =>
    if d.count ≤ idx then .ok 0
    else match resolveAt e.s (engineCtx e 1) d.space d.dir .read (d.offset idx) with
      | .error f => .error (fltFault f)
      | .ok l => .ok (readLoc e.s l d.esz)

/-- The responses of engine 1 to some requests, as far as none faults. -/
def tableReads (e : StripEnv) (w : VWord) : List Nat → List Nat
  | [] => []
  | x :: l =>
    match tableRead e w x with
    | .error _ => []
    | .ok v => unitIn w.vt.val v :: tableReads e w l

/-- The writes of elements m, m + 1, … of a copy, until one faults. -/
def copyPlan (e : StripEnv) (d sr : Desc) : Nat → Nat → List MemWr × Option Flt
  | 0, _ => ([], none)
  | n + 1, m =>
    match resolveAt e.s (engineCtx e 0) sr.space sr.dir .read (sr.offset m) with
    | .error f => ([], some f)
    | .ok a =>
      match resolveAt e.s (engineCtx e 0) d.space d.dir .write (d.offset m) with
      | .error f => ([], some f)
      | .ok b =>
        let r := copyPlan e d sr n (m + 1)
        ({ loc := b, n := d.esz, mask := 2 ^ (8 * d.esz) - 1, val := readLoc e.s a sr.esz } :: r.1, r.2)

/-- A copy that a request asks of engine 0: its status word and its writes. A fault of it is one of the strip (R301;
spec/16_isolation.md R365). Bits above [7:0] of the request are not read (DESIGN CHOICE, log 28). -/
def copyUnit (e : StripEnv) (st : List Nat) (x : Nat) : Except RFault UnitOut :=
  let d (n : Nat) := e.r.descs[n % 16]'(Nat.mod_lt _ (by decide))
  let c : Command := { newCommand e.s e.h .cpy (d x) (d (x / 16)) 0#64 0#64 (some e.ch.cid) 0 with
    mode := e.r.mode, phase := .final }
  let status (code n : Nat) : Nat := (cmdStatus { c with code := code, written := n }).toNat
  match refuseCode c, c.dst, c.src with
  | none, some a, some b =>
    match copyPlan e a b a.count 0 with
    | (ws, none) => causes (st ++ [status 0 ws.length]) 0#5 (ws.map Effect.mem)
    | (_, some f) => .error (fltFault f)
  | some code, _, _ => causes (st ++ [status code 0]) 0#5 []
  | none, _, _ => causes (st ++ [status 5 0]) 0#5 []

/-- The work units of a copy that a request has asked for, by its status word (spec/12_atomics_engines.md R278, R279). -/
def copyCharge (e : StripEnv) (x status : Nat) : Nat :=
  match e.r.descs[x % 16]'(Nat.mod_lt _ (by decide)) with
  | some d => if status % 256 = 0 then (d.count * d.esz + 255) / 256 else 0
  | none => 0

/-! ### One unit of a node -/

/-- An accumulator place of stream element n (spec/07_matrix.md R162): its row and column. -/
def accPlace (e : StripEnv) (w : VWord) (n : Nat) : Nat × Nat :=
  let width := min e.r.vlLen (32 * e.r.lanes)
  (srcN w.f3 + n / width, n % width)
/-- The mask position of an accumulator element. -/
def accMask (e : StripEnv) (w : VWord) (n : Nat) : Bool := runMask e w (accPlace e w n).2

/-- The element that a form gives for position i of a strip of k, stream index n: `val t f j` is the operand of a field at
position j (spec/06_vector_arith.md R152; spec/08_permute_sparse.md R185). -/
def mapUnit (e : StripEnv) (op : VOp) (w : VWord) (val : Nat → Fin 512 → Nat → Nat) (i n k : Nat) : FRes :=
  let t := w.vt.val
  let b := if w.x.val = 1 then (runG e.r (srcN w.f2)).toNat % 2 ^ codeW t else val t w.f2 i
  match op with
  | .vcvt => cvtElem t w.f2.val (runMode e w n) (val w.f2.val w.f1 i)
  | .vsget => (blockScale t (val t w.f1 i), 0#5)
  | .vsput => (val 5 w.f1 i % 512 * 2 ^ (32 * elemW t), 0#5)
  | .vrgatherX1 | .vrgatherX2 | .vrgatherX4 | .vrgatherX8 =>
    (if b < e.r.vlLen * gatherG op then regElem e.r t (srcN w.f1 + b / e.r.vlLen) (b % e.r.vlLen) else 0, 0#5)
  | .vshup | .vshdn | .vjoinup | .vjoindn =>
    (slideElem op (runG e.r (srcN w.f2)).toNat k (val t w.f1) (val t w.f3) i, 0#5)
  | .vconflict => (conflictElem (elemW t) (runMask e w) (val t w.f1) i, 0#5)
  | _ => elemOf op t (runMode e w n) (runMask e w i) (val t w.f1 i) b (val t w.f3 i)

/-- The columns that a matrix node emits for a row (spec/07_matrix.md R153). -/
def nodeCols (e : StripEnv) (w : VWord) : Nat := 8 * mmaC w.vt.val e.r.vlLen e.r.lanes
/-- Units of a matrix node's row. -/
def rowUnits (t : Nat) : Nat := if blkTy t then mmaK t / 32 else mmaK t

/-- Row n of a matrix node (spec/07_matrix.md R164): the value R156 leaves, from the row's partial sums or +0. -/
def matrixUnit (e : StripEnv) (tab : List (Nat × Stream)) (w : VWord) (n : Nat) : Except RFault UnitOut :=
  let t := w.vt.val
  let c := mmaC t e.r.vlLen e.r.lanes
  let a (k : Nat) : Nat :=
    if blkTy t then blockCodeAt t (unitAt tab (srcN w.f1) (n * rowUnits t + k / 32)) (k % 32)
    else unitIn t (unitAt tab (srcN w.f1) (n * rowUnits t + k))
  let sa (b : Nat) : Nat := blockScale t (unitAt tab (srcN w.f1) (n * rowUnits t + b))
  let start (j : Nat) : Nat := if w.f3.val = 0 then 0 else unitAt tab (srcN w.f3) (n * (8 * c) + j)
  let us := maskUnits w ++ ((List.range (8 * c)).filter (runMask e w)).flatMap (fun j =>
    let lo := (j - j / c * c) * mmaK t
    granules t e.r.lanes (srcN w.f2 + j / c) (List.range' lo (mmaK t)) ++
    (if blkTy t then scaleUnits e.r.lanes (srcN w.f2 + j / c) (List.range' (lo / 32) (mmaK t / 32)) else []))
  match (if e.r.bad = [] then none else unitFault e us) with
  | some f => .error f
  | none =>
    let ys := (List.range (8 * c)).map (fun j =>
      if runMask e w j then
        mmaCol t a (fun k => weight e.r.v t e.r.lanes (srcN w.f2) c k j) sa
          (fun b => weightScale e.r.v t (srcN w.f2) c b j) (start j)
      else (if maskZ w then 0 else start j, 0#5))
    emits [] (ys.map (fun y => y.1)) (ys.foldl (fun f y => f ||| y.2) 0#5)

/-- A block that `vpack` emits, from 32 elements (spec/06_vector_arith.md R138). -/
def packUnit (e : StripEnv) (w : VWord) (xs : List FVal) (i n : Nat) : Except RFault UnitOut :=
  let bt := w.vt.val
  let (code, fl) := packScale bt xs
  let ys := xs.zipIdx.map (fun p =>
    (p.2, if runMask e w (32 * i + p.2) && code != 0x1FF then packElem bt code (runMode e w (32 * n + p.2)) p.1 else (0, 0#5)))
  emits [] [blockUnit bt (ys.map (fun y => (y.1, y.2.1))) code] (ys.foldl (fun f y => f ||| y.2.2) fl)

/-- The elements that `vunpack` emits for a block (R139). -/
def unpackUnit (e : StripEnv) (w : VWord) (u i n : Nat) : Except RFault UnitOut :=
  let bt := w.f2.val
  let ys := (List.range 32).map (fun q =>
    if runMask e w (32 * i + q) then
      unpackElem w.vt.val bt (runMode e w (32 * n + q)) (blockCodeAt bt u q) (blockScale bt u)
    else (0, 0#5))
  emits [] (ys.map (fun y => y.1)) (ys.foldl (fun f y => f ||| y.2) 0#5)

/-- Position i of a node's strip is active. -/
def unitActive (e : StripEnv) (op : VOp) (w : VWord) (i n : Nat) : Bool :=
  match op with
  | .vaccrd | .vaccwr => accMask e w n
  | .vsel => true
  | _ => if blkTy w.vt.val || op = .vunpack then portActive e w i != [] else runMask e w i

/-- The data of a store: a queue's unit, or a captured register's element or block. -/
def storeData (e : StripEnv) (tab : List (Nat × Stream)) (w : VWord) (i n : Nat) : Nat :=
  let t := w.vt.val
  if 32 ≤ w.vd.val then unitIn t (unitAt tab (w.vd.val - 32) n)
  else if blkTy t then
    blockUnit t ((List.range 32).map (fun q => (q, regElem e.r t w.vd.val (32 * i + q)))) (scaleAt e.r.v w.vd.val i)
  else regElem e.r t w.vd.val i

/-- The parameters of a Thresher node (spec/09_thresher.md R193). -/
def nodeParam (e : StripEnv) (op : VOp) (w : VWord) (j : Nat) : Nat := regElem e.r 6 (thParamReg op w) j

/-- The fault of a Thresher node's parameter register, read at `run`: its poison, or its first parameter out of range. -/
def paramFault (e : StripEnv) (op : VOp) (w : VWord) : Option RFault :=
  (unitFault e (granules 6 e.r.lanes (thParamReg op w) (List.range (paramUsed op)))).or ((badParam op (nodeParam e op w)).map thFault)

/-- Unit i of a node's strip of k units, the node's unit n = used + i. -/
def nodeUnit (e : StripEnv) (tab : List (Nat × Stream)) (ix : Nat) (op : VOp) (w : VWord) (used k i : Nat) (st : List Nat) :
    Except RFault UnitOut :=
  let t := w.vt.val
  let n := used + i
  let val (t : Nat) (f : Fin 512) (j : Nat) : Nat := fieldAt e tab t f j (used + j)
  let act := runMask e w i
  let idx := if gatherForm op then (if w.x.val = 1 then (runG e.r (srcN w.f2)).toNat % 2 ^ codeW t else val t w.f2 i) else 0
  match (if (mmaG op).isSome then none else regFault e op w (unitActive e op w i n) i k idx) with
  | some f => .error f
  | none =>
    if loadForm op then loadUnit e op w (portAt e op w) (if indexForm op then val (idxTy t) (viFld w) i else 0) i n
    else if srdForm op then srdUnit e op w (portAt e op w) (val (idxTy t) (viFld w) i) (storeData e tab w i n) i n
    else if storeForm op then
      storeUnit e op w (portAt e op w) (if indexForm op then val (idxTy t) (viFld w) i else 0) (storeData e tab w i n)
        (st.headD 0) i n
    else if cmpForm op then
      if act then
        let r := cmpElem op t (val t w.f1 i)
          (if w.x.val = 1 then (runG e.r (srcN w.f2)).toNat % 2 ^ codeW t else val t w.f2 i)
        causes [] r.2 [.mask w.vd.val i r.1]
      else causes [] 0#5 (if maskZ w then [.mask w.vd.val i false] else [])
    else if (mmaG op).isSome then matrixUnit e tab w n
    else match op with
      | .vaccrd =>
        let p := accPlace e w n
        if 7 < p.1 then .error (e.chlen 4 ix)
        else if e.r.bad.contains (.acc (8 * (w.f1.val % 8) + p.1) (colLane e.r.lanes p.2)) && accMask e w n then
          .error (failAt cPoison (unitTrap (.acc (8 * (w.f1.val % 8) + p.1) 0)).xval)
        else emits [] [if accMask e w n then accCol (accRow e.r.acc (w.f1.val % 8) p.1) p.2 else 0] 0#5
      | .vaccwr =>
        let p := accPlace e w n
        if 7 < p.1 then .error (e.chlen 4 ix)
        else causes [] 0#5
          (if accMask e w n then [.acc w.vd.val p.1 p.2 (val t w.f1 i)]
           else if maskZ w then [.acc w.vd.val p.1 p.2 0] else [])
      | .lnkout => emits [] [val t w.f1 i] 0#5
      | .ereq =>
        if nodeEngine w = 0 then copyUnit e st (val t w.f1 i)
        else match tableRead e w (val t w.f1 i) with
          | .error f => .error f
          | .ok _ => causes [] 0#5 []
      | .vpack =>
        packUnit e w ((List.range 32).map (fun q =>
          unpack (fmtOf w.f2.val) (fieldAt e tab w.f2.val w.f1 (32 * i + q) (32 * n + q)))) i n
      | .vunpack => unpackUnit e w (val w.f2.val w.f1 i) i n
      | .vpcnt | .vpcntInc =>
        let hit (j : Nat) := runMask e w j && maskBitOf e.r.masks (srcN w.f1) j
        let below := st.headD 0
        let upTo := below + (if hit i then 1 else 0)
        let base := if w.x.val = 1 then (runG e.r (srcN w.f2)).toNat else 0
        emits [upTo] [if act then (base + if op = .vpcnt then below else upTo) % 2 ^ elemW t else 0] 0#5
      | .vcompress => emits [] (if act then [val t w.f1 i] else []) 0#5
      | .vsscanAdd | .vsscanMin | .vsscanMax | .vsscanAnd | .vsscanOr | .vsscanXor =>
        let st := if n = 0 || maskBitOf e.r.masks (srcN w.f2) i then [] else st
        if act then
          let y := match st.head? with
            | none => (val t w.f1 i, 0#5)
            | some v => scanElem op t (runMode e w n) v (val t w.f1 i)
          emits [y.1] [y.1] y.2
        else emits st [0] 0#5
      | .vredosum | .vredmin | .vredmax | .vredand | .vredor | .vredxor =>
        if act then
          let y := redElem op t (runMode e w n) (st.headD 0) (val t w.f1 i)
          emits [y.1] [] y.2
        else emits st [] 0#5
      | .thfuse =>
        match fusePair (nodeParam e op w) n (val 7 w.f1 i) (val 9 w.f2 i) with
        | .error x => .error (thFault x)
        | .ok y => emits [] [y.1] y.2
      | _ =>
        if act || op = .vsel then
          let y := mapUnit e op w val i n k
          emits [] [y.1] y.2
        else emits [] [0] 0#5

/-! ### A node at a strip (R293-R296) -/

/-- Units of a queue that a node takes at a time. -/
def unitGroup (e : StripEnv) (op : VOp) (w : VWord) (q : Nat) : Nat :=
  if op = .vpack then 32
  else if (mmaG op).isSome then (if q = srcN w.f1 then rowUnits w.vt.val else nodeCols e w)
  else 1

/-- Units that a node has not consumed on a queue, in groups. -/
def availOf (e : StripEnv) (tab : List (Nat × Stream)) (op : VOp) (w : VWord) (used q : Nat) : Nat :=
  let g := unitGroup e op w q
  ((streamOf tab q).units.length - used * g) / g

/-- Units of a type among the source elements lo to hi - 1 (R293, R450). -/
def unitsIn (t lo hi : Nat) : Nat := if blkTy t then hi / 32 - lo / 32 else hi - lo

/-- Units of the source elements of a strip (R293, R450). -/
def sourceCount (e : StripEnv) (w : VWord) : Nat :=
  unitsIn w.vt.val e.n0 (e.n0 + e.len)

/-- The type in which a node reads a queue. -/
def readTy (op : VOp) (w : VWord) (q : Nat) : Nat := tget 0 q (nodeReads op w)

/-- The `CHLEN` of a node that reads several queues, or of a matrix node (R296; spec/07_matrix.md R164), when it takes k groups:
END and BACKLOG by their lower unit, and ROW. -/
def pairFault (e : StripEnv) (tab : List (Nat × Stream)) (ix : Nat) (op : VOp) (w : VWord) (used k : Nat) : Option RFault :=
  let qs := (nodeQueues op w).filter (fun q => unitGroup e op w q != 0)
  let endBad := qs.any (fun a => (streamOf tab a).ended && qs.any (fun b =>
    availOf e tab op w used a < availOf e tab op w used b))
  let excess := qs.filter (fun q => queueCap (readTy op w q) < (streamOf tab q).units.length - used * unitGroup e op w q)
  if (mmaG op).isSome &&
      (endBad || qs.any (fun q => (streamOf tab q).ended &&
        ((streamOf tab q).units.length - used * unitGroup e op w q) % unitGroup e op w q != 0)) then some (e.chlen 4 ix)
  else if qs.length < 2 then none
  else if excess != [] && (!endBad || excess.any (fun q => queueCap (readTy op w q) < k)) then some (e.chlen 2 ix)
  else if endBad then some (e.chlen 1 ix)
  else none

/-- The value a reduction starts from (spec/06_vector_arith.md R149, R152). -/
def redStart (e : StripEnv) (tab : List (Nat × Stream)) (w : VWord) : Nat := fieldAt e tab w.vt.val w.f2 0 0

/-- The tree of a strip's elements, folded into the running value (spec/06_vector_arith.md R151, R152). -/
def treeUnit (e : StripEnv) (tab : List (Nat × Stream)) (w : VWord) (used k : Nat) (st : List Nat) : UnitOut :=
  let t := w.vt.val
  let y := treeRed (redElem .vredtsum t) (runMode e w) used (st.headD 0) ((List.range k).map (fun i =>
    if runMask e w i then some (used + i, fieldAt e tab t w.f1 i (used + i)) else none))
  { st := if k = 0 then st else [y.1], outs := [], flags := if k = 0 then 0#5 else y.2, effs := [] }

/-- The check that a port makes before its first element of a strip (spec/10_memory.md R221, R222, R229). -/
def portFault (e : StripEnv) (op : VOp) (w : VWord) (k : Nat) : Option RFault :=
  if (loadForm op || storeForm op) && k != 0 then
    (memCheck op w.vt.val (portAt e op w)).map (fun p => failAt p.1 p.2)
  else none

/-- An arrival-chained load has still to wait for copies issued before `run` (spec/10_memory.md R225, R229). -/
def portWait (e : StripEnv) (tab : List (Nat × Stream)) (op : VOp) (w : VWord) (used k : Nat) : Bool :=
  let t := w.vt.val
  let m := portAt e op w
  let reads : List (Int × Nat) := (List.range k).flatMap (fun i =>
    let n := used + i
    if blkTy t then
      if portActive e w i = [] then [] else blockReads m t n
    else if runMask e w i then
      let p := portPos op w m (if indexForm op then fieldAt e tab (idxTy t) (viFld w) i n else 0) 0 n
      [(m.half t p / 2, elemBytes t)]
    else [])
  loadForm op && w.ac == 1 && m.space == 1 && arrivalBlocked e.s m.ctx reads

/-- A node that goes through its units in order. A port tests STRIDE and ALIGN before the poison of its captured mask and g registers: no
rule gives the order (DESIGN CHOICE, log 44). -/
def plainNode (e : StripEnv) (tab : List (Nat × Stream)) (ix : Nat) (op : VOp) (w : VWord) (ns : NodeState) : NodeOut :=
  let qs := nodeQueues op w
  let source := nodeClass op w = .source
  let k := if source then sourceCount e w
    else (least ((qs.filter (fun q => unitGroup e op w q != 0)).map (availOf e tab op w ns.used))).getD 0
  let inEnd := qs.all (fun q => (streamOf tab q).ended)
  let st0 := if op = .ereq then [] else if redForm op && ns.nums == [] && (k != 0 || inEnd) then [redStart e tab w] else ns.nums
  let start : UnitOut := { st := st0, outs := [], flags := 0#5, effs := [] }
  let badP := if op = .thfuse && e.t = 0 then paramFault e op w
    else if redForm op && ns.nums == [] && (k != 0 || inEnd) then unitFault e (fieldUnits e.r.lanes (w.f2, w.vt.val) [0])
    else none
  let a := if op = .vredtsum then
      (treeUnit e tab w ns.used k st0, (List.range k).findSome? (fun i => regFault e op w (runMask e w i) i k 0))
    else unitLoop (nodeUnit e tab ix op w ns.used k) (List.range k) start
  let fault := ((portFault e op w k).or badP).or (a.2.or (pairFault e tab ix op w ns.used k))
  let done := if source then e.last && fault.isNone else
    inEnd && qs.all (fun q => unitGroup e op w q == 0 || availOf e tab op w ns.used q == k) && fault.isNone
  let first := done && !ns.ended
  { outs := if op = .lnkout then [] else if redForm op then (if first then [a.1.st.headD 0] else []) else a.1.outs
    ended := done
    next := { used := ns.used + k, carry := [], count := 0, ended := done, nums := a.1.st }
    fault := fault
    wait := portWait e tab op w ns.used k
    flags := a.1.flags
    effs := if op = .lnkout then
        (if a.1.outs = [] && !first then [] else [.send (linkDir w) (unitW w.vt.val) a.1.outs done])
      else a.1.effs
    charge := if op = .thfuse then 2 * (ns.used + k) / 128 - 2 * ns.used / 128
      else if op = .ereq then
        (a.1.st.zipIdx.map (fun x => copyCharge e (unitAt tab (srcN w.f1) (ns.used + x.2)) x.1)).foldl (· + ·) 0
      else 0 }

/-- A node that does nothing in the strip. -/
def idleNode (ns : NodeState) (ended : Bool) (effs : List Effect) : NodeOut :=
  { outs := [], ended := ended, next := { ns with ended := ended }, fault := none, wait := false, flags := 0#5,
    effs := effs, charge := 0 }

/-- A mask form (spec/06_vector_arith.md R135, R152): it writes the strip's bits of its mask at the commit, from the masks read at
`run`. -/
def maskNode (e : StripEnv) (op : VOp) (w : VWord) (ns : NodeState) : NodeOut :=
  let bit (f : Fin 512) (i : Nat) := maskBitOf e.r.masks (srcN f) i
  { idleNode ns e.last ((List.range e.len).map (fun i => .mask w.vd.val i (maskElem op (bit w.f1 i) (bit w.f2 i)))) with
    fault := if e.len = 0 then none else unitFault e (mopUnits op w) }

/-- `vexpand` (spec/08_permute_sparse.md R185): from the positions held over and the strip's own, 1 for an active one. -/
def expandGo (A : List Nat) : List Nat → Nat → List Nat × Nat × List Nat
  | [], used => ([], used, [])
  | 0 :: l, used =>
    let r := expandGo A l used
    (0 :: r.1, r.2)
  | p :: l, used =>
    match A[used]? with
    | none => ([], used, p :: l)
    | some x =>
      let r := expandGo A l (used + 1)
      (x :: r.1, r.2)

/-- A `vexpand` node: at most C(q) units leave it in a strip, and the rest is carried (R293); `surplusFault` looks for input left over at
the run's last strip. -/
def expandNode (e : StripEnv) (tab : List (Nat × Stream)) (ix : Nat) (w : VWord) (ns : NodeState) : NodeOut :=
  let A := streamOf tab (srcN w.f1)
  let ps := ns.nums ++ (List.range e.len).map (fun i => if runMask e w i then 1 else 0)
  let r := expandGo (A.units.map (unitIn w.vt.val)) ps ns.used
  let bad := A.ended && r.2.2 != []
  let unread := if e.r.bad = [] ∨ e.len = 0 then none else unitFault e (maskUnits w)
  let l := ns.carry ++ r.1
  let room := queueCap w.vt.val
  let done := e.last && A.ended && !bad && decide (l.length ≤ room)
  { outs := l.take room
    ended := done
    next := { used := r.2.1, carry := l.drop room, count := 0, ended := done, nums := r.2.2 }
    fault := unread.or (if bad then some (e.chlen 1 ix) else none)
    wait := false, flags := 0#5, effs := [], charge := 0 }

/-- The packets of a link, up to some units (R300): the units, whether EOS comes with or before the last of them (none where
units are missing), and the packets left. -/
def linkTake (width : Nat) : List Packet → Nat → List Nat × Option Bool × List Packet
  | ps, 0 => ([], some false, ps)
  | [], _ => ([], none, [])
  | p :: l, need =>
    let us := p.units.map (fun u => if p.width = width then u else Config.foreignUnit p.width width u % 2 ^ width)
    if us.length < need then
      if p.eos then (us, some true, l)
      else
        let r := linkTake width l (need - us.length)
        (us ++ r.1, r.2)
    else (us.take need, some (p.eos && us.length == need),
      if us.length = need then l else { p with units := p.units.drop need } :: l)

/-- The key of the link that a `lnkin` of a core reads. -/
def inKey (core dir : Nat) : Nat :=
  match neighbour core dir with
  | some m => linkKey m (opposite dir)
  | none => linkKey 320 dir

/-- A `lnkin` node (R300): its stream ends at the last of the units that N elements give, with that unit or in a packet of its own;
`nums` tells whether its EOS has been taken. A mismatch that no later unit shows is certain at the last source strip. -/
def linkNode (e : StripEnv) (ix : Nat) (w : VWord) (ns : NodeState) : NodeOut :=
  let r := linkTake (unitW w.vt.val) (tget Link.reset (inKey (hartCore e.h) (linkDir w)) e.s.links).inn (sourceCount e w)
  let short := decide (r.1.length < sourceCount e w)
  let out (wait : Bool) (bad : Bool) (eos : Bool) : NodeOut :=
    { outs := r.1.map (unitIn w.vt.val)
      ended := e.last && !wait && !bad
      next := { used := ns.used + r.1.length, carry := [], count := 0, ended := e.last, nums := if eos || r.2.1 == some true then [1] else ns.nums }
      fault := if bad then some (e.chlen 3 ix) else none
      wait := wait, flags := 0#5, effs := [.take (linkDir w) r.1.length eos], charge := 0 }
  let whole := ns.used + r.1.length = unitsIn w.vt.val 0 e.r.n
  if ns.ended || (ns.nums != [] && e.last) then idleNode ns true []
  else if ns.nums != [] then idleNode ns false []
  else match r.2.1 with
    | none => out true false false
    | some true => out false (short || !whole) false
    | some false =>
      if !e.last then out false false false
      else match r.2.2 with
        | [] => out true false false
        | p :: _ => if p.units = [] && p.eos then out false false true else out false true false

/-- `thdec` (spec/09_thresher.md R195, R203) from a block's postings not yet emitted and the block it goes on with - its
address, the LAST before it plus 1, the term, and SINGLE - until it has emitted `room` postings: what it emits, what is left
of the block, where it goes on, the references consumed, the blocks read, and what stops it. -/
def decodeGo (e : StripEnv) (A : List Nat) : Nat → Nat → Nat → List Nat → List Nat →
    List Nat × List Nat × List Nat × Nat × Nat × Option ThErr
  | 0, _, used, carry, nums => ([], carry, nums, used, 0, none)
  | fuel + 1, room, used, carry, nums =>
    if room = 0 then ([], carry, nums, used, 0, none)
    else if carry ≠ [] then
      let r := decodeGo e A fuel (room - (carry.take room).length) used (carry.drop room) nums
      (carry.take room ++ r.1, r.2)
    else match nums with
      | [va, prev, term, single] =>
        match readBlock e.s e.thAt va with
        | .error f => ([], [], nums, used, 0, some (.flt f))
        | .ok b =>
          match blockCode b (if prev = 0 then none else some (prev - 1)) with
          | some code => ([], [], nums, used, 1, some (thData code (va / 16)))
          | none =>
            let ps := (b.docs.zip b.freqs).map (fun p => term * 2 ^ 56 + min p.2 0xFFFFFF * 2 ^ 32 + p.1)
            let r := decodeGo e A fuel room used ps
              (if single = 1 || b.ends then [] else [va + 16 * b.len16, b.last + 1, term, single])
            (r.1, r.2.1, r.2.2.1, r.2.2.2.1, r.2.2.2.2.1 + 1, r.2.2.2.2.2)
      | _ =>
        match A[used]? with
        | none => ([], [], [], used, 0, none)
        | some x =>
          if x = filler then decodeGo e A fuel room (used + 1) [] []
          else if x / 2 ^ 55 % 256 ≠ 0 then ([], [], [], used, 0, some (thData 7 used))
          else decodeGo e A fuel room (used + 1) [] [x / 16 % 2 ^ 51 * 16, 0, x % 16, x / 2 ^ 63]

/-- What a Thresher node other than `thdec` and `thfuse` yields from its streams: the elements, their flags, the state it
passes on, and the elements it has consumed in the run. -/
def thYield (e : StripEnv) (op : VOp) (w : VWord) (A B : Stream) (ns : NodeState) :
    Except ThErr (List Nat × BitVec 5 × NodeState × Nat) :=
  let P := nodeParam e op w
  match op with
  | .thand | .thor =>
    (combineStreams (op = .thand) A.units B.units A.ended B.ended ns.used (ns.nums.headD 0)).map (fun r =>
      (r.1, 0#5, { ns with used := r.2.1, nums := [r.2.2.1] }, r.2.2.2))
  | .thwand => (wandStream P A.units A.ended ns.used).map (fun r => (r.1, r.2.1, { ns with used := r.2.2 }, A.units.length))
  | .thscore =>
    (scoreStream e.s e.thAt P A.units A.ended ns.used ns.nums.head?).map (fun r =>
      (r.1, if e.t = 0 then r.2.1 ||| (scoreConsts P).1.2 ||| (scoreConsts P).2.2 else r.2.1,
        { ns with used := r.2.2.1, nums := r.2.2.2.toList }, A.units.length))
  | _ =>
    match badScored (fromPlace A.units ns.used) with
    | some x => .error x
    | none =>
      .ok (if A.ended && ns.nums == [] then topk (P 0) A.units else [], 0#5,
        { ns with used := A.units.length, nums := if A.ended then [1] else [] }, A.units.length)

/-- A Thresher node (spec/09_thresher.md R203): at most C(q) elements leave it in a strip, and the rest is carried (R293). A bad
parameter is reported at the first strip of the run, whether or not an element reaches the node there (DESIGN CHOICE, log 49). What
R205 charges for elements is charged when their strip commits, and nothing for those of a strip that is discarded; the blocks of
`thdec` are charged all the same, as R205 states (DESIGN CHOICE, log 49). -/
def thNode (e : StripEnv) (tab : List (Nat × Stream)) (op : VOp) (w : VWord) (ns : NodeState) : NodeOut :=
  let A := streamOf tab (srcN w.f1)
  let B := streamOf tab (srcN w.f2)
  let two := op = .thand || op = .thor
  let room := queueCap 7
  let stop (f : RFault) (charge : Nat) : NodeOut := { idleNode ns false [] with fault := some f, charge := charge }
  match (if e.t = 0 then paramFault e op w else none) with
  | some f => stop f 0
  | none =>
    if op = .thdec then
      let r := decodeGo e A.units (2 * room + A.units.length + 8) room ns.used ns.carry ns.nums
      match r.2.2.2.2.2 with
      | some x => stop (thFault x) r.2.2.2.2.1
      | none =>
        let done := A.ended && r.2.2.2.1 == A.units.length && r.2.1 == [] && r.2.2.1 == []
        { outs := r.1, ended := done
          next := { used := r.2.2.2.1, carry := r.2.1, count := 0, ended := done, nums := r.2.2.1 }
          fault := none, wait := false, flags := 0#5, effs := [], charge := r.2.2.2.2.1 }
    else
      match thYield e op w A B ns with
      | .error x => stop (thFault x) 0
      | .ok (l, fl, ns', total) =>
        let l := ns.carry ++ l
        let done := A.ended && (!two || B.ended) && decide (l.length ≤ room)
        { outs := l.take room, ended := done
          next := { ns' with carry := l.drop room, count := total, ended := done }
          fault := none, wait := false, flags := fl, effs := [], charge := total / 128 - ns.count / 128 }

/-- Nodes whose output the passes of a strip settle: `delay`, and `eresp`, whose units and end follow its `ereq` and not a queue
(spec/07_matrix.md R167; R293, R294). -/
def settles (op : VOp) : Bool := op = .delay || op = .eresp

/-- The `ereq` of an `eresp`, with its state at the start of the strip. -/
def requester (e : StripEnv) (w : VWord) : Option ((VOp × VWord) × NodeState) :=
  (e.ch.nodes.zip e.r.nodes).find? (fun n => n.1.1 = .ereq && engineKey n.1.2 == engineKey w)

/-- Evaluate a node; `pre` is the settled output of a node of `settles`, already on its queue. -/
def evalNode (e : StripEnv) (tab : List (Nat × Stream)) (ix : Nat) (op : VOp) (w : VWord) (ns : NodeState)
    (pre : List Nat × Bool) : NodeOut :=
  if settles op then
    { idleNode ns pre.2 [] with next := { ns with used := ns.used + pre.1.length, ended := pre.2 } }
  else match op with
    | .vaccz => idleNode ns true (if e.t = 0 then [.accz w.vd.val] else [])
    | .mand | .mor | .mxor | .mandn | .mnot | .mmv | .mset | .mclr => maskNode e op w ns
    | .vwload | .stop => idleNode ns true []
    | .lnkin => linkNode e ix w ns
    | .vexpand => expandNode e tab ix w ns
    | .thdec | .thand | .thor | .thwand | .thscore | .thtopk => thNode e tab op w ns
    | _ => plainNode e tab ix op w ns

/-! ### A strip (R302, R305; spec/07_matrix.md R167) -/

/-- Units added to a queue's stream. -/
def pushUnits (tab : List (Nat × Stream)) (q : Option Nat) (us : List Nat) (ended : Bool) : List (Nat × Stream) :=
  match q with
  | none => tab
  | some q => tset q { units := (streamOf tab q).units ++ us, ended := ended } tab

/-- One pass over the nodes in block order, from the settled outputs. -/
def evalPass (e : StripEnv) (dl : List (List Nat × Bool)) : List (Nat × Stream) × List NodeOut :=
  let nodes := (e.ch.nodes.zip e.r.nodes).zip dl
  let tab := nodes.foldl (fun tab n =>
    if settles n.1.1.1 then pushUnits tab (nodeQueue n.1.1.1 n.1.1.2) n.2.1 n.2.2 else tab) e.r.streams
  (numbered nodes).foldl (fun (a : List (Nat × Stream) × List NodeOut) n =>
    let op := n.1.1.1.1
    let w := n.1.1.1.2
    let o := evalNode e a.1 n.2 op w n.1.1.2 n.1.2
    (if settles op then a.1 else pushUnits a.1 (nodeQueue op w) o.outs o.ended, a.2 ++ [o])) (tab, [])

/-- The queue that takes what a node's units bring forth: its own, or, for an `ereq`, that of its `eresp`. -/
def yieldQueue (nodes : List (VOp × VWord)) (n : VOp × VWord) : Option Nat :=
  if n.1 = .ereq then
    (nodes.find? (fun m => m.1 = .eresp && engineKey m.2 == engineKey n.2)).bind (fun m => nodeQueue m.1 m.2)
  else nodeQueue n.1 n.2

/-- The queues that a queue's units reach, itself among them. -/
def queuesFrom (nodes : List (VOp × VWord)) (q : Nat) : List Nat :=
  (List.range 16).foldl (fun l _ => nodes.foldl (fun l n =>
    match yieldQueue nodes n with
    | some b => if !l.contains b && (nodeQueues n.1 n.2).any l.contains then b :: l else l
    | none => l) l) [q]

/-- The queues of the cycle that a `delay` closes (spec/07_matrix.md R166), one through requests and their responses included (DEDUCED, log
24); none where it closes none. -/
def cycleOf (nodes : List (VOp × VWord)) (w : VWord) : List Nat :=
  (queuesFrom nodes (w.vd.val - 32)).filter (fun q => (queuesFrom nodes q).contains (srcN w.f1))

/-- How far the streams that enter a cycle reach, each counted in the units of the cycle's own queue at the node where it enters. -/
def cycleInput (e : StripEnv) (tab : List (Nat × Stream)) (qs : List Nat) : List Nat :=
  e.ch.nodes.flatMap (fun n =>
    if (yieldQueue e.ch.nodes n).any qs.contains then
      let read := (nodeQueues n.1 n.2).filter (fun q => unitGroup e n.1 n.2 q != 0)
      (read.filter qs.contains).flatMap (fun a => (read.filter (fun b => !qs.contains b)).map (fun b =>
        (streamOf tab b).units.length / unitGroup e n.1 n.2 b * unitGroup e n.1 n.2 a))
    else [])

/-- How far a `delay` runs ahead of its input within a strip: to where the longest of the streams that enter its cycle reaches, and no
further than its distance; to the end of the source elements where none enters it; and not at all outside a cycle, where its output has
as many elements as its input (DESIGN CHOICE, log 24). -/
def delayReach (e : StripEnv) (tab : List (Nat × Stream)) (w : VWord) : Nat :=
  let n := (streamOf tab (srcN w.f1)).units.length
  let qs := cycleOf e.ch.nodes w
  if qs = [] then n else max n (min (n + delayDist w) (((cycleInput e tab qs).max?).getD (e.n0 + e.len)))

/-- The requests of a strip, and whether their stream ends. -/
def newRequests (e : StripEnv) (tab : List (Nat × Stream)) (w : VWord) : List Nat × Bool :=
  match requester e w with
  | none => ([], true)
  | some n =>
    let q := streamOf tab (srcN n.1.2.f1)
    (q.units.drop n.2.used, q.ended)

/-- The output a node can settle from the streams of a pass: a `delay` as far as it reaches, and no further than its queue carries; the
responses of engine 1 to the requests of the strip, and those of engine 0 to the requests of the strip before (R293). -/
def settleOut (e : StripEnv) (tab : List (Nat × Stream)) (op : VOp) (w : VWord) (ns : NodeState) : List Nat :=
  if op = .delay then
    let A := (streamOf tab (srcN w.f1)).units
    (List.range' ns.used (min (delayReach e tab w) (ns.used + queueCap w.vt.val) - ns.used)).map (fun n =>
      if n < delayDist w then 0 else unitIn w.vt.val (A.getD (n - delayDist w) 0))
  else if nodeEngine w = 1 then tableReads e w (newRequests e tab w).1
  else ((requester e w).map (fun n => n.2.nums)).getD []

/-- Passes until no output grows. -/
def growPasses (e : StripEnv) : Nat → List (List Nat × Bool) → List (List Nat × Bool)
  | 0, dl => dl
  | fuel + 1, dl =>
    let tab := (evalPass e dl).1
    let dl' := ((e.ch.nodes.zip e.r.nodes).zip dl).map (fun n =>
      if settles n.1.1.1 then (settleOut e tab n.1.1.1 n.1.1.2 n.1.2, n.2.2) else n.2)
    if dl' = dl then dl else growPasses e fuel dl'

/-- Whether a settled output that is taken to end does: its input has ended, and every unit of it has been answered; no request to engine
0 of this strip has, so none may have been made (R293, R294). -/
def stillEnds (e : StripEnv) (tab : List (Nat × Stream)) (op : VOp) (w : VWord) (ns : NodeState) (out : List Nat × Bool) : Bool :=
  let input : Nat × Bool :=
    if op = .delay then ((streamOf tab (srcN w.f1)).units.length - ns.used, (streamOf tab (srcN w.f1)).ended)
    else ((newRequests e tab w).1.length, (newRequests e tab w).2)
  out.2 && input.2 && (if op = .eresp ∧ nodeEngine w = 0 then 0 else out.1.length) == input.1

/-- The settled outputs of a strip, from which of them are taken to end: a cycle ends once everything that enters it has ended, so all
are taken to end until one is seen not to. A node that faults passes on what it made before the fault, and no end. -/
def settleAll (e : StripEnv) : Nat → List Bool → List (List Nat × Bool)
  | 0, ends => growPasses e (2 ^ 20) (ends.map (fun b => ([], b)))
  | fuel + 1, ends =>
    let dl := growPasses e (2 ^ 20) (ends.map (fun b => ([], b)))
    let tab := (evalPass e dl).1
    let ends' := ((e.ch.nodes.zip e.r.nodes).zip dl).map (fun n =>
      if settles n.1.1.1 then stillEnds e tab n.1.1.1 n.1.1.2 n.1.2 n.2 else n.2.2)
    if ends' = ends then dl else settleAll e fuel ends'

/-- The poison of a line of a chain's reserve that a temporal strip reads (spec/18_ras.md R419): one that holds queues, state or
captured tiles (R288). Which line holds what the strip reads is a free value, since the layout of a reserve has none stated (log 29). -/
def reserveFault (e : StripEnv) : Option RFault :=
  let k := tileKey (hartCore e.h) + e.ch.rowLo * 8192
  if e.r.broken && (List.range (128 * e.ch.rows - 64)).any (fun j => isPoisoned e.s (k + 64 * j) && Config.reserveRead e.t j) then
    some (failAt cPoison (Config.reserveXval e.s.tick e.t))
  else none
/-- The first node of a strip reports a fault that comes before its own. -/
def faultFirst (f : RFault) : List NodeOut → List NodeOut
  | [] => []
  | o :: l => { o with fault := some f, wait := false } :: l

/-- At the run's last strip, input that a `vexpand` has not consumed is its `CHLEN` (spec/08_permute_sparse.md R185). -/
def surplusFault (e : StripEnv) (r : List (Nat × Stream) × List NodeOut) : List (Nat × Stream) × List NodeOut :=
  if e.last && r.2.all (fun o => o.ended) then
    (r.1, (numbered (e.ch.nodes.zip r.2)).map (fun n =>
      if n.1.1.1 = .vexpand ∧ n.1.2.next.used < (streamOf r.1 (srcN n.1.1.2.f1)).units.length then
        { n.1.2 with fault := n.1.2.fault.or (some (e.chlen 1 n.2)) }
      else n.1.2))
  else r

/-- The strip: the streams after it, and what each node does. -/
def evalStrip (e : StripEnv) : List (Nat × Stream) × List NodeOut :=
  let r := surplusFault e (evalPass e (settleAll e e.ch.nodes.length (e.ch.nodes.map (fun _ => e.last))))
  match reserveFault e with
  | some f => (r.1, faultFirst f r.2)
  | none => r

/-- What keeps a strip from its commit: the first node in block order that faults, or that has still to wait (R302). -/
def firstStop : List NodeOut → Option (Option RFault)
  | [] => none
  | o :: l =>
    match o.fault with
    | some f => some (if o.wait then none else some f)
    | none => if o.wait then some none else firstStop l

/-! ### Commit (R293, R248) -/

/-- The key of the link that a node's core sends on, or receives on. -/
def outKey (e : StripEnv) (dir : Nat) : Nat := linkKey (hartCore e.h) dir

/-- Units in packets of eight, EOS on the last (R294). -/
def packetsOf (width : Nat) (eos : Bool) (us : List Nat) : List Packet :=
  if us = [] then [{ units := [], width := width, eos := eos }]
  else
    let n := (us.length + 7) / 8
    (List.range n).map (fun k => { units := (us.drop (8 * k)).take 8, width := width, eos := eos && k + 1 == n })

/-- Perform one effect; flags are those of a scatter-reduce. -/
def Effect.apply (e : StripEnv) (a : State × BitVec 5) : Effect → State × BitVec 5
  | .mem w => (w.apply a.1, a.2)
  | .srd op t loc mode bits x => srdApply op t a (loc, { mode := mode, bits := bits }, x)
  | .mask d i b =>
    let v := a.1.me.vec
    (setVec a.1 { v with masks := setMask v.masks d (putBit (v.masks[d % 8]'(Nat.mod_lt _ (by decide))) i b) }, a.2)
  | .acc tile row col x =>
    let v := a.1.me.vec
    (setVec a.1 { v with acc := setRow v.acc tile row (putCol (accRow v.acc tile row) col x) }, a.2)
  | .accz tile => (setVec a.1 (clearTile a.1.me.vec tile), a.2)
  | .send dir width us eos =>
    let l := tget Link.reset (outKey e dir) a.1.links
    ({ a.1 with links := tset (outKey e dir) { l with out := l.out ++ packetsOf width eos us } a.1.links }, a.2)
  | .take dir n eos =>
    let k := inKey (hartCore e.h) dir
    let l := tget Link.reset k a.1.links
    let rest := (linkTake 0 l.inn n).2.2
    ({ a.1 with links := tset k { l with inn := if eos then rest.drop 1 else rest } a.1.links }, a.2)

/-- An effect that comes before the others of its strip (spec/07_matrix.md R162). -/
def Effect.early : Effect → Bool
  | .accz _ => true
  | _ => false

/-- Clear the poison of accumulator units that a strip has filled. -/
def clearAccs (e : StripEnv) (effs : List Effect) (v : VecState) : VecState :=
  let ws := effs.filterMap (fun x => match x with
    | .acc tile row col _ => some ((tile, row), col)
    | _ => none)
  ((ws.map (fun p => p.1)).eraseDups).foldl (fun v p =>
    clearAcc v e.r.lanes p.1 p.2 ((ws.filter (fun q => q.1 == p)).map (fun q => q.2))) v

/-- Clear the poison of masks of which a strip has written every bit (spec/18_ras.md R419). -/
def clearMasks (effs : List Effect) (v : VecState) : VecState :=
  let bits (d : Nat) : List Nat := effs.filterMap (fun x => match x with
    | .mask d' i _ => if d' % 8 = d then some i else none
    | _ => none)
  { v with pm := (List.range 8).foldl (fun p d =>
      let is := bits d
      if v.pm.getLsbD d ∧ 65536 ≤ is.length ∧ (List.range 65536).all is.contains then p &&& ~~~(BitVec.twoPow 8 d) else p) v.pm }

/-- The exit node counted (R308): the first of majors 0x0A and 0x0D, or `lnkout`. -/
def exitCount (nodes : List (VOp × VWord)) (outs : List NodeOut) : Nat :=
  match (nodes.zip outs).find? (fun n => storeForm n.1.1 || n.1.1 = .lnkout) with
  | some n => n.2.next.used
  | none => 0

/-- Commit a strip: its writes, its flags, the chain's state and ELEM; the run ends with its last strip. -/
def commitStrip (e : StripEnv) (tab : List (Nat × Stream)) (outs : List NodeOut) (temp : Bool) : State :=
  let effs := outs.flatMap (fun o => o.effs)
  let a := (effs.filter Effect.early ++ effs.filter (fun x => !x.early)).foldl (Effect.apply e) (e.s, 0#5)
  let s := if effs.any (fun x => match x with
      | .acc _ _ _ _ => true
      | _ => false) then setVec a.1 (clearAccs e effs a.1.me.vec) else a.1
  let s := if s.me.vec.pm = 0#8 then s else setVec s (clearMasks effs s.me.vec)
  let finished := e.last && outs.all (fun o => o.ended)
  let v := { s.me.vec with
    rElem := BitVec.ofNat 41 (min ((e.t + 1) * e.r.size) e.r.n)
    rRun := !finished
    rTemp := temp && !finished
    exits := exitCount e.ch.nodes outs
    run := if finished then none else some { e.r with
      strip := e.t + 1, streams := tab, nodes := outs.map (fun o => o.next) } }
  let s := { s with me := { s.me with vec := v, fflags := s.me.fflags ||| outs.foldl (fun f o => f ||| o.flags) a.2 } }
  charge s s.me.task (128 * outs.foldl (fun n o => n + o.charge) 0)

/-- The strip that a hart's run can execute: a run in progress that no fault stalls, of a hart that is not pre-empted, held or
halted. -/
def stripOf (s : State) (h : HartId) : Option StripEnv :=
  let a := hartOf s h
  match a.vec.run, a.vec.chain with
  | some r, some ch =>
    if a.vec.rRun && !ch.damaged && r.stall.isNone && !a.stopped && !a.held && !taskPaused s h a.task then
      some { s := switchTo s (.hart h), h := h, ch := ch, r := r }
    else none
  | _, _ => none

/-- A broken run can form again at this boundary: everything is there (R306). -/
def canForm (e : StripEnv) : Bool := e.r.broken && spatialOk e.s e.h e.r.lanes e.ch.nodes

/-- A broken run forms again before another strip: it ran temporally up to this boundary (R306). At the boundary where it broke it may
go on temporally instead (R304; spec/19_programs_compute.md R430 case G9; log 46). -/
def reForms (e : StripEnv) : Bool := e.s.me.vec.rTemp && canForm e

/-- Execute the hart's strip to its commit, if it reaches one; a run that has to re-form at this boundary does so first. -/
def doStrip (s : State) (h : HartId) (temp : Bool) : Host.Outcome State Fault Refusal :=
  match stripOf s h with
  | none => .next s
  | some e =>
    if e.r.broken ≠ temp ∨ reForms e then .next s
    else
      let r := evalStrip e
      match firstStop r.2 with
      | none => .next (switchTo (commitStrip e r.1 r.2 temp) s.me.id)
      | some _ => .next s

/-- The posting blocks that the nodes of a strip read before and at the first that stops it: they are charged though the strip is
discarded (spec/09_thresher.md R205). -/
def blocksRead : List ((VOp × VWord) × NodeOut) → Nat
  | [] => 0
  | n :: l => (if n.1.1 = .thdec then n.2.charge else 0) + if n.2.fault.isSome || n.2.wait then 0 else blocksRead l

/-- A strip meets a fault (R301, R303): it stalls with a PAGE record, whose AGENT is Thresher where a Thresher node met it, or the
run fails. -/
def faultStrip (e : StripEnv) (outs : List NodeOut) (f : RFault) : State :=
  let s := charge e.s e.s.me.task (128 * blocksRead (e.ch.nodes.zip outs))
  if f.stall then
    let agent := if (e.ch.nodes.zip outs).any (fun n => thForm n.1.1 && n.2.fault == some f) then 4 else 1
    let (s', token) := postRecord s s.me.ten 1 f.cause 0 f.xval (recordWho e.h agent s.me.asid.toNat)
      (recordEntry s.me.task) (BitVec.ofNat 64 f.acc) (some (.run e.h f.cause f.xval))
    setVec s' { s'.me.vec with run := some { e.r with stall := some token, broken := true } }
  else setVec s (failRun s.me.vec { cause := f.cause, xval := f.xval, offset := f.offset, access := f.acc })

/-- Flits of a packet (R299). -/
def flits (p : Packet) : Nat := (p.units.length * p.width + 511) / 512

/-- The hart whose chain reads a core's link in a direction. -/
def linkReader (s : State) (core dir : Nat) (ten : BitVec 6) : Option Agent :=
  (agents s).find? (fun a => match a.id with
    | .hart k => hartCore k == core && a.ten == ten &&
        (match a.vec.chain with
         | some ch => ch.nodes.any (fun n => n.1 = .lnkin && linkDir n.2 == dir)
         | none => false)
    | .cc _ => false)

/-- Units that the reader's strip takes from its link in a direction: they pass through the buffer (DEDUCED, log 26). -/
def linkNeed (a : Agent) (dir : Nat) : Nat :=
  match a.vec.run, (a.vec.chain.bind (fun ch => ch.nodes.find? (fun n => n.1 = .lnkin && linkDir n.2 == dir))) with
  | some r, some n => unitsIn n.2.vt.val (min (r.strip * r.size) r.n) (min ((r.strip + 1) * r.size) r.n)
  | _, _ => 0

/-- An engine or link port is withheld or given back; the spatial runs that use it break (R304). -/
def withhold (s : State) (x : Supply) (away : Bool) : State :=
  let rest := s.withheld.filter (fun y => y != x)
  let s := { s with withheld := if away then x :: rest else rest }
  if away then mapAgents s (fun a => match a.id, a.vec.chain with
    | .hart h, some ch => if a.vec.rRun && (supplies h ch.nodes).contains x then { a with vec := freezeRun a.vec } else a
    | _, _ => a)
  else s

/-! ### The instructions and events -/

/-- `chwait` (R308). -/
def chwaitInline (w : VWord) (s : State) : Host.Outcome State Fault Refusal :=
  node .chwait w s (fun s => gdone s w.gd (BitVec.ofNat 64 s.me.vec.exits))

/-- `chquit` (R309). -/
def chquitInline (w : VWord) (s : State) : Host.Outcome State Fault Refusal :=
  node .chquit w s (fun s => let s := quitChain s; .done (vfinish s s.me.vec 0#5))


/-- CHAIN: Reads, validates and installs a chain block in one step. (R286) -/
def execChain (w : VWord) (s : State) : Host.Outcome State Fault Refusal :=
  chainInline w s

/-- RUN: Starts or resumes a run of N elements through the installed chain. (R291) -/
def execRun (w : VWord) (s : State) : Host.Outcome State Fault Refusal :=
  runInline w s

/-- CHWAIT: Waits for the run to end and returns its exit count. (R308) -/
def execChwait (w : VWord) (s : State) : Host.Outcome State Fault Refusal :=
  chwaitInline w s

/-- CHQUIT: Waits for the run, then releases the chain, reserve and link ports. (R309) -/
def execChquit (w : VWord) (s : State) : Host.Outcome State Fault Refusal :=
  chquitInline w s

/-- STOP: Terminates a chain block. (R284); executed inline the word is `ILLEGAL` (R47); the word ends a block,
`checkBlock` -/
def execStop (w : VWord) (s : State) : Host.Outcome State Fault Refusal :=
  node .stop w s (fun s => .done s)

/-- LNKIN: Chain source node taking units from a lane link. (R300); executed inline the word is `ILLEGAL` (R47); in a
block, `linkNode` -/
def execLnkin (w : VWord) (s : State) : Host.Outcome State Fault Refusal :=
  node .lnkin w s (fun s => .done s)

/-- LNKOUT: Chain exit node sending units over a lane link at commit. (R300); executed inline the word is `ILLEGAL`
(R47); in a block, `plainNode` and `Effect.apply` -/
def execLnkout (w : VWord) (s : State) : Host.Outcome State Fault Refusal :=
  node .lnkout w s (fun s => .done s)

/-- DELAY: Chain node emitting its input delayed by d elements. (R165); executed inline the word is `ILLEGAL` (R47);
in a block, `settleOut` -/
def execDelay (w : VWord) (s : State) : Host.Outcome State Fault Refusal :=
  node .delay w s (fun s => .done s)

/-- EREQ: Chain node sending request elements to an engine stream. (R279); executed inline the word is `ILLEGAL`
(R47); in a block, `nodeUnit` -/
def execEreq (w : VWord) (s : State) : Host.Outcome State Fault Refusal :=
  node .ereq w s (fun s => .done s)

/-- ERESP: Chain node taking response elements from an engine stream. (R279); executed inline the word is `ILLEGAL`
(R47); in a block, `evalNode` -/
def execEresp (w : VWord) (s : State) : Host.Outcome State Fault Refusal :=
  node .eresp w s (fun s => .done s)

/-- STRIP_COMMIT: A finished strip commits its writes, link sends and flags, records state and advances ELEM. (R293);
for a run that is spatial -/
def execStripCommit (h : HartId) (s : State) : Host.Outcome State Fault Refusal :=
  doStrip s h false

/-- TEMPORAL_STRIP: When the hart runs, a strip executes its node words one at a time. (R305); for a run that has
broken -/
def execTemporalStrip (h : HartId) (s : State) : Host.Outcome State Fault Refusal :=
  doStrip s h true

/-- STRIP_FAULT: A fault met by a strip either stalls it or fails the run. (R301) -/
def execStripFault (h : HartId) (s : State) : Host.Outcome State Fault Refusal :=
  match stripOf s h with
  | none => .next s
  | some e =>
    let r := evalStrip e
    match firstStop r.2 with
    | some (some f) => .next (switchTo (faultStrip e r.2 f) s.me.id)
    | _ => .next s

/-- BREAK: A spatial run is frozen within 256 cycles, discarding uncommitted strips. (R304) -/
def execBreakRun (h : HartId) (s : State) : Host.Outcome State Fault Refusal :=
  let a := hartOf s h
  if a.vec.rRun && a.vec.run.any (fun r => !r.broken) then .next (putAgent s { a with vec := freezeRun a.vec }) else .next s

/-- RE_FORM: At a strip boundary with resources available the chain re-forms spatially. (R306) -/
def execReForm (h : HartId) (s : State) : Host.Outcome State Fault Refusal :=
  match stripOf s h with
  | none => .next s
  | some e =>
    let a := e.s.me
    if canForm e then
      .next (putAgent s { a with vec := { a.vec with run := some { e.r with broken := false } } })
    else .next s

/-- LINK_PACKET: A packet arrives whole over a lane link into a lnkin buffer. (R299) -/
def execLinkPacket (h : HartId) (dir : Fin 4) (s : State) : Host.Outcome State Fault Refusal :=
  let k := linkKey (hartCore h) dir.val
  let l := tget Link.reset k s.links
  let a := hartOf s h
  let sends := match a.vec.chain with
    | some ch => ch.nodes.any (fun n => n.1 = .lnkout && linkDir n.2 == dir.val)
    | none => false
  match l.out, (neighbour (hartCore h) dir.val).bind (fun m => linkReader s m (opposite dir.val) a.ten) with
  | p :: rest, some b =>
    let t := linkTake 0 l.inn (linkNeed b (opposite dir.val))
    let room := t.2.1.isNone || decide ((t.2.2.map flits).foldl (· + ·) (flits p) ≤ 64)
    if sends && room then .next { s with links := tset k { out := rest, inn := l.inn ++ [p] } s.links } else .next s
  | _, _ => .next s


end Machine
end Sys2Proof
end

