-- ==== Sys2Proof/Machine/LoadStore.lean ====
section
/-! DEFINITION. Scalar loads, stores and atomics, fences, and the two instructions that discard cached copies
(spec/10_memory.md R217, R218; spec/12_atomics_engines.md R254-R256; spec/11_consistency.md R241-R243; spec/02_encoding.md
R61; spec/16_isolation.md R363; spec/17_traps.md R409). -/

namespace Sys2Proof
namespace Machine

/-- ea := trunc(rs1 + sext(imm14, 64), 64) (R217). -/
def effAddr (s : State) (rs1 : Reg) (imm : Fin 16384) : Word := rd s rs1 + imm14 imm

/-- A scalar load of n bytes: `ALIGN`, then the access, then the result (R217, R218). -/
def load (n : Nat) (ext : Nat → Word) (d rs1 : Reg) (imm : Fin 16384) (s : State) : Host.Outcome State Fault Refusal :=
  let ea := effAddr s rs1 imm
  scalar s [rs1]
    (if ea.toNat % n ≠ 0 then .trap s (Trap.sync cAlign ea)
     else match resolveScalar s .read ea.toNat with
       | .error f => .trap s f.trap
       | .ok l => .done (wr s d (ext (readLoc s l n))))

/-- A scalar store of n bytes (R217, R218). -/
def store (n : Nat) (rs2 rs1 : Reg) (imm : Fin 16384) (s : State) : Host.Outcome State Fault Refusal :=
  let ea := effAddr s rs1 imm
  scalar s [rs1, rs2]
    (if ea.toNat % n ≠ 0 then .trap s (Trap.sync cAlign ea)
     else match resolveScalar s .write ea.toNat with
       | .error f => .trap s f.trap
       | .ok l => .done (writeLoc s l n (rd s rs2).toNat))

/-- A scalar atomic (R255): `new` of old and operand; none where it does not write. rd is also a source of `amocas`. -/
def atomic (new : Nat → Nat → Nat → Nat → Option Nat) (srcs : List Reg) (d rs1 rs2 : Reg) (dw : Fin 2) (s : State) :
    Host.Outcome State Fault Refusal :=
  let n := if dw = 0 then 4 else 8
  let ea := rd s rs1
  scalar s srcs
    (if ea.toNat % n ≠ 0 then .trap s (Trap.sync cAlign ea)
     else match resolveScalar s .both ea.toNat with
       | .error f => .trap s f.trap
       | .ok l =>
         let old := readLoc s l n
         let s' := match new (8 * n) old ((rd s rs2).toNat % 2 ^ (8 * n)) ((rd s d).toNat % 2 ^ (8 * n)) with
           | some v => writeLoc s l n v
           | none => s
         .done (wr s' d (BitVec.ofNat 64 (wrapI 64 (sx (8 * n) old)))))

/-- LB: Loads a sign-extended byte from rs1 plus offset. (R217) -/
def execLb (rd rs1 : Reg) (imm : Fin 16384) (s : State) : Host.Outcome State Fault Refusal :=
  load 1 (fun v => (BitVec.ofNat 8 v).signExtend 64) rd rs1 imm s

/-- LBU: Loads a zero-extended byte. (R217) -/
def execLbu (rd rs1 : Reg) (imm : Fin 16384) (s : State) : Host.Outcome State Fault Refusal :=
  load 1 (fun v => BitVec.ofNat 64 v) rd rs1 imm s

/-- LH: Loads a sign-extended halfword. (R217) -/
def execLh (rd rs1 : Reg) (imm : Fin 16384) (s : State) : Host.Outcome State Fault Refusal :=
  load 2 (fun v => (BitVec.ofNat 16 v).signExtend 64) rd rs1 imm s

/-- LHU: Loads a zero-extended halfword. (R217) -/
def execLhu (rd rs1 : Reg) (imm : Fin 16384) (s : State) : Host.Outcome State Fault Refusal :=
  load 2 (fun v => BitVec.ofNat 64 v) rd rs1 imm s

/-- LW: Loads a sign-extended word. (R217) -/
def execLw (rd rs1 : Reg) (imm : Fin 16384) (s : State) : Host.Outcome State Fault Refusal :=
  load 4 (fun v => (BitVec.ofNat 32 v).signExtend 64) rd rs1 imm s

/-- LWU: Loads a zero-extended word. (R217) -/
def execLwu (rd rs1 : Reg) (imm : Fin 16384) (s : State) : Host.Outcome State Fault Refusal :=
  load 4 (fun v => BitVec.ofNat 64 v) rd rs1 imm s

/-- LD: Loads a doubleword. (R217) -/
def execLd (rd rs1 : Reg) (imm : Fin 16384) (s : State) : Host.Outcome State Fault Refusal :=
  load 8 (fun v => BitVec.ofNat 64 v) rd rs1 imm s

/-- SB: Stores rs2[7:0] to rs1 plus offset. (R217) -/
def execSb (rs2 rs1 : Reg) (imm : Fin 16384) (s : State) : Host.Outcome State Fault Refusal :=
  store 1 rs2 rs1 imm s

/-- SH: Stores rs2[15:0]. (R217) -/
def execSh (rs2 rs1 : Reg) (imm : Fin 16384) (s : State) : Host.Outcome State Fault Refusal :=
  store 2 rs2 rs1 imm s

/-- SW: Stores rs2[31:0]. (R217) -/
def execSw (rs2 rs1 : Reg) (imm : Fin 16384) (s : State) : Host.Outcome State Fault Refusal :=
  store 4 rs2 rs1 imm s

/-- SD: Stores the doubleword rs2. (R217) -/
def execSd (rs2 rs1 : Reg) (imm : Fin 16384) (s : State) : Host.Outcome State Fault Refusal :=
  store 8 rs2 rs1 imm s

/-- AMOSWAP: Atomically writes rs2 to the unit at rs1 and returns the old value. (R255) -/
def execAmoswap (rd rs1 rs2 : Reg) (dw : Fin 2) (_ord : Fin 8) (s : State) : Host.Outcome State Fault Refusal :=
  atomic (fun _ _ v _ => some v) [rs1, rs2] rd rs1 rs2 dw s

/-- AMOADD: Atomically adds rs2 to the unit and returns the old value. (R255) -/
def execAmoadd (rd rs1 rs2 : Reg) (dw : Fin 2) (_ord : Fin 8) (s : State) : Host.Outcome State Fault Refusal :=
  atomic (fun w old v _ => some ((old + v) % 2 ^ w)) [rs1, rs2] rd rs1 rs2 dw s

/-- AMOAND: Atomically ANDs rs2 into the unit. (R255) -/
def execAmoand (rd rs1 rs2 : Reg) (dw : Fin 2) (_ord : Fin 8) (s : State) : Host.Outcome State Fault Refusal :=
  atomic (fun _ old v _ => some (Nat.land old v)) [rs1, rs2] rd rs1 rs2 dw s

/-- AMOOR: Atomically ORs rs2 into the unit. (R255) -/
def execAmoor (rd rs1 rs2 : Reg) (dw : Fin 2) (_ord : Fin 8) (s : State) : Host.Outcome State Fault Refusal :=
  atomic (fun _ old v _ => some (Nat.lor old v)) [rs1, rs2] rd rs1 rs2 dw s

/-- AMOXOR: Atomically XORs rs2 into the unit. (R255) -/
def execAmoxor (rd rs1 rs2 : Reg) (dw : Fin 2) (_ord : Fin 8) (s : State) : Host.Outcome State Fault Refusal :=
  atomic (fun _ old v _ => some (Nat.xor old v)) [rs1, rs2] rd rs1 rs2 dw s

/-- AMOMIN: Atomically keeps the signed minimum. (R255) -/
def execAmomin (rd rs1 rs2 : Reg) (dw : Fin 2) (_ord : Fin 8) (s : State) : Host.Outcome State Fault Refusal :=
  atomic (fun w old v _ => some (if sx w old ≤ sx w v then old else v)) [rs1, rs2] rd rs1 rs2 dw s

/-- AMOMAX: Atomically keeps the signed maximum. (R255) -/
def execAmomax (rd rs1 rs2 : Reg) (dw : Fin 2) (_ord : Fin 8) (s : State) : Host.Outcome State Fault Refusal :=
  atomic (fun w old v _ => some (if sx w old ≤ sx w v then v else old)) [rs1, rs2] rd rs1 rs2 dw s

/-- AMOMINU: Atomically keeps the unsigned minimum. (R255) -/
def execAmominu (rd rs1 rs2 : Reg) (dw : Fin 2) (_ord : Fin 8) (s : State) : Host.Outcome State Fault Refusal :=
  atomic (fun _ old v _ => some (min old v)) [rs1, rs2] rd rs1 rs2 dw s

/-- AMOMAXU: Atomically keeps the unsigned maximum. (R255) -/
def execAmomaxu (rd rs1 rs2 : Reg) (dw : Fin 2) (_ord : Fin 8) (s : State) : Host.Outcome State Fault Refusal :=
  atomic (fun _ old v _ => some (max old v)) [rs1, rs2] rd rs1 rs2 dw s

/-- AMOCAS: Atomically writes rs2 if the unit equals rd, returning the old value. (R255) -/
def execAmocas (rd rs1 rs2 : Reg) (dw : Fin 2) (_ord : Fin 8) (s : State) : Host.Outcome State Fault Refusal :=
  atomic (fun _ old v c => if old = c then some v else none) [rs1, rs2, rd] rd rs1 rs2 dw s

/-- A fence whose earlier class includes the vector agent waits for the hart's run and takes its report; on a control core
it completes at once (R242, R243). -/
def fenceAfterVector (s : State) : Host.Outcome State Fault Refusal :=
  match s.me.id with
  | .hart _ => finish 4 (runGate s (.done s))
  | .cc _ => finish 4 (.done s)

/-- FENCE_SV: Orders earlier scalar accesses before later vector accesses at a scope. (R242); it waits for nothing,
and the order it places is that of log 2 -/
def execFenceSv (_scope : Fin 8) (s : State) : Host.Outcome State Fault Refusal := finish 4 (.done s)

/-- FENCE_VS: Orders earlier vector accesses and runs before later scalar accesses. (R242) -/
def execFenceVs (_scope : Fin 8) (s : State) : Host.Outcome State Fault Refusal := fenceAfterVector s

/-- FENCE_VV: Orders earlier vector accesses and runs before later ones. (R242) -/
def execFenceVv (_scope : Fin 8) (s : State) : Host.Outcome State Fault Refusal := fenceAfterVector s

/-- FENCE_ALL: Orders every earlier access of both agents before every later one. (R242) -/
def execFenceAll (_scope : Fin 8) (s : State) : Host.Outcome State Fault Refusal := fenceAfterVector s

/-- IFENCE: Orders later instruction fetch after earlier data stores of the hart. (R61) -/
def execIfence (s : State) : Host.Outcome State Fault Refusal :=
  finish 4 (.done { s with istore := s.istore.filter (fun c => c.agent != s.me.id) })

/-- WAIT: Waits until the doubleword at rs1 differs from rs2 and writes it to rd. (R409) -/
def execWait (rd rs1 rs2 : Reg) (s : State) : Host.Outcome State Fault Refusal :=
  let ea := Machine.rd s rs1
  scalar s [rs1, rs2]
    (if ea.toNat % 8 ≠ 0 then .trap s (Trap.sync cAlign ea)
     else match resolveScalar s .read ea.toNat with
       | .error f => .trap s f.trap
       | .ok l =>
         let x := BitVec.ofNat 64 (readLoc s l 8)
         if x = Machine.rd s rs2 then .wait s else .done (wr s rd x))

/-- The address spaces an agent may name in `tlbinv` (R363). -/
def mayName (s : State) (asid : Nat) : Bool :=
  match s.me.id with
  | .hart _ => (aspOf s asid).ten == s.me.ten
  | .cc _ => s.me.mode == .m || s.me.cc.tenmask.getLsbD (aspOf s asid).ten.toNat || s.me.cc.asid.toNat == asid

/-- A cached entry lies on the walk of an address. -/
def onWalk (t : TlbEntry) (va : Nat) : Bool := t.path == va / 2 ^ pageLog t.level

/-- TLBINV: Discards cached translations of the selected ASIDs and address across the package, in the order of
`fence.all.package`: a hart's waits for its run. R390 test 6 lists only the fences, so it takes no report of a failed run
(DEDUCED, log 21). (R363) -/
def execTlbinv (rs1 rs2 : Reg) (s : State) : Host.Outcome State Fault Refusal :=
  let a := Machine.rd s rs1
  let va := (Machine.rd s rs2).toNat / 65536 * 65536
  let hit (t : TlbEntry) : Bool :=
    (a.getLsbD 16 || t.asid == a.toNat % 65536) && mayName s t.asid && (a.getLsbD 17 || onWalk t va)
  finish 4 (needS s (encRs1Rs2 0x60000007 rs1 rs2)
    (withG s [rs1, rs2] (if s.me.vec.rRun then .wait s else .done { s with tlb := s.tlb.filter (fun t => !hit t) })))

end Machine
end Sys2Proof
end

