-- ==== Sys2Proof/Machine/Spdm.lean ====
section
/-! DEFINITION. The messages of the SPDM responder (spec/16_isolation.md R383), laid out as DMTF DSP0274 1.2 lays them out
(PRESUMED, log 11). -/

namespace Sys2Proof
namespace Machine

/-- The code byte of each supported request: GET_VERSION, GET_CAPABILITIES, NEGOTIATE_ALGORITHMS, GET_DIGESTS, GET_CERTIFICATE,
CHALLENGE, GET_MEASUREMENTS. -/
def spdmCodes : List Nat := [0x84, 0xE1, 0xE3, 0x81, 0x82, 0x83, 0xE0]

/-- A message of version 1.2: its code, its two parameters, and what follows. -/
def spdmMsg (code p1 p2 : Nat) (body : List Byte) : List Byte :=
  [0x12#8, BitVec.ofNat 8 code, BitVec.ofNat 8 p1, BitVec.ofNat 8 p2] ++ body
/-- An ERROR message. -/
def spdmError (code data : Nat) : List Byte := spdmMsg 0x7F code data []

/-- The most bytes of a message on its route: a frame's payload (R384), or the mailbox (R386). -/
def spdmRoom : SpdmVia → Nat
  | .port _ => 1024
  | .mailbox => 0x3F0
/-- A message, or ResponseTooLarge where it has no room. -/
def fitted (v : SpdmVia) (m : List Byte) : List Byte :=
  if m.length ≤ spdmRoom v then m else spdmError 0x0D 0 ++ leBytes 4 m.length

/-- VERSION: 1.2 only. -/
def versionMsg : List Byte := [0x10#8, 0x04#8, 0#8, 0#8, 0#8, 1#8] ++ leBytes 2 0x1200
/-- CAPABILITIES: CERT_CAP, CHAL_CAP, and MEAS_CAP with signature. -/
def capabilitiesMsg : List Byte :=
  spdmMsg 0x61 0 0 ([0#8] ++ leBytes 1 (Config.spdmField 0) ++ leBytes 2 0 ++ leBytes 4 0x16 ++ leBytes 4 (Config.spdmField 1) ++
    leBytes 4 (Config.spdmField 2))
/-- ALGORITHMS: of those that the requester names, RSAPSS_4096 and SHA_512. -/
def algorithmsMsg (b : List Byte) : List Byte :=
  let spec := fieldLE b 6 1 % 2
  let pick (off m : Nat) : Nat := if fieldLE b off 4 / m % 2 = 1 then m else 0
  spdmMsg 0x63 0 0 (leBytes 2 36 ++ leBytes 1 spec ++ [0#8] ++ leBytes 4 (8 * spec) ++ leBytes 4 (pick 8 0x40) ++
    leBytes 4 (pick 12 4) ++ List.replicate 16 0#8)

/-- DIGESTS: of the chain in slot 0. -/
def digestsMsg : List Byte := spdmMsg 0x01 0 1 (sha512Bytes Config.certChain)
/-- CERTIFICATE: a portion of the chain in slot 0; another slot, or an offset past the chain, is InvalidRequest. -/
def certificateMsg (v : SpdmVia) (b : List Byte) : List Byte :=
  let off := fieldLE b 4 2
  let n := min (min (fieldLE b 6 2) (Config.certChain.length - off)) (spdmRoom v - 8)
  if fieldLE b 2 1 % 16 ≠ 0 ∨ Config.certChain.length ≤ off then spdmError 0x01 0
  else spdmMsg 0x02 0 0 (leBytes 2 n ++ leBytes 2 (Config.certChain.length - off - n) ++ (Config.certChain.drop off).take n)

/-- The value of a measurement index (R383): BMEAS0-BMEAS7 as digests, `FVER` and `FEAT0`-`FEAT3` as a raw stream. -/
def measurementValue (s : State) (i : Nat) : List Byte :=
  if i ≤ 8 then leBytes 64 (s.bmeas[(i - 1) % 8]'(Nat.mod_lt _ (by decide))).toNat
  else leBytes 8 Config.fver.toNat ++ (List.range 4).flatMap (fun n => leBytes 8 (Config.feat n).toNat)
/-- The measurement block of an index. -/
def measurementBlock (s : State) (i : Nat) : List Byte :=
  let x := measurementValue s i
  [BitVec.ofNat 8 i, 1#8] ++ leBytes 2 (x.length + 3) ++
    leBytes 1 ((Config.measurementKind i).toNat + if i = 9 then 128 else 0) ++ leBytes 2 x.length ++ x
/-- Every measurement block, in index order. -/
def measurementRecord (s : State) : List Byte := (List.range' 1 9).flatMap (measurementBlock s)

/-- CHALLENGE_AUTH: the hash of the chain, a nonce, the summary that was asked for, and the signature. -/
def challengeMsg (s : State) (b : List Byte) : List Byte :=
  let kind := fieldLE b 3 1
  if fieldLE b 2 1 % 16 ≠ 0 ∨ ¬ (kind = 0 ∨ kind = 1 ∨ kind = 0xFF) then spdmError 0x01 0
  else spdmMsg 0x03 0 1 (sha512Bytes Config.certChain ++ leBytes 32 (Config.spdmNonce s.tick).toNat ++
    (if kind = 0 then [] else if kind = 1 then leBytes 64 (Config.tcbSummary s.tick).toNat else sha512Bytes (measurementRecord s)) ++
    leBytes 2 0 ++ leBytes 512 (Config.spdmSignature s.tick).toNat)

/-- MEASUREMENTS: the number of indices, one of them, or all, signed where that is asked for. -/
def measurementsMsg (s : State) (b : List Byte) : List Byte :=
  let op := fieldLE b 3 1
  let signed := fieldLE b 2 1 % 2 = 1
  let tail := leBytes 32 (Config.spdmNonce s.tick).toNat ++ leBytes 2 0 ++
    (if signed then leBytes 512 (Config.spdmSignature s.tick).toNat else [])
  let msg (total blocks : Nat) (r : List Byte) : List Byte :=
    spdmMsg 0x60 total 0 (leBytes 1 blocks ++ leBytes 3 r.length ++ r ++ tail)
  if signed ∧ fieldLE b 36 1 % 16 ≠ 0 then spdmError 0x01 0
  else if op = 0 then msg 9 0 []
  else if op = 0xFF then msg 0 9 (measurementRecord s)
  else if op ≤ 9 then msg 0 1 (measurementBlock s op)
  else spdmError 0x01 0

/-- The responder's message to a request, and how far the exchange has come: 1 after GET_VERSION, 2 after GET_CAPABILITIES, 3
after NEGOTIATE_ALGORITHMS. A request out of that order is UnexpectedRequest, one of another version VersionMismatch. -/
def spdmResponse (s : State) (req : SpdmReq) : Nat × List Byte :=
  let b := req.bytes
  let here (m : List Byte) : Nat × List Byte := (s.spdm, fitted req.via m)
  if spdmCodes.contains req.code = false then here (spdmError 0x07 req.code)
  else if req.code = 0x84 then (1, versionMsg)
  else if fieldLE b 0 1 ≠ 0x12 then here (spdmError 0x41 0)
  else if req.code = 0xE1 then (if s.spdm = 1 ∨ s.spdm = 2 then (2, capabilitiesMsg) else here (spdmError 0x04 0))
  else if req.code = 0xE3 then (if 2 ≤ s.spdm then (3, algorithmsMsg b) else here (spdmError 0x04 0))
  else if s.spdm < 3 then here (spdmError 0x04 0)
  else match req.code with
    | 0x81 => here digestsMsg
    | 0x82 => here (certificateMsg req.via b)
    | 0x83 => here (challengeMsg s b)
    | _ => here (measurementsMsg s b)

end Machine
end Sys2Proof
end

