-- ==== Sys2Proof/Machine/Service.lean ====
section
/-! DEFINITION. Boot and its images, attestation, the management port, the frames of the network ports that are not collective frames, soft errors,
repair and throttling (spec/15_links_collectives.md R345; spec/16_isolation.md R374, R380-R386; spec/18_ras.md R416-R427). -/

namespace Sys2Proof
namespace Machine

/-! ### Boot (R380-R382, R426) -/

/-- Bytes of the staging area, least significant first, as a number. -/
def staged (s : State) (off n : Nat) : Nat := Memory.readLE s.staging off n
/-- Bytes of the staging area. -/
def stagedBytes (s : State) (off n : Nat) : List Byte := (List.range n).map (fun k => Memory.read s.staging (off + k))
/-- Bytes of an image's header (R381). -/
def headerBytes : Nat := 1124

/-- The failure code of an image of a kind at a staging offset, in the order of R381. LENGTH fits when the payload lies in the
staging area and in HBM4E from LOAD, for an image of either kind (DESIGN CHOICE, log 8). -/
def imageCode (s : State) (off kind : Nat) : Option Nat :=
  let len := staged s (off + 16) 8
  let load := staged s (off + 24) 8
  if staged s off 4 ≠ 0x334D465A ∨ staged s (off + 4) 4 ≠ kind ∨ stagingBytes < off + headerBytes + len ∨
      hbmEnd < load + len then some 0x83
  else if sha512 (stagedBytes s (off + 96) 516) ≠ Config.keyHash then some 0x84
  else if pssVerify (stagedBytes s (off + 96) 512) (stagedBytes s (off + 608) 4)
        (sha512Bytes (stagedBytes s off 612)) (stagedBytes s (off + 612) 512) = false ∨
      sha512 (stagedBytes s (off + headerBytes) len) ≠ BitVec.ofNat 512 (staged s (off + 32) 64) then some 0x81
  else if staged s (off + 8) 8 < Config.minSvn kind then some 0x82
  else none

/-- Extend a measurement (R382). -/
def measure (s : State) (i : Nat) (d : BitVec 512) : State :=
  let m := extend (s.bmeas[i % 8]'(Nat.mod_lt _ (by decide))) (leBytes 64 d.toNat)
  { s with bmeas := s.bmeas.set (i % 8) m (Nat.mod_lt _ (by decide)) }

/-- Load an image's payload at LOAD, and extend a measurement with its header (R380, R382). The payload of a control-core image, for
which R381 gives LOAD as the entry point, lies from there too (DESIGN CHOICE, log 8). -/
def loadImage (s : State) (off i : Nat) : State :=
  let len := staged s (off + 16) 8
  measure { s with mem := (List.range len).foldl (fun m k =>
    Memory.write m (staged s (off + 24) 8 + k) (Memory.read s.staging (off + headerBytes + k))) s.mem } i
    (sha512 (stagedBytes s off 612))

/-- Phase 0x00 (R380, R426): measurements zero, BMEAS2 extended with the fuse words, every byte of SRAM and HBM4E zero and no
line poisoned; phase 0x01 follows. -/
def bootRom (s : State) : State :=
  measure { s with bootstat := 1#8, mem := [], poison := [], bmeas := .replicate 8 0#512 } 2 Config.fuseDigest

/-- A control core as boot starts it: M mode, at the image's entry (R380). -/
def startCc (load : Word) (n : Nat) : Agent := { Agent.fresh (.cc (Fin.ofNat 32 n)) with pc := load }

/-- One step of boot in its phase. Phase 0x01 waits for STAGECTL (R386). -/
def bootStep (s : State) : State :=
  if s.bootstat = 0#8 then bootRom s
  else if s.bootstat = 2#8 then
    match imageCode s 0 1 with
    | some code => { s with bootstat := BitVec.ofNat 8 code }
    | none => { loadImage s 0 0 with bootstat := 3#8 }
  else if s.bootstat = 3#8 then
    let off := headerBytes + staged s 16 8
    match imageCode s off 2 with
    | some code => { s with bootstat := BitVec.ofNat 8 code }
    | none =>
      let load := BitVec.ofNat 64 (staged s (off + 24) 8)
      let s := loadImage s off 1
      { s with bootstat := 4#8, ccLoad := load, me := startCc load 0
               others := (List.range' 1 31).map (startCc load) }
  else s

/-- A package reset (R426): everything takes its reset value but the spares that are in service, and boot begins. What has left
the package, the turns to come and the count of free values are no state of the package. -/
def resetPackage (s : State) : State :=
  bootRom { State.reset with
    spares := s.spares, fenced := s.fenced, coresOut := s.coresOut, sent := s.sent, agenda := s.agenda, tick := s.tick }

/-- RESET_N: Release of RESET_N zeroes memory, applies spares and runs boot phase 0x00. (R426) -/
def execResetN (s : State) : Host.Outcome State Fault Refusal :=
  .next (resetPackage s)

/-! ### The management port (R384-R386) -/

/-- Send a REPLY. -/
def reply (s : State) (tag status : Nat) (data : List Byte) : State :=
  nextTick { s with sent := s.sent ++ [.mgmt (replyBytes (Config.replyOffset s.tick).toNat tag status data)] }

/-- Doublewords of the window from an offset; none where one is reserved. -/
def windowRead (s : State) (off : Nat) : Nat → Option (List Byte)
  | 0 => some []
  | n + 1 =>
    match mgmtRead s off, windowRead s (off + 8) n with
    | some v, some l => some (leBytes 8 v.toNat ++ l)
    | _, _ => none

/-- Whole aligned doublewords of the window, no more than a frame holds (R384). -/
def wholeDwords (off len : Nat) : Bool := off % 8 == 0 && len % 8 == 0 && len ≤ 1024 && off + len ≤ 4096

/-- A write through the port is allowed (R385), a boot that a failed check stopped being before phase 0x04 still (DEDUCED, log
15); the WREN of any control core allows them (DESIGN CHOICE, log 15); in phase 0x00 the window accepts no staging write (spec/18_ras.md R426). -/
def portMayWrite (s : State) (off len : Nat) : Bool :=
  if 0x400 ≤ off && off + len ≤ 0x800 then true
  else if s.bootstat != 4#8 then s.bootstat != 0#8 || off + len ≤ 0x300
  else (agents s).any (fun a => match a.id with
    | .cc _ => a.cc.wren
    | .hart _ => false)

/-- Write doublewords of the window from an offset; none where one is refused RANGE. -/
def windowWrite (s : State) (off : Nat) : List Word → Option State
  | [] => some s
  | v :: l =>
    match mgmtWrite s off v with
    | some s' => windowWrite s' (off + 8) l
    | none => none

/-- The doublewords of some bytes. -/
def dwordsOf : Nat → List Byte → List Word
  | 0, _ => []
  | n + 1, bs => BitVec.ofNat 64 (leNat (bs.take 8)) :: dwordsOf n (bs.drop 8)

/-- MGMT_READ: A management READ frame reads window doublewords and replies. (R384) -/
def execMgmtRead (tag off len : Nat) (s : State) : Host.Outcome State Fault Refusal :=
  if !wholeDwords off len then .next (reply s tag 2 [])
  else match windowRead s off (len / 8) with
    | some data => .next (reply s tag 0 data)
    | none => .next (reply s tag 2 [])

/-- MGMT_WRITE: A management WRITE frame writes window doublewords when allowed. (R385); refused RANGE, it writes
nothing (DEDUCED, log 15) -/
def execMgmtWrite (tag off : Nat) (data : List Byte) (s : State) : Host.Outcome State Fault Refusal :=
  if !wholeDwords off data.length then .next (reply s tag 2 [])
  else if !portMayWrite s off data.length then .next (reply s tag 1 [])
  else match windowWrite s off (dwordsOf (data.length / 8) data) with
    | some s' => .next (reply s' tag 0 [])
    | none => .next (reply s tag 2 [])

/-! ### The SPDM responder (R383) -/

/-- The responder hears a request: through the port while no control core holds the mailbox, or as the message of the mailbox that
a control core holds (DEDUCED, log 11). -/
def spdmHeard (s : State) (req : SpdmReq) : Bool :=
  match req.via with
  | .port _ => s.mailbox.owner != 2#2
  | .mailbox =>
    let n := s.mailbox.length.toNat
    s.mailbox.owner == 2#2 && decide (n ≤ 0x3F0) && req.bytes == (List.range n).map (fun k => Memory.read s.mailbox.bytes k)

/-- Answer a request with a message: in a REPLY, or in the mailbox. -/
def spdmAnswer (s : State) (req : SpdmReq) (msg : List Byte) : State :=
  match req.via with
  | .port tag => reply s tag 0 msg
  | .mailbox =>
    { s with mailbox := { s.mailbox with
        length := BitVec.ofNat 64 msg.length
        bytes := msg.zipIdx.foldl (fun m p => Memory.write m p.2 p.1) s.mailbox.bytes } }

/-- A request gets its response. -/
def spdmRespond (s : State) (req : SpdmReq) : State :=
  let r := spdmResponse s req
  if spdmHeard s req then nextTick (spdmAnswer { s with spdm := r.1 } req r.2) else s

/-- A supported request of a code. -/
def spdmRequest (code : Nat) (req : SpdmReq) (s : State) : Host.Outcome State Fault Refusal :=
  if req.code = code then .next (spdmRespond s req) else .next s

/-- GET_VERSION: SPDM request answered by the responder. (R383) -/
def execGetVersion (req : SpdmReq) (s : State) : Host.Outcome State Fault Refusal :=
  spdmRequest 0x84 req s

/-- GET_CAPABILITIES: SPDM capability request. (R383) -/
def execGetCapabilities (req : SpdmReq) (s : State) : Host.Outcome State Fault Refusal :=
  spdmRequest 0xE1 req s

/-- NEGOTIATE_ALGORITHMS: SPDM algorithm negotiation. (R383) -/
def execNegotiateAlgorithms (req : SpdmReq) (s : State) : Host.Outcome State Fault Refusal :=
  spdmRequest 0xE3 req s

/-- GET_DIGESTS: SPDM digest request for slot 0. (R383) -/
def execGetDigests (req : SpdmReq) (s : State) : Host.Outcome State Fault Refusal :=
  spdmRequest 0x81 req s

/-- GET_CERTIFICATE: SPDM certificate chain request. (R383) -/
def execGetCertificate (req : SpdmReq) (s : State) : Host.Outcome State Fault Refusal :=
  spdmRequest 0x82 req s

/-- CHALLENGE: SPDM challenge signed with the device identity key. (R383) -/
def execChallenge (req : SpdmReq) (s : State) : Host.Outcome State Fault Refusal :=
  spdmRequest 0x83 req s

/-- GET_MEASUREMENTS: SPDM measurement request returning BMEAS and feature registers. (R383) -/
def execGetMeasurements (req : SpdmReq) (s : State) : Host.Outcome State Fault Refusal :=
  spdmRequest 0xE0 req s

/-- UNSUPPORTED_REQUEST: Any other SPDM request gets ERROR UnsupportedRequest. (R383); the message is that of SPDM
1.2 (PRESUMED, log 11) -/
def execUnsupportedRequest (req : SpdmReq) (s : State) : Host.Outcome State Fault Refusal :=
  if spdmCodes.contains req.code then .next s else .next (spdmRespond s req)

/-! ### Network ports (R345, R374) -/

/-- Slots of a ring. -/
def portSlots (log2 : BitVec 5) : Nat := 2 ^ log2.toNat
/-- The physical address of a ring's slot: RXBASE and TXBASE are physical addresses of any alignment and range, as R374 says no more of
them (DESIGN CHOICE, log 30). -/
def portSlot (base : Word) (log2 : BitVec 5) (n : Nat) : Nat := base.toNat + 64 + 16384 * (n % portSlots log2)
/-- A byte of physical memory; zero outside HBM4E (log 30). -/
def physByte (s : State) (pa : Nat) : Byte := if pa < hbmEnd then Memory.read s.mem pa else 0#8
/-- A doubleword of physical memory. -/
def phys64 (s : State) (pa : Nat) : Nat := if pa + 8 ≤ hbmEnd then Memory.readLE s.mem pa 8 else 0
/-- Write bytes to physical memory. -/
def writeBytes (s : State) (pa : Nat) (bs : List Byte) : State :=
  bs.zipIdx.foldl (fun s p => writePhys s (pa + p.2) 1 p.1.toNat) s
/-- PORT_RECEIVE: A non-collective frame is written to the port's receive ring. (R374); `frame` is without its FCS,
so of 60 to 9,212 bytes; a frame of another length is dropped and counted (DEDUCED, log 30), and PAUSE frames, which
have EtherType 0x8808, are ignored (R345) -/
def execPortReceive (port : Fin 16) (frame : List Byte) (s : State) : Host.Outcome State Fault Refusal :=
  let p := portOf s port.val
  let base := p.rxbase
  let widx := phys64 s base.toNat
  if etherType frame = 0x88B5 ∨ etherType frame = 0x8808 then .next s
  else if frame.length < 60 ∨ 9212 < frame.length ∨ p.rxlog2 = 0#5 ∨
      portSlots p.rxlog2 ≤ (widx + 2 ^ 64 - phys64 s (base.toNat + 8)) % 2 ^ 64 then .next (dropFrame s port.val)
  else
    let slot := portSlot base p.rxlog2 widx
    let s := writeBytes (writePhys s slot 8 frame.length) (slot + 8) frame
    .next (writePhys s base.toNat 8 (widx + 1))

/-- PORT_TRANSMIT: The port sends frames from its transmit ring and advances RIDX. (R374); one frame, or one slot
skipped and counted, at a time. The tag and the FCS come on top of the length that R374 bounds. -/
def execPortTransmit (port : Fin 16) (s : State) : Host.Outcome State Fault Refusal :=
  let p := portOf s port.val
  let base := p.txbase
  let ridx := phys64 s (base.toNat + 8)
  if p.txlog2 = 0#5 ∨ phys64 s base.toNat = ridx ∨ portHeld p then .next s
  else
    let slot := portSlot base p.txlog2 ridx
    let n := phys64 s slot
    let s' := if n < 14 ∨ 9216 < n then dropFrame s port.val
      else { s with sent := s.sent ++ [.frame port.val (onWire p ((List.range n).map (fun k => physByte s (slot + 8 + k))))] }
    .next (writePhys s' (base.toNat + 8) 8 (ridx + 1))

/-- PRIORITY_FLOW_CONTROL: A received IEEE 802.1Qbb priority flow control frame pauses or resumes transmission on the
port's chosen priority. (R345) -/
def execPriorityFlowControl (port : Fin 16) (prio : Fin 8) (pause : Bool) (s : State) : Host.Outcome State Fault Refusal :=
  let p := portOf s port.val
  if p.prio.toNat ≠ prio.val then .next s
  else
    let s := putPort s port.val { p with paused := pause }
    .next (if portHeld (portOf s port.val) then s else releasePort s port.val)

/-! ### Soft errors (R416-R420) -/

/-- The hart of a core whose saved vector state lies in a row of its tile memory (spec/17_traps.md R405). -/
def savedIn (s : State) (core row : Nat) : Option Agent :=
  (agents s).find? (fun a => match a.id with
    | .hart h => hartCore h == core && a.saveRows.contains row
    | .cc _ => false)
/-- The tenancy of the task that holds a row of a core's tile memory, or whose hart's state is saved there. -/
def rowOwner (s : State) (core row : Nat) : BitVec 6 :=
  match s.entries.find? (fun e => !e.state.final && 40 * e.die.val ≤ core && (gangOf e (core - 40 * e.die.val)).any (fun g =>
    g.row ≤ row && row < g.row + g.rows)) with
  | some e => e.ten
  | none => (savedIn s core row).elim 0#6 (fun a => a.ten)
/-- The hart context of a core's SDM slot, if it exists. -/
def slotHart (core slot : Nat) : HartId := { die := Fin.ofNat 8 (core / 40), core := Fin.ofNat 40 (core % 40), ctx := Fin.ofNat 32 slot }

/-- The hart a unit belongs to. -/
def errHart : ErrUnit → Option HartId
  | .gReg h _ | .vGranule h _ _ | .mask h _ | .accRow h _ _ _ | .chainStore h | .laneArith h _ | .strip h | .codeStore h => some h
  | _ => none
/-- A chain on a core holds a link port in a direction (spec/13_chains.md R283, LINK). -/
def holdsPort (a : Agent) (core dir : Nat) : Bool :=
  match a.id, a.vec.chain with
  | .hart h, some ch => hartCore h == core && ch.nodes.any (fun n => linkPort n == some (2 * dir) || linkPort n == some (2 * dir + 1))
  | _, _ => false
/-- The hart whose chain holds a link at one of its two ends: that of the core itself before its neighbour's (log 29). -/
def linkHolder (s : State) (core dir : Nat) : Option Agent :=
  ((agents s).find? (fun a => holdsPort a core dir)).or
    ((agents s).find? (fun a => (neighbour core dir).any (fun m => holdsPort a m (opposite dir))))
/-- Whose record it is: the tenancy that owns the data or task, else tenancy 0 (R420). -/
def errOwner (s : State) (u : ErrUnit) : BitVec 6 :=
  match u with
  | .hbmLine line | .hbmChannel line => Config.frameOwner (line / 1024) s.tick
  | .tileLine core line => rowOwner s core (line / 128)
  | .sdmLine core line => (hartOf s (slotHart core (line / 256))).ten
  | .queueSlot q _ => queueTen s q.val
  | .link core dir => (linkHolder s core dir.val).elim 0#6 (fun a => a.ten)
  | u => (errHart u).elim 0#6 (fun h => (hartOf s h).ten)
/-- STRUCT of its record (R420): an instruction store or cache is counted with queue and kiln storage, as a store of the machine's
own (DEDUCED, log 29). -/
def errStruct : ErrUnit → Nat
  | .hbmLine _ | .hbmChannel _ => 0
  | .tileLine _ _ => 1
  | .sdmLine _ _ => 2
  | .gReg _ _ | .ccReg _ _ | .vGranule _ _ _ | .mask _ _ => 3
  | .accRow _ _ _ _ => 4
  | .queueSlot _ _ | .chainStore _ | .codeStore _ | .ccStore _ | .engineStore _ _ | .kilnStore _ | .kilnMemory _ => 5
  | .link _ _ => 6
  | .laneArith _ _ | .strip _ => 7
/-- The core's number of a relative lane of a hart (spec/14_harts_kiln.md R311). -/
def coreLane (s : State) (h : HartId) (lane : Nat) : Nat := (hartOf s h).first.toNat + lane
/-- The relative lane that holds a granule (spec/04_formats.md R100). -/
def granuleLane (s : State) (h : HartId) (g : Nat) : Nat := g % max 1 (hartOf s h).lanes.toNat
/-- Word 1 of its record: a physical address, or a bank, lane or link number (R420). -/
def errWhere (s : State) : ErrUnit → Word
  | .hbmLine line | .hbmChannel line => BitVec.ofNat 64 (64 * line)
  | .tileLine _ line => BitVec.ofNat 64 (line % 128)
  | .vGranule h _ g => BitVec.ofNat 64 (coreLane s h (granuleLane s h g))
  | .accRow h _ _ lane => BitVec.ofNat 64 (coreLane s h lane)
  | .laneArith h lane => BitVec.ofNat 64 (coreLane s h lane)
  | .link _ dir => BitVec.ofNat 64 dir.val
  | _ => Config.unstatedWord s.tick
/-- Word 2 of its record: the hart, or the core and die of the unit (spec/16_isolation.md R375). -/
def errWho (s : State) (u : ErrUnit) : Word :=
  match errHart u, u with
  | some h, _ => recordWho h 0 (hartOf s h).asid.toNat
  | none, .tileLine core _ | none, .sdmLine core _ | none, .link core _ => recordPlace core 0
  | none, .queueSlot q _ => recordPlace (40 * (queueOf s q.val).die.toNat) 6
  | none, .kilnMemory die | none, .kilnStore die => recordPlace (40 * die.val) 6
  | none, .engineStore die n => recordPlace (40 * die.val) (2 + n.val)
  | none, _ => 0#64
/-- Post a record of a kind for a unit (R420). -/
def errRecord (s : State) (u : ErrUnit) (kind : Nat) : State :=
  postNote s (errOwner s u) kind 0 (errStruct u) (errWhere s u) (errWho s u)
    (recordEntry ((errHart u).bind (fun h => (hartOf s h).task))) none

/-- The unit exists. -/
def errValid (s : State) : ErrUnit → Bool
  | .hbmLine line | .hbmChannel line => decide (64 * line + 64 ≤ hbmEnd)
  | .tileLine core line => decide (core < 320) && decide (line < 786432)
  | .sdmLine core line => decide (core < 320) && decide (line < 8192)
  | .gReg _ r | .ccReg _ r => r != 0
  | .vGranule _ _ g => decide (g < 1024)
  | .mask _ m => m != 0
  | .accRow _ _ _ lane => decide (lane < 128)
  | .queueSlot q slot => decide (slot < (queueOf s q.val).slots.length)
  | .link core _ => decide (core < 320)
  | _ => true

/-- The data of the unit is poisoned, where it cannot be recovered (R417, R418): what a line of HBM4E then holds has no stated
value (log 12). A line of save rows takes the saved state that lies in it; a line that holds none yet is poisoned as storage, and
what is saved there meets it (R419; log 42). -/
def poisonUnit (s : State) : ErrUnit → Option State
  | .hbmLine line | .hbmChannel line => some (addPoison { s with mem := (List.range 64).foldl (fun m k =>
      Memory.write m (64 * line + k) (Config.lostByte (64 * s.tick + k))) s.mem } line)
  | .tileLine core line => some (match savedIn s core (line / 128) with
    | some a => if a.inRows || a.reclaimed then putAgent s (poisonAgent a (savedUnit core line)) else addPoison s (tileKey core / 64 + line)
    | none => addPoison s (tileKey core / 64 + line))
  | .sdmLine core line => some (addPoison s (sdmKey core / 64 + line))
  | .gReg h r => some (putAgent s (poisonAgent (hartOf s h) (.g r.val)))
  | .ccReg n r => some (putAgent s (poisonAgent (agentOf s (.cc n)) (.g r.val)))
  | .vGranule h v g => some (putAgent s (poisonAgent (hartOf s h) (.v v.val g)))
  | .mask h m => some (putAgent s (poisonAgent (hartOf s h) (.m m.val)))
  | .accRow h tile row lane => some (putAgent s (poisonAgent (hartOf s h) (.acc (8 * tile.val + row.val) lane)))
  | .queueSlot q slot =>
    let v := queueOf s q.val
    some (putQueue s q.val { v with slots := v.slots.zipIdx.map (fun p => if p.2 = slot then { p.1 with lost := true } else p.1) })
  | _ => none

/-- A run in progress breaks (spec/13_chains.md R304). -/
def breakHart (s : State) (h : HartId) : State :=
  let a := hartOf s h
  if a.vec.rRun then putAgent s { a with vec := freezeRun a.vec } else s

/-- The unit of R423 that a lasting error in a unit fences: the lane or bank, the core, the row or channel of HBM4E, or the wire group; none for
the storage of a kiln or a control core, which R423 gives no spare. -/
def fencedUnit (s : State) : ErrUnit → Option SpareUnit
  | .hbmLine line => some (.hbmRow line)
  | .hbmChannel line => some (.hbmChannel line)
  | .tileLine core line => some (.lane core (line % 128 / 32) (line % 32))
  | .sdmLine core _ => some (.core core)
  | .vGranule h _ g =>
    let l := coreLane s h (granuleLane s h g)
    some (.lane (hartCore h) (l / 32 % 4) (l % 32))
  | .accRow h _ _ lane | .laneArith h lane =>
    let l := coreLane s h lane
    some (.lane (hartCore h) (l / 32 % 4) (l % 32))
  | .gReg h _ | .mask h _ | .chainStore h | .strip h | .codeStore h => some (.core (hartCore h))
  | .link core dir => some (.linkGroup core dir)
  | _ => none

/-- Fence the unit of a lasting error until a spare is put into service (R417, R423). -/
def fence (s : State) (u : ErrUnit) : State :=
  match fencedUnit s u with
  | some x => if s.fenced.contains x then s else { s with fenced := s.fenced ++ [x] }
  | none => s

/-- What detecting an error does before the second attempt (R416): a strip is discarded and run again, and a copy of an
instruction store or cache is discarded, to be fetched again. -/
def errDiscard (s : State) : ErrUnit → State
  | .strip h => breakHart s h
  | .codeStore h =>
    { s with istore := s.istore.filter (fun c => c.agent != .hart h)
             tlb := s.tlb.filter (fun t => t.unit != .scalar (.hart h) && t.unit != .vector h && t.unit != .ports h) }
  | .ccStore n =>
    { s with istore := s.istore.filter (fun c => c.agent != .cc n), tlb := s.tlb.filter (fun t => t.unit != .scalar (.cc n)) }
  | .engineStore die n => { s with tlb := s.tlb.filter (fun t => t.unit != .engine die n.val) }
  | .kilnStore die => { s with tlb := s.tlb.filter (fun t => t.unit != .kiln die) }
  | _ => s

/-- What a second failure leaves of a chain's configuration store (R417): damaged, until it is restored. -/
def errDamage (s : State) : ErrUnit → State
  | .chainStore h => let a := hartOf s h; putAgent s { a with vec := { a.vec with chain := a.vec.chain.map (fun c => { c with damaged := true }) } }
  | _ => s

/-- UNCORRECTABLE_ERROR: An uncorrectable error is retried once and classed transient or lasting. (R417); a lasting one fences its
unit (R423) -/
def execUncorrectableError (u : ErrUnit) (secondOk : Bool) (s : State) : Host.Outcome State Fault Refusal :=
  if !errValid s u then .next s
  else
    let s' := errDiscard s u
    if secondOk then .next (nextTick (errRecord s' u 8))
    else
      let f := fence (errDamage s' u) u
      match poisonUnit f u with
      | some t => .next (nextTick (errRecord (errRecord t u 9) u 10))
      | none => .next (nextTick (errRecord f u 9))

/-- The copy of the validated block in a reserve is poisoned (R288, R417): its header, node words and `stop` word. They are taken
to lie at the start of the last 4,096 bytes of the reserve (DESIGN CHOICE, log 29). -/
def copyPoisoned (s : State) (h : HartId) (ch : Chain) : Bool :=
  let k := tileKey (hartCore h) + (ch.rowLo + ch.rows) * 8192 - 4096
  (List.range ((8 * (ch.words.length + 2) + 63) / 64)).any (fun j => isPoisoned s (k + 64 * j))

/-- CONFIG_RESTORE: At the next strip boundary a damaged chain configuration is restored from the reserve. (R417); the run breaks
there, and when the copy is poisoned it fails -/
def execConfigRestore (h : HartId) (s : State) : Host.Outcome State Fault Refusal :=
  let a := hartOf s h
  match a.vec.chain with
  | none => .next s
  | some ch =>
    if ch.damaged = false then .next s
    else if copyPoisoned s h ch then
      (if a.vec.rRun then .next (nextTick (putAgent s { a with vec := failRun a.vec { cause := cPoison, xval := Config.unstatedWord s.tick } })) else .next s)
    else .next (breakHart (putAgent s { a with vec := { a.vec with chain := some { ch with damaged := false } } }) h)

/-! ### Repair (R423, R424) -/

/-- Where `spares` counts the spares used: of a sheaf, and of a die's cores. -/
def sheafKey (core sheaf : Nat) : Nat := 4 * core + sheaf
/-- The key of a die's spare cores. -/
def dieKey (core : Nat) : Nat := 1280 + core / 40
/-- The spares used under a key. -/
def sparesUsed (s : State) (k : Nat) : Nat := tget 0 k s.spares
/-- Use one more spare. -/
def useSpare (s : State) (k : Nat) : State := { s with spares := tset k (sparesUsed s k + 1) s.spares }
/-- The entries of the tasks that hold a core. -/
def entriesOn (s : State) (core : Nat) : List Entry :=
  s.entries.filter (fun e => !e.state.final && 40 * e.die.val ≤ core && (gangOf e (core - 40 * e.die.val)).isSome)
/-- The tasks that hold a core. -/
def tasksOn (s : State) (core : Nat) : List EntryId := (entriesOn s core).map (fun e => e.id)
/-- The one tenancy of the tasks that hold a core, or tenancy 0: R420 does not say which where they belong to several (DESIGN CHOICE,
log 29). -/
def coreOwner (s : State) (core : Nat) : BitVec 6 :=
  match (entriesOn s core).map (fun e => e.ten) with
  | t :: l => if l.all (fun x => x == t) then t else 0#6
  | [] => 0#6
/-- The tenancy of the hart whose block in force holds a lane of a core, or else of the core's tasks. -/
def laneHolder (s : State) (core lane : Nat) : BitVec 6 :=
  match (agents s).find? (fun a => match a.id with
      | .hart h => hartCore h == core && a.task.isSome && decide (a.first.toNat ≤ lane ∧ lane < a.first.toNat + a.lanes.toNat)
      | .cc _ => false) with
  | some a => a.ten
  | none => coreOwner s core
/-- Whose record a repair of a unit makes (R420). -/
def repairOwner (s : State) : SpareUnit → BitVec 6
  | .lane core sheaf lane => laneHolder s core (32 * sheaf + lane)
  | .core core => coreOwner s core
  | .hbmRow line => errOwner s (.hbmLine line)
  | .hbmChannel line => errOwner s (.hbmChannel line)
  | .linkGroup core dir => errOwner s (.link core dir)
/-- A record of a repair, a core retired or a change of clock step, to the tenancy that owns the affected data or task (R420). -/
def repairRecord (s : State) (ten : BitVec 6) (kind struct_ : Nat) (at_ who : Word) : State :=
  nextTick (postNote s ten kind 0 struct_ at_ who 0#64 none)
/-- The record of a core replaced or retired: word 2 tells its number (R18), word 1 has no stated value. -/
def coreRecord (s : State) (ten : BitVec 6) (kind core : Nat) : State :=
  repairRecord s ten kind (Config.unstatedStruct s.tick) (Config.unstatedWord s.tick) (recordPlace core 0)
/-- A hart of a pre-empted task stops, its run frozen at its last commit (spec/14_harts_kiln.md R334). -/
def stopHart (s : State) (h : HartId) : State :=
  let a := hartOf s h
  putAgent s { a with stopped := true, vec := freezeRun a.vec }
/-- The tasks that hold a core are pre-empted and their harts stop (R18, R424): the core's state then goes to the spare as it
stands, and they resume on the same numbers. -/
def drainCore (s : State) (core : Nat) : State :=
  (tasksOn s core).foldl (fun s e =>
    let s := preemptTask s e
    (hartIds (liveHarts s e)).foldl stopHart s) s

/-- Whether a unit lies in a core and goes out with it (R18): the core and its lanes, and no wire group of the mesh. -/
def inCore (core : Nat) : SpareUnit → Bool
  | .lane c _ _ | .core c => c == core
  | .hbmRow _ | .hbmChannel _ | .linkGroup _ _ => false
/-- No unit of a core that left service is fenced: nothing failed in the core that serves its number from then on (R18, R423). -/
def unfenceCore (s : State) (core : Nat) : State := { s with fenced := s.fenced.filter (fun x => !inCore core x) }

/-- A core goes out of service (R18, R423): the tasks that hold it are pre-empted, and nothing is dispatched to it again. -/
def retireCore (s : State) (core : Nat) : State :=
  let t := unfenceCore (drainCore s core) core
  coreRecord { t with coresOut := insertNat core t.coresOut } (coreOwner s core) 14 core

/-- A core is replaced by a spare core of its die, whose sheaves have their own spare lanes, or retired. -/
def replaceCore (s : State) (core : Nat) : State :=
  if s.coresOut.contains core then s
  else if sparesUsed s (dieKey core) < 2 then
    let t := unfenceCore (useSpare (drainCore s core) (dieKey core)) core
    coreRecord { t with spares := t.spares.filter (fun p => p.1 / 4 != core || 1280 ≤ p.1) } (coreOwner s core) 13 core
  else retireCore s core

/-- A line of HBM4E is poisoned, with a POISONED record unless it was (R420). -/
def poisonLine (s : State) (line : Nat) : State :=
  if hbmEnd < 64 * line + 64 ∨ isPoisoned s (64 * line) then s
  else nextTick (errRecord (addPoison s line) (.hbmLine line) 10)

/-- A line of HBM4E and those that share its row or channel are poisoned (R423). -/
def poisonLines (s : State) (kind line : Nat) : State := (Config.hbmLines kind line).foldl poisonLine (poisonLine s line)

/-- The first action of R423 that a spare allows; none for a lane of a core that is out of service. -/
def repairUnit (s : State) : SpareUnit → State
  | .lane core sheaf lane =>
    if 320 ≤ core ∨ 4 ≤ sheaf ∨ s.coresOut.contains core then s
    else if sparesUsed s (sheafKey core sheaf) = 0 then
      repairRecord (useSpare (drainCore s core) (sheafKey core sheaf)) (repairOwner s (.lane core sheaf lane)) 13 7 (BitVec.ofNat 64 (32 * sheaf + lane)) (recordPlace core 0)
    else replaceCore s core
  | .core core => if 320 ≤ core then s else replaceCore s core
  | .hbmRow line =>
    if Config.spareLeft s.tick || Config.spareLeft (s.tick + 1) then
      nextTick (repairRecord s (repairOwner s (.hbmRow line)) 13 0 (BitVec.ofNat 64 (64 * line)) 0#64)
    else nextTick (nextTick (poisonLines s 0 line))
  | .hbmChannel line =>
    if Config.spareLeft s.tick then repairRecord s (repairOwner s (.hbmChannel line)) 13 0 (BitVec.ofNat 64 (64 * line)) 0#64
    else nextTick (poisonLines s 1 line)
  | .linkGroup core dir =>
    if Config.spareLeft s.tick then
      repairRecord s (repairOwner s (.linkGroup core dir)) 13 6 (BitVec.ofNat 64 dir.val) (recordPlace core 0)
    else nextTick s

/-- REPAIR: A spare is put into service after its state is copied. (R424); for a unit that a lasting error has fenced (R423) -/
def execRepair (u : SpareUnit) (s : State) : Host.Outcome State Fault Refusal :=
  if s.fenced.contains u then .next (repairUnit { s with fenced := s.fenced.filter (fun x => x != u) } u) else .next s

/-! ### Power and temperature (R427) -/

/-- The arithmetic clock's step after a sample, in steps of 58.75 MHz below 940 MHz, 470 MHz at most below (log 9). -/
def stepAfter (step milliwatts decidegrees : Nat) : Nat :=
  let p := if 2800000 < milliwatts then step + 1 else if 1050 < decidegrees then step else step - 1
  min 8 (if 1050 < decidegrees then p + 1 else p)

/-- POWER_SAMPLE: Every 1 ms package power and temperature set the arithmetic clock step. (R427); above 115 °C the
package is reset -/
def execPowerSample (milliwatts decidegrees : Nat) (s : State) : Host.Outcome State Fault Refusal :=
  if 1150 < decidegrees then .next (resetPackage s)
  else
    let n := stepAfter s.clockStep milliwatts decidegrees
    if n = s.clockStep then .next s
    else .next (repairRecord { s with clockStep := n } 0#6 15 (Config.unstatedStruct s.tick) (Config.unstatedWord s.tick) 0#64)


end Machine
end Sys2Proof
end

