-- ==== Sys2Proof/Machine/Dispatch.lean ====
section
/-! DEFINITION. One arm for every row of spec/opcode_table.json. -/

namespace Sys2Proof
namespace Machine

/-- The meaning of an instruction, or of a step of the table, at a state. -/
def exec (i : Instr) (s : State) : Host.Outcome State Fault Refusal :=
  match i with
  | .add rd rs1 rs2 => Sys2Proof.Machine.execAdd rd rs1 rs2 s
  | .sub rd rs1 rs2 => Sys2Proof.Machine.execSub rd rs1 rs2 s
  | .and rd rs1 rs2 => Sys2Proof.Machine.execAnd rd rs1 rs2 s
  | .andn rd rs1 rs2 => Sys2Proof.Machine.execAndn rd rs1 rs2 s
  | .or rd rs1 rs2 => Sys2Proof.Machine.execOr rd rs1 rs2 s
  | .orn rd rs1 rs2 => Sys2Proof.Machine.execOrn rd rs1 rs2 s
  | .xor rd rs1 rs2 => Sys2Proof.Machine.execXor rd rs1 rs2 s
  | .xnor rd rs1 rs2 => Sys2Proof.Machine.execXnor rd rs1 rs2 s
  | .sll rd rs1 rs2 => Sys2Proof.Machine.execSll rd rs1 rs2 s
  | .srl rd rs1 rs2 => Sys2Proof.Machine.execSrl rd rs1 rs2 s
  | .sra rd rs1 rs2 => Sys2Proof.Machine.execSra rd rs1 rs2 s
  | .rol rd rs1 rs2 => Sys2Proof.Machine.execRol rd rs1 rs2 s
  | .ror rd rs1 rs2 => Sys2Proof.Machine.execRor rd rs1 rs2 s
  | .min rd rs1 rs2 => Sys2Proof.Machine.execMin rd rs1 rs2 s
  | .max rd rs1 rs2 => Sys2Proof.Machine.execMax rd rs1 rs2 s
  | .minn rd rs1 rs2 => Sys2Proof.Machine.execMinn rd rs1 rs2 s
  | .maxn rd rs1 rs2 => Sys2Proof.Machine.execMaxn rd rs1 rs2 s
  | .cmplt rd rs1 rs2 => Sys2Proof.Machine.execCmplt rd rs1 rs2 s
  | .cmpltn rd rs1 rs2 => Sys2Proof.Machine.execCmpltn rd rs1 rs2 s
  | .cmpeq rd rs1 rs2 => Sys2Proof.Machine.execCmpeq rd rs1 rs2 s
  | .addI32 rd rs1 rs2 => Sys2Proof.Machine.execAddI32 rd rs1 rs2 s
  | .subI32 rd rs1 rs2 => Sys2Proof.Machine.execSubI32 rd rs1 rs2 s
  | .sllI32 rd rs1 rs2 => Sys2Proof.Machine.execSllI32 rd rs1 rs2 s
  | .srlI32 rd rs1 rs2 => Sys2Proof.Machine.execSrlI32 rd rs1 rs2 s
  | .sraI32 rd rs1 rs2 => Sys2Proof.Machine.execSraI32 rd rs1 rs2 s
  | .rolI32 rd rs1 rs2 => Sys2Proof.Machine.execRolI32 rd rs1 rs2 s
  | .rorI32 rd rs1 rs2 => Sys2Proof.Machine.execRorI32 rd rs1 rs2 s
  | .mul rd rs1 rs2 => Sys2Proof.Machine.execMul rd rs1 rs2 s
  | .mulh rd rs1 rs2 => Sys2Proof.Machine.execMulh rd rs1 rs2 s
  | .mulhu rd rs1 rs2 => Sys2Proof.Machine.execMulhu rd rs1 rs2 s
  | .mulhsu rd rs1 rs2 => Sys2Proof.Machine.execMulhsu rd rs1 rs2 s
  | .mulI32 rd rs1 rs2 => Sys2Proof.Machine.execMulI32 rd rs1 rs2 s
  | .div rd rs1 rs2 => Sys2Proof.Machine.execDiv rd rs1 rs2 s
  | .divu rd rs1 rs2 => Sys2Proof.Machine.execDivu rd rs1 rs2 s
  | .rem rd rs1 rs2 => Sys2Proof.Machine.execRem rd rs1 rs2 s
  | .remu rd rs1 rs2 => Sys2Proof.Machine.execRemu rd rs1 rs2 s
  | .divI32 rd rs1 rs2 => Sys2Proof.Machine.execDivI32 rd rs1 rs2 s
  | .divuI32 rd rs1 rs2 => Sys2Proof.Machine.execDivuI32 rd rs1 rs2 s
  | .remI32 rd rs1 rs2 => Sys2Proof.Machine.execRemI32 rd rs1 rs2 s
  | .remuI32 rd rs1 rs2 => Sys2Proof.Machine.execRemuI32 rd rs1 rs2 s
  | .addi rd rs1 imm => Sys2Proof.Machine.execAddi rd rs1 imm s
  | .andi rd rs1 imm => Sys2Proof.Machine.execAndi rd rs1 imm s
  | .ori rd rs1 imm => Sys2Proof.Machine.execOri rd rs1 imm s
  | .xori rd rs1 imm => Sys2Proof.Machine.execXori rd rs1 imm s
  | .cmplti rd rs1 imm => Sys2Proof.Machine.execCmplti rd rs1 imm s
  | .cmpltni rd rs1 imm => Sys2Proof.Machine.execCmpltni rd rs1 imm s
  | .addiI32 rd rs1 imm => Sys2Proof.Machine.execAddiI32 rd rs1 imm s
  | .slli rd rs1 sh => Sys2Proof.Machine.execSlli rd rs1 sh s
  | .srli rd rs1 sh => Sys2Proof.Machine.execSrli rd rs1 sh s
  | .srai rd rs1 sh => Sys2Proof.Machine.execSrai rd rs1 sh s
  | .rori rd rs1 sh => Sys2Proof.Machine.execRori rd rs1 sh s
  | .slliI32 rd rs1 sh => Sys2Proof.Machine.execSlliI32 rd rs1 sh s
  | .srliI32 rd rs1 sh => Sys2Proof.Machine.execSrliI32 rd rs1 sh s
  | .sraiI32 rd rs1 sh => Sys2Proof.Machine.execSraiI32 rd rs1 sh s
  | .lui rd imm => Sys2Proof.Machine.execLui rd imm s
  | .lhi rd imm => Sys2Proof.Machine.execLhi rd imm s
  | .auipc rd imm => Sys2Proof.Machine.execAuipc rd imm s
  | .lb rd rs1 imm => Sys2Proof.Machine.execLb rd rs1 imm s
  | .lbu rd rs1 imm => Sys2Proof.Machine.execLbu rd rs1 imm s
  | .lh rd rs1 imm => Sys2Proof.Machine.execLh rd rs1 imm s
  | .lhu rd rs1 imm => Sys2Proof.Machine.execLhu rd rs1 imm s
  | .lw rd rs1 imm => Sys2Proof.Machine.execLw rd rs1 imm s
  | .lwu rd rs1 imm => Sys2Proof.Machine.execLwu rd rs1 imm s
  | .ld rd rs1 imm => Sys2Proof.Machine.execLd rd rs1 imm s
  | .sb rs2 rs1 imm => Sys2Proof.Machine.execSb rs2 rs1 imm s
  | .sh rs2 rs1 imm => Sys2Proof.Machine.execSh rs2 rs1 imm s
  | .sw rs2 rs1 imm => Sys2Proof.Machine.execSw rs2 rs1 imm s
  | .sd rs2 rs1 imm => Sys2Proof.Machine.execSd rs2 rs1 imm s
  | .clz rd rs1 => Sys2Proof.Machine.execClz rd rs1 s
  | .ctz rd rs1 => Sys2Proof.Machine.execCtz rd rs1 s
  | .popc rd rs1 => Sys2Proof.Machine.execPopc rd rs1 s
  | .clzw rd rs1 => Sys2Proof.Machine.execClzw rd rs1 s
  | .ctzw rd rs1 => Sys2Proof.Machine.execCtzw rd rs1 s
  | .popcw rd rs1 => Sys2Proof.Machine.execPopcw rd rs1 s
  | .rev8 rd rs1 => Sys2Proof.Machine.execRev8 rd rs1 s
  | .brev rd rs1 => Sys2Proof.Machine.execBrev rd rs1 s
  | .sextb rd rs1 => Sys2Proof.Machine.execSextb rd rs1 s
  | .sexth rd rs1 => Sys2Proof.Machine.execSexth rd rs1 s
  | .sextw rd rs1 => Sys2Proof.Machine.execSextw rd rs1 s
  | .zextb rd rs1 => Sys2Proof.Machine.execZextb rd rs1 s
  | .zexth rd rs1 => Sys2Proof.Machine.execZexth rd rs1 s
  | .zextw rd rs1 => Sys2Proof.Machine.execZextw rd rs1 s
  | .faddF32 rd rs1 rs2 rm => Sys2Proof.Machine.execFaddF32 rd rs1 rs2 rm s
  | .fsubF32 rd rs1 rs2 rm => Sys2Proof.Machine.execFsubF32 rd rs1 rs2 rm s
  | .fmulF32 rd rs1 rs2 rm => Sys2Proof.Machine.execFmulF32 rd rs1 rs2 rm s
  | .fdivF32 rd rs1 rs2 rm => Sys2Proof.Machine.execFdivF32 rd rs1 rs2 rm s
  | .fsqrtF32 rd rs1 rm => Sys2Proof.Machine.execFsqrtF32 rd rs1 rm s
  | .fminF32 rd rs1 rs2 => Sys2Proof.Machine.execFminF32 rd rs1 rs2 s
  | .fmaxF32 rd rs1 rs2 => Sys2Proof.Machine.execFmaxF32 rd rs1 rs2 s
  | .fsgnjF32 rd rs1 rs2 => Sys2Proof.Machine.execFsgnjF32 rd rs1 rs2 s
  | .fsgnjnF32 rd rs1 rs2 => Sys2Proof.Machine.execFsgnjnF32 rd rs1 rs2 s
  | .fsgnjxF32 rd rs1 rs2 => Sys2Proof.Machine.execFsgnjxF32 rd rs1 rs2 s
  | .feqF32 rd rs1 rs2 => Sys2Proof.Machine.execFeqF32 rd rs1 rs2 s
  | .fltF32 rd rs1 rs2 => Sys2Proof.Machine.execFltF32 rd rs1 rs2 s
  | .fleF32 rd rs1 rs2 => Sys2Proof.Machine.execFleF32 rd rs1 rs2 s
  | .fclassF32 rd rs1 => Sys2Proof.Machine.execFclassF32 rd rs1 s
  | .faddF64 rd rs1 rs2 rm => Sys2Proof.Machine.execFaddF64 rd rs1 rs2 rm s
  | .fsubF64 rd rs1 rs2 rm => Sys2Proof.Machine.execFsubF64 rd rs1 rs2 rm s
  | .fmulF64 rd rs1 rs2 rm => Sys2Proof.Machine.execFmulF64 rd rs1 rs2 rm s
  | .fdivF64 rd rs1 rs2 rm => Sys2Proof.Machine.execFdivF64 rd rs1 rs2 rm s
  | .fsqrtF64 rd rs1 rm => Sys2Proof.Machine.execFsqrtF64 rd rs1 rm s
  | .fminF64 rd rs1 rs2 => Sys2Proof.Machine.execFminF64 rd rs1 rs2 s
  | .fmaxF64 rd rs1 rs2 => Sys2Proof.Machine.execFmaxF64 rd rs1 rs2 s
  | .fsgnjF64 rd rs1 rs2 => Sys2Proof.Machine.execFsgnjF64 rd rs1 rs2 s
  | .fsgnjnF64 rd rs1 rs2 => Sys2Proof.Machine.execFsgnjnF64 rd rs1 rs2 s
  | .fsgnjxF64 rd rs1 rs2 => Sys2Proof.Machine.execFsgnjxF64 rd rs1 rs2 s
  | .feqF64 rd rs1 rs2 => Sys2Proof.Machine.execFeqF64 rd rs1 rs2 s
  | .fltF64 rd rs1 rs2 => Sys2Proof.Machine.execFltF64 rd rs1 rs2 s
  | .fleF64 rd rs1 rs2 => Sys2Proof.Machine.execFleF64 rd rs1 rs2 s
  | .fclassF64 rd rs1 => Sys2Proof.Machine.execFclassF64 rd rs1 s
  | .fmadd rd rs1 rs2 rs3 rm ty => Sys2Proof.Machine.execFmadd rd rs1 rs2 rs3 rm ty s
  | .fmsub rd rs1 rs2 rs3 rm ty => Sys2Proof.Machine.execFmsub rd rs1 rs2 rs3 rm ty s
  | .fnmadd rd rs1 rs2 rs3 rm ty => Sys2Proof.Machine.execFnmadd rd rs1 rs2 rs3 rm ty s
  | .fnmsub rd rs1 rs2 rs3 rm ty => Sys2Proof.Machine.execFnmsub rd rs1 rs2 rs3 rm ty s
  | .fcvtF32I32 rd rs1 rm => Sys2Proof.Machine.execFcvtF32I32 rd rs1 rm s
  | .fcvtF32N32 rd rs1 rm => Sys2Proof.Machine.execFcvtF32N32 rd rs1 rm s
  | .fcvtF32I64 rd rs1 rm => Sys2Proof.Machine.execFcvtF32I64 rd rs1 rm s
  | .fcvtF32N64 rd rs1 rm => Sys2Proof.Machine.execFcvtF32N64 rd rs1 rm s
  | .fcvtF64I32 rd rs1 rm => Sys2Proof.Machine.execFcvtF64I32 rd rs1 rm s
  | .fcvtF64N32 rd rs1 rm => Sys2Proof.Machine.execFcvtF64N32 rd rs1 rm s
  | .fcvtF64I64 rd rs1 rm => Sys2Proof.Machine.execFcvtF64I64 rd rs1 rm s
  | .fcvtF64N64 rd rs1 rm => Sys2Proof.Machine.execFcvtF64N64 rd rs1 rm s
  | .fcvtI32F32 rd rs1 rm => Sys2Proof.Machine.execFcvtI32F32 rd rs1 rm s
  | .fcvtN32F32 rd rs1 rm => Sys2Proof.Machine.execFcvtN32F32 rd rs1 rm s
  | .fcvtI64F32 rd rs1 rm => Sys2Proof.Machine.execFcvtI64F32 rd rs1 rm s
  | .fcvtN64F32 rd rs1 rm => Sys2Proof.Machine.execFcvtN64F32 rd rs1 rm s
  | .fcvtI32F64 rd rs1 rm => Sys2Proof.Machine.execFcvtI32F64 rd rs1 rm s
  | .fcvtN32F64 rd rs1 rm => Sys2Proof.Machine.execFcvtN32F64 rd rs1 rm s
  | .fcvtI64F64 rd rs1 rm => Sys2Proof.Machine.execFcvtI64F64 rd rs1 rm s
  | .fcvtN64F64 rd rs1 rm => Sys2Proof.Machine.execFcvtN64F64 rd rs1 rm s
  | .fcvtF32F64 rd rs1 rm => Sys2Proof.Machine.execFcvtF32F64 rd rs1 rm s
  | .fcvtF64F32 rd rs1 rm => Sys2Proof.Machine.execFcvtF64F32 rd rs1 rm s
  | .fcvtF32Bf16 rd rs1 rm => Sys2Proof.Machine.execFcvtF32Bf16 rd rs1 rm s
  | .fcvtBf16F32 rd rs1 rm => Sys2Proof.Machine.execFcvtBf16F32 rd rs1 rm s
  | .fcvtF32F16 rd rs1 rm => Sys2Proof.Machine.execFcvtF32F16 rd rs1 rm s
  | .fcvtF16F32 rd rs1 rm => Sys2Proof.Machine.execFcvtF16F32 rd rs1 rm s
  | .fcvtF64F16 rd rs1 rm => Sys2Proof.Machine.execFcvtF64F16 rd rs1 rm s
  | .fcvtF16F64 rd rs1 rm => Sys2Proof.Machine.execFcvtF16F64 rd rs1 rm s
  | .csrld rd csr => Sys2Proof.Machine.execCsrld rd csr s
  | .csrst rd rs1 csr => Sys2Proof.Machine.execCsrst rd rs1 csr s
  | .csrbset rd rs1 csr => Sys2Proof.Machine.execCsrbset rd rs1 csr s
  | .csrbclr rd rs1 csr => Sys2Proof.Machine.execCsrbclr rd rs1 csr s
  | .csrsti rd uimm csr => Sys2Proof.Machine.execCsrsti rd uimm csr s
  | .csrbseti rd uimm csr => Sys2Proof.Machine.execCsrbseti rd uimm csr s
  | .csrbclri rd uimm csr => Sys2Proof.Machine.execCsrbclri rd uimm csr s
  | .ecall => Sys2Proof.Machine.execEcall s
  | .ebreak => Sys2Proof.Machine.execEbreak s
  | .xret => Sys2Proof.Machine.execXret s
  | .wait rd rs1 rs2 => Sys2Proof.Machine.execWait rd rs1 rs2 s
  | .hexit => Sys2Proof.Machine.execHexit s
  | .vcsave rs1 => Sys2Proof.Machine.execVcsave rs1 s
  | .vcrest rs1 => Sys2Proof.Machine.execVcrest rs1 s
  | .tlbinv rs1 rs2 => Sys2Proof.Machine.execTlbinv rs1 rs2 s
  | .ifence => Sys2Proof.Machine.execIfence s
  | .beq rs1 rs2 off => Sys2Proof.Machine.execBeq rs1 rs2 off s
  | .bne rs1 rs2 off => Sys2Proof.Machine.execBne rs1 rs2 off s
  | .blt rs1 rs2 off => Sys2Proof.Machine.execBlt rs1 rs2 off s
  | .bge rs1 rs2 off => Sys2Proof.Machine.execBge rs1 rs2 off s
  | .bltu rs1 rs2 off => Sys2Proof.Machine.execBltu rs1 rs2 off s
  | .bgeu rs1 rs2 off => Sys2Proof.Machine.execBgeu rs1 rs2 off s
  | .jal rd off => Sys2Proof.Machine.execJal rd off s
  | .jalr rd rs1 imm => Sys2Proof.Machine.execJalr rd rs1 imm s
  | .amoswap rd rs1 rs2 dw ord => Sys2Proof.Machine.execAmoswap rd rs1 rs2 dw ord s
  | .amoadd rd rs1 rs2 dw ord => Sys2Proof.Machine.execAmoadd rd rs1 rs2 dw ord s
  | .amoand rd rs1 rs2 dw ord => Sys2Proof.Machine.execAmoand rd rs1 rs2 dw ord s
  | .amoor rd rs1 rs2 dw ord => Sys2Proof.Machine.execAmoor rd rs1 rs2 dw ord s
  | .amoxor rd rs1 rs2 dw ord => Sys2Proof.Machine.execAmoxor rd rs1 rs2 dw ord s
  | .amomin rd rs1 rs2 dw ord => Sys2Proof.Machine.execAmomin rd rs1 rs2 dw ord s
  | .amomax rd rs1 rs2 dw ord => Sys2Proof.Machine.execAmomax rd rs1 rs2 dw ord s
  | .amominu rd rs1 rs2 dw ord => Sys2Proof.Machine.execAmominu rd rs1 rs2 dw ord s
  | .amomaxu rd rs1 rs2 dw ord => Sys2Proof.Machine.execAmomaxu rd rs1 rs2 dw ord s
  | .amocas rd rs1 rs2 dw ord => Sys2Proof.Machine.execAmocas rd rs1 rs2 dw ord s
  | .fenceSv scope => Sys2Proof.Machine.execFenceSv scope s
  | .fenceVs scope => Sys2Proof.Machine.execFenceVs scope s
  | .fenceVv scope => Sys2Proof.Machine.execFenceVv scope s
  | .fenceAll scope => Sys2Proof.Machine.execFenceAll scope s
  | .setvl rd rs1 ty bal gexp => Sys2Proof.Machine.execSetvl rd rs1 ty bal gexp s
  | .setvli rd ty len => Sys2Proof.Machine.execSetvli rd ty len s
  | .enq rd rs1 rs2 => Sys2Proof.Machine.execEnq rd rs1 rs2 s
  | .qstat rd rs1 => Sys2Proof.Machine.execQstat rd rs1 s
  | .depdec rd rs1 => Sys2Proof.Machine.execDepdec rd rs1 s
  | .gbar rd rs1 => Sys2Proof.Machine.execGbar rd rs1 s
  | .tbar rd rs1 => Sys2Proof.Machine.execTbar rd rs1 s
  | .vadd w => Sys2Proof.Machine.execVadd w s
  | .vsub w => Sys2Proof.Machine.execVsub w s
  | .vrsub w => Sys2Proof.Machine.execVrsub w s
  | .vmul w => Sys2Proof.Machine.execVmul w s
  | .vmulh w => Sys2Proof.Machine.execVmulh w s
  | .vdiv w => Sys2Proof.Machine.execVdiv w s
  | .vrem w => Sys2Proof.Machine.execVrem w s
  | .vand w => Sys2Proof.Machine.execVand w s
  | .vor w => Sys2Proof.Machine.execVor w s
  | .vxor w => Sys2Proof.Machine.execVxor w s
  | .vsll w => Sys2Proof.Machine.execVsll w s
  | .vsrl w => Sys2Proof.Machine.execVsrl w s
  | .vsra w => Sys2Proof.Machine.execVsra w s
  | .vmin w => Sys2Proof.Machine.execVmin w s
  | .vmax w => Sys2Proof.Machine.execVmax w s
  | .vsadd w => Sys2Proof.Machine.execVsadd w s
  | .vssub w => Sys2Proof.Machine.execVssub w s
  | .vabs w => Sys2Proof.Machine.execVabs w s
  | .vneg w => Sys2Proof.Machine.execVneg w s
  | .vnot w => Sys2Proof.Machine.execVnot w s
  | .vmv w => Sys2Proof.Machine.execVmv w s
  | .vsel w => Sys2Proof.Machine.execVsel w s
  | .vclz w => Sys2Proof.Machine.execVclz w s
  | .vpopc w => Sys2Proof.Machine.execVpopc w s
  | .vmacc w => Sys2Proof.Machine.execVmacc w s
  | .vfadd w => Sys2Proof.Machine.execVfadd w s
  | .vfsub w => Sys2Proof.Machine.execVfsub w s
  | .vfmul w => Sys2Proof.Machine.execVfmul w s
  | .vfdiv w => Sys2Proof.Machine.execVfdiv w s
  | .vfsqrt w => Sys2Proof.Machine.execVfsqrt w s
  | .vfmin w => Sys2Proof.Machine.execVfmin w s
  | .vfmax w => Sys2Proof.Machine.execVfmax w s
  | .vfabs w => Sys2Proof.Machine.execVfabs w s
  | .vfneg w => Sys2Proof.Machine.execVfneg w s
  | .vfsgnj w => Sys2Proof.Machine.execVfsgnj w s
  | .vfsgnjn w => Sys2Proof.Machine.execVfsgnjn w s
  | .vfsgnjx w => Sys2Proof.Machine.execVfsgnjx w s
  | .vfclass w => Sys2Proof.Machine.execVfclass w s
  | .vfma w => Sys2Proof.Machine.execVfma w s
  | .vfms w => Sys2Proof.Machine.execVfms w s
  | .vfnma w => Sys2Proof.Machine.execVfnma w s
  | .vfnms w => Sys2Proof.Machine.execVfnms w s
  | .vceq w => Sys2Proof.Machine.execVceq w s
  | .vcne w => Sys2Proof.Machine.execVcne w s
  | .vclt w => Sys2Proof.Machine.execVclt w s
  | .vcle w => Sys2Proof.Machine.execVcle w s
  | .vcgt w => Sys2Proof.Machine.execVcgt w s
  | .vcge w => Sys2Proof.Machine.execVcge w s
  | .vcun w => Sys2Proof.Machine.execVcun w s
  | .mand w => Sys2Proof.Machine.execMand w s
  | .mor w => Sys2Proof.Machine.execMor w s
  | .mxor w => Sys2Proof.Machine.execMxor w s
  | .mandn w => Sys2Proof.Machine.execMandn w s
  | .mnot w => Sys2Proof.Machine.execMnot w s
  | .mmv w => Sys2Proof.Machine.execMmv w s
  | .mset w => Sys2Proof.Machine.execMset w s
  | .mclr w => Sys2Proof.Machine.execMclr w s
  | .vcvt w => Sys2Proof.Machine.execVcvt w s
  | .vpack w => Sys2Proof.Machine.execVpack w s
  | .vunpack w => Sys2Proof.Machine.execVunpack w s
  | .vsget w => Sys2Proof.Machine.execVsget w s
  | .vsput w => Sys2Proof.Machine.execVsput w s
  | .vexp2 w => Sys2Proof.Machine.execVexp2 w s
  | .vlog2 w => Sys2Proof.Machine.execVlog2 w s
  | .vrcp w => Sys2Proof.Machine.execVrcp w s
  | .vrsqrt w => Sys2Proof.Machine.execVrsqrt w s
  | .vtanh w => Sys2Proof.Machine.execVtanh w s
  | .vsigm w => Sys2Proof.Machine.execVsigm w s
  | .vredosum w => Sys2Proof.Machine.execVredosum w s
  | .vredtsum w => Sys2Proof.Machine.execVredtsum w s
  | .vredmin w => Sys2Proof.Machine.execVredmin w s
  | .vredmax w => Sys2Proof.Machine.execVredmax w s
  | .vredand w => Sys2Proof.Machine.execVredand w s
  | .vredor w => Sys2Proof.Machine.execVredor w s
  | .vredxor w => Sys2Proof.Machine.execVredxor w s
  | .vshup w => Sys2Proof.Machine.execVshup w s
  | .vshdn w => Sys2Proof.Machine.execVshdn w s
  | .vjoinup w => Sys2Proof.Machine.execVjoinup w s
  | .vjoindn w => Sys2Proof.Machine.execVjoindn w s
  | .vrgatherX1 w => Sys2Proof.Machine.execVrgatherX1 w s
  | .vrgatherX2 w => Sys2Proof.Machine.execVrgatherX2 w s
  | .vrgatherX4 w => Sys2Proof.Machine.execVrgatherX4 w s
  | .vrgatherX8 w => Sys2Proof.Machine.execVrgatherX8 w s
  | .vcompress w => Sys2Proof.Machine.execVcompress w s
  | .vexpand w => Sys2Proof.Machine.execVexpand w s
  | .vpcnt w => Sys2Proof.Machine.execVpcnt w s
  | .vpcntInc w => Sys2Proof.Machine.execVpcntInc w s
  | .vfirst w => Sys2Proof.Machine.execVfirst w s
  | .vconflict w => Sys2Proof.Machine.execVconflict w s
  | .vsscanAdd w => Sys2Proof.Machine.execVsscanAdd w s
  | .vsscanMin w => Sys2Proof.Machine.execVsscanMin w s
  | .vsscanMax w => Sys2Proof.Machine.execVsscanMax w s
  | .vsscanAnd w => Sys2Proof.Machine.execVsscanAnd w s
  | .vsscanOr w => Sys2Proof.Machine.execVsscanOr w s
  | .vsscanXor w => Sys2Proof.Machine.execVsscanXor w s
  | .vextr w => Sys2Proof.Machine.execVextr w s
  | .vinsrt w => Sys2Proof.Machine.execVinsrt w s
  | .vld w => Sys2Proof.Machine.execVld w s
  | .vldSt w => Sys2Proof.Machine.execVldSt w s
  | .vldIx w => Sys2Proof.Machine.execVldIx w s
  | .vldff w => Sys2Proof.Machine.execVldff w s
  | .vst w => Sys2Proof.Machine.execVst w s
  | .vstSt w => Sys2Proof.Machine.execVstSt w s
  | .vstIx w => Sys2Proof.Machine.execVstIx w s
  | .vcompressSt w => Sys2Proof.Machine.execVcompressSt w s
  | .vwload w => Sys2Proof.Machine.execVwload w s
  | .vmmaX1 w => Sys2Proof.Machine.execVmmaX1 w s
  | .vmmaX2 w => Sys2Proof.Machine.execVmmaX2 w s
  | .vmmaX4 w => Sys2Proof.Machine.execVmmaX4 w s
  | .vmmaX8 w => Sys2Proof.Machine.execVmmaX8 w s
  | .vaccrd w => Sys2Proof.Machine.execVaccrd w s
  | .vaccwr w => Sys2Proof.Machine.execVaccwr w s
  | .vaccz w => Sys2Proof.Machine.execVaccz w s
  | .dmk w => Sys2Proof.Machine.execDmk w s
  | .cpy w => Sys2Proof.Machine.execCpy w s
  | .cpyt w => Sys2Proof.Machine.execCpyt w s
  | .gsg w => Sys2Proof.Machine.execGsg w s
  | .gss w => Sys2Proof.Machine.execGss w s
  | .ewait w => Sys2Proof.Machine.execEwait w s
  | .estat w => Sys2Proof.Machine.execEstat w s
  | .winnow w => Sys2Proof.Machine.execWinnow w s
  | .vsrdoAdd w => Sys2Proof.Machine.execVsrdoAdd w s
  | .vsrduAdd w => Sys2Proof.Machine.execVsrduAdd w s
  | .vsrduMin w => Sys2Proof.Machine.execVsrduMin w s
  | .vsrduMax w => Sys2Proof.Machine.execVsrduMax w s
  | .vsrduAnd w => Sys2Proof.Machine.execVsrduAnd w s
  | .vsrduOr w => Sys2Proof.Machine.execVsrduOr w s
  | .vsrduXor w => Sys2Proof.Machine.execVsrduXor w s
  | .chain w => Sys2Proof.Machine.execChain w s
  | .run w => Sys2Proof.Machine.execRun w s
  | .chwait w => Sys2Proof.Machine.execChwait w s
  | .chquit w => Sys2Proof.Machine.execChquit w s
  | .stop w => Sys2Proof.Machine.execStop w s
  | .lnkin w => Sys2Proof.Machine.execLnkin w s
  | .lnkout w => Sys2Proof.Machine.execLnkout w s
  | .delay w => Sys2Proof.Machine.execDelay w s
  | .ereq w => Sys2Proof.Machine.execEreq w s
  | .eresp w => Sys2Proof.Machine.execEresp w s
  | .clred w => Sys2Proof.Machine.execClred w s
  | .clbcast w => Sys2Proof.Machine.execClbcast w s
  | .clagat w => Sys2Proof.Machine.execClagat w s
  | .clrsc w => Sys2Proof.Machine.execClrsc w s
  | .clwait w => Sys2Proof.Machine.execClwait w s
  | .thdec w => Sys2Proof.Machine.execThdec w s
  | .thand w => Sys2Proof.Machine.execThand w s
  | .thor w => Sys2Proof.Machine.execThor w s
  | .thwand w => Sys2Proof.Machine.execThwand w s
  | .thscore w => Sys2Proof.Machine.execThscore w s
  | .thfuse w => Sys2Proof.Machine.execThfuse w s
  | .thtopk w => Sys2Proof.Machine.execThtopk w s
  | .stripCommit h => Sys2Proof.Machine.execStripCommit h s
  | .stripFault h => Sys2Proof.Machine.execStripFault h s
  | .breakRun h => Sys2Proof.Machine.execBreakRun h s
  | .temporalStrip h => Sys2Proof.Machine.execTemporalStrip h s
  | .reForm h => Sys2Proof.Machine.execReForm h s
  | .linkPacket h dir => Sys2Proof.Machine.execLinkPacket h dir s
  | .scannerPoll q => Sys2Proof.Machine.execScannerPoll q s
  | .delivery die => Sys2Proof.Machine.execDelivery die s
  | .dispatchPass die => Sys2Proof.Machine.execDispatchPass die s
  | .hartStop h => Sys2Proof.Machine.execHartStop h s
  | .reclaimTimeout h => Sys2Proof.Machine.execReclaimTimeout h s
  | .taskCompletion e => Sys2Proof.Machine.execTaskCompletion e s
  | .decrementRetry e => Sys2Proof.Machine.execDecrementRetry e s
  | .budgetExhausted e => Sys2Proof.Machine.execBudgetExhausted e s
  | .overrun e => Sys2Proof.Machine.execOverrun e s
  | .deadline e => Sys2Proof.Machine.execDeadline e s
  | .watchdog e => Sys2Proof.Machine.execWatchdog e s
  | .commandAccept h ticket => Sys2Proof.Machine.execCommandAccept h ticket s
  | .commandEnd h ticket => Sys2Proof.Machine.execCommandEnd h ticket s
  | .checkpointPause h ticket => Sys2Proof.Machine.execCheckpointPause h ticket s
  | .engineStall h ticket => Sys2Proof.Machine.execEngineStall h ticket s
  | .dataFrame port f => Sys2Proof.Machine.execDataFrame port f s
  | .creditFrame port f => Sys2Proof.Machine.execCreditFrame port f s
  | .abortFrame port f => Sys2Proof.Machine.execAbortFrame port f s
  | .probeFrame port f => Sys2Proof.Machine.execProbeFrame port f s
  | .replyFrame port f => Sys2Proof.Machine.execReplyFrame port f s
  | .resendTimeout h ticket peer chunk => Sys2Proof.Machine.execResendTimeout h ticket peer chunk s
  | .silenceTimeout h ticket peer => Sys2Proof.Machine.execSilenceTimeout h ticket peer s
  | .unreachablePeer h ticket peer => Sys2Proof.Machine.execUnreachablePeer h ticket peer s
  | .collectiveEnd h ticket => Sys2Proof.Machine.execCollectiveEnd h ticket s
  | .collectiveCheckpoint h ticket => Sys2Proof.Machine.execCollectiveCheckpoint h ticket s
  | .portReceive port frame => Sys2Proof.Machine.execPortReceive port frame s
  | .portTransmit port => Sys2Proof.Machine.execPortTransmit port s
  | .mgmtRead tag off len => Sys2Proof.Machine.execMgmtRead tag off len s
  | .mgmtWrite tag off data => Sys2Proof.Machine.execMgmtWrite tag off data s
  | .getVersion req => Sys2Proof.Machine.execGetVersion req s
  | .getCapabilities req => Sys2Proof.Machine.execGetCapabilities req s
  | .negotiateAlgorithms req => Sys2Proof.Machine.execNegotiateAlgorithms req s
  | .getDigests req => Sys2Proof.Machine.execGetDigests req s
  | .getCertificate req => Sys2Proof.Machine.execGetCertificate req s
  | .challenge req => Sys2Proof.Machine.execChallenge req s
  | .getMeasurements req => Sys2Proof.Machine.execGetMeasurements req s
  | .unsupportedRequest req => Sys2Proof.Machine.execUnsupportedRequest req s
  | .resetN => Sys2Proof.Machine.execResetN s
  | .cmdRead cc => Sys2Proof.Machine.execCmdRead cc s
  | .cmdWrite cc => Sys2Proof.Machine.execCmdWrite cc s
  | .halted h => Sys2Proof.Machine.execHalted h s
  | .treset cc => Sys2Proof.Machine.execTreset cc s
  | .quiescence ten => Sys2Proof.Machine.execQuiescence ten s
  | .trelease cc => Sys2Proof.Machine.execTrelease cc s
  | .endEntry cc => Sys2Proof.Machine.execEndEntry cc s
  | .answerRetry cc => Sys2Proof.Machine.execAnswerRetry cc s
  | .answerDecline cc => Sys2Proof.Machine.execAnswerDecline cc s
  | .fqueue cc => Sys2Proof.Machine.execFqueue cc s
  | .migrationEnd obj lasting => Sys2Proof.Machine.execMigrationEnd obj lasting s
  | .uncorrectableError u secondOk => Sys2Proof.Machine.execUncorrectableError u secondOk s
  | .configRestore h => Sys2Proof.Machine.execConfigRestore h s
  | .repair u => Sys2Proof.Machine.execRepair u s
  | .powerSample milliwatts decidegrees => Sys2Proof.Machine.execPowerSample milliwatts decidegrees s
  | .priorityFlowControl port prio pause => Sys2Proof.Machine.execPriorityFlowControl port prio pause s

end Machine
end Sys2Proof
end

