-- ==== Sys2Proof/Machine/Partway.lean ====
section
/-! DEFINITION. Where a pre-emption or an interrupt stops a vector instruction part-way (spec/06_vector_arith.md R130, R150;
spec/07_matrix.md R157, R161; spec/08_permute_sparse.md R173; spec/10_memory.md R228; spec/12_atomics_engines.md R260;
spec/17_traps.md R398): the elements below k are done, VSTART is k, and the PC stays at the instruction. -/

namespace Sys2Proof
namespace Machine

/-- The acting hart with VL.LEN cut to n: most forms, begun there, do exactly their elements below n. -/
def cutVl (n : Nat) (s : State) : State :=
  setVec s { s.me.vec with vlLen := BitVec.ofNat 17 (min n s.me.vec.vlLen.toNat) }

/-- What some elements of vd hold in one state, the rest of another, bit for bit: for forms whose elements depend on evl. -/
def keepVd (w : VWord) (done s : State) (is : List Nat) : State :=
  let d := regOf w.vd.val
  let t := w.vt.val
  let L := lanesIn s
  let x := is.foldl (fun x i => setBits x (elemBit t L i) (elemW t) (bitsAt done.me.vec.regs d.val (elemBit t L i) (elemW t)))
    s.me.vec.regs.data[d]
  setVec s { s.me.vec with regs := { s.me.vec.regs with data := s.me.vec.regs.data.set d x } }

/-- The elements of a form whose values depend on evl, below k: computed over the whole body, written below k. -/
def someElems (f : State → Ans) (w : VWord) (k : Nat) (s : State) : Ans :=
  match f s with
  | .done t => .done (keepVd w t s (body s.me.vec.vstart.toNat k))
  | a => a

/-- A conversion in place between widths is never stopped (R130). -/
def inPlace (w : VWord) : Bool := w.vd.val == srcN w.f1 && elemW w.vt.val != elemW w.f2.val

/-- A form whose resumption would read elements of vd that the stopped part has overwritten, so that R397 has it completed (R129): one
with a replicated source in vd, or an indexed load with its index in vd at another width. -/
def rereads (op : VOp) (w : VWord) : Bool :=
  !(storeForm op || srdForm op || cmpForm op || (mmaG op).isSome || op = .vaccwr) &&
  ((vsrcFields w op).any (fun f => srcP f && srcN f == w.vd.val) ||
    (op = .vldIx && srcN (viFld w) == w.vd.val && elemW (idxTy w.vt.val) != elemW w.vt.val))

/-- The part of a form below element k, where the form stops part-way (R130, R150, R157, R161, R173, R228, R260); none where it
is completed or abandoned. -/
def partOf (op : VOp) (w : VWord) : Option (Nat → State → Ans) :=
  if rereads op w then none else
  let cut (f : State → Ans) : Option (Nat → State → Ans) := some (fun k s => f (cutVl k s))
  let gather (g : Nat) : Option (Nat → State → Ans) :=
    if srcN w.f1 ≤ w.vd.val ∧ w.vd.val < srcN w.f1 + g then none else some (someElems (gatherAns g w) w)
  match op with
  | .vadd | .vsub | .vrsub | .vmul | .vmulh | .vdiv | .vrem | .vand | .vor | .vxor | .vsll | .vsrl | .vsra | .vmin | .vmax
  | .vsadd | .vssub | .vabs | .vneg | .vnot | .vmv | .vclz | .vpopc | .vmacc | .vfadd | .vfsub | .vfmul | .vfdiv | .vfsqrt
  | .vfmin | .vfmax | .vfabs | .vfneg | .vfsgnj | .vfsgnjn | .vfsgnjx | .vfclass | .vfma | .vfms | .vfnma | .vfnms
  | .vexp2 | .vlog2 | .vrcp | .vrsqrt | .vtanh | .vsigm => cut (vaAns op w)
  | .vsel => cut (selAns w)
  | .vceq | .vcne | .vclt | .vcle | .vcgt | .vcge | .vcun => cut (cmpAns op w)
  | .mand | .mor | .mxor | .mandn | .mnot | .mmv | .mset | .mclr => cut (mopAns op w)
  | .vcvt => if inPlace w then none else cut (cvtAns w)
  | .vpack => if inPlace w then none else cut (packAns w)
  | .vunpack => if inPlace w then none else cut (unpackAns w)
  | .vsget => some (fun k s => sgetAns w (cutVl (32 * k) s))
  | .vsput => some (fun k s => sputAns w (cutVl (32 * k) s))
  | .vredosum => cut (redAns op w)
  | .vshdn => some (someElems (slideAns op w) w)
  | .vshup | .vjoinup => if w.vd.val = srcN w.f1 then none else some (someElems (slideAns op w) w)
  | .vjoindn => if w.vd.val = srcN w.f3 then none else some (someElems (slideAns op w) w)
  | .vrgatherX1 => gather 1
  | .vrgatherX2 => gather 2
  | .vrgatherX4 => gather 4
  | .vrgatherX8 => gather 8
  | .vcompress => cut (compressAns { w with vm := Fin.ofNat 16 (maskReg w) })
  | .vexpand => if w.vd.val = srcN w.f1 then none else cut (expandAns w)
  | .vconflict => if w.vd.val = srcN w.f1 then none else cut (conflictAns w)
  | .vpcnt => cut (pcntAns 0 w)
  | .vpcntInc => cut (pcntAns 1 w)
  | .vsscanAdd | .vsscanMin | .vsscanMax | .vsscanAnd | .vsscanOr | .vsscanXor => cut (scanAns op w)
  | .vld | .vldSt | .vldIx | .vldff => cut (loadAns op w)
  | .vst | .vstSt | .vstIx | .vcompressSt => cut (storeAns op w)
  | .vsrdoAdd | .vsrduAdd | .vsrduMin | .vsrduMax | .vsrduAnd | .vsrduOr | .vsrduXor => cut (srdAns op w)
  | .vmmaX1 | .vmmaX2 | .vmmaX4 | .vmmaX8 => some (fun k s => mmaAns (k / mmaK w.vt.val) w s)
  | .vaccrd => cut (accrdAns w)
  | .vaccwr => cut (accwrAns w)
  | _ => none

/-- The step of the places where a form may stop: rows of `vmma` (R157), blocks of a form with a block type (R130), elements. -/
def stopStep (op : VOp) (w : VWord) : Nat :=
  match op with
  | .vmmaX1 | .vmmaX2 | .vmmaX4 | .vmmaX8 => mmaK w.vt.val
  | .vpack | .vld | .vldff | .vldSt | .vst | .vstSt => if blkTy w.vt.val then 32 else 1
  | .vunpack => 32
  | _ => 1

/-- The end of a form's body, in the count of its VSTART. -/
def stopEnd (op : VOp) (w : VWord) (s : State) : Nat :=
  let len := s.me.vec.vlLen.toNat
  let L := lanesIn s
  let t := w.vt.val
  match op with
  | .vmmaX1 => if mmaC t len L = 0 then 0 else mmaK t
  | .vmmaX2 => if mmaC t len L = 0 then 0 else 2 * mmaK t
  | .vmmaX4 => if mmaC t len L = 0 then 0 else 4 * mmaK t
  | .vmmaX8 => if mmaC t len L = 0 then 0 else 8 * mmaK t
  | .mand | .mor | .mxor | .mandn | .mnot | .mmv | .mset | .mclr => len
  | .vcvt | .vpack | .vunpack =>
    min len (cap (if dstWide t w.f2.val then w.f2.val else t) L)
  | .vsget | .vsput => min len (cap t L) / 32
  | .vaccrd | .vaccwr => min len (32 * L)
  | _ => if indexForm op then min (evlOf s t) (cap (idxTy t) L) else evlOf s t

/-- How the part below k ends: stopped with VSTART = k, VL as it was. A trap below k is the instruction's own, and a `vldff` that
trims below k is complete. -/
def stopAns (op : VOp) (k : Nat) (s : State) : Ans → Ans
  | .done t =>
    if op = .vldff && t.me.vec.vlLen != BitVec.ofNat 17 k then .done t
    else .wait (setVec t { t.me.vec with vlLen := s.me.vec.vlLen, vstart := BitVec.ofNat 17 k })
  | .trap t x => .trap (setVec t { t.me.vec with vlLen := s.me.vec.vlLen }) x
  | .wait _ => .wait s
  | a => a

/-- Execute an instruction until a pre-emption or interrupt stops it at or before k: where it cannot stop there, it completes. -/
noncomputable def execUntil (i : Instr) (k : Nat) (s : State) : Host.Outcome State Fault Refusal :=
  match nodeOf i with
  | none => exec i s
  | some (op, w) =>
    let k := k / stopStep op w * stopStep op w
    match partOf op w with
    | none => exec i s
    | some f =>
      if s.me.vec.vstart.toNat < k ∧ k < stopEnd op w s then node op w s (fun s => stopAns op k s (f k s)) else exec i s

end Machine
end Sys2Proof
end

