-- ==== Sys2Proof/Machine/Fetch.lean ====
section
/-! DEFINITION. What moves next: boot, a turn of the agenda, or the acting agent, which fetches, decodes and executes
(spec/02_encoding.md R31-R33, R51, R60; spec/17_traps.md R390; log 1). -/

namespace Sys2Proof
namespace Machine

/-- A row of the table that has no encoding: a step that the machine takes of itself or that comes from outside it. -/
def isEvent : Instr → Bool
  | .stripCommit _
  | .stripFault _
  | .breakRun _
  | .temporalStrip _
  | .reForm _
  | .linkPacket _ _
  | .scannerPoll _
  | .delivery _
  | .dispatchPass _
  | .hartStop _
  | .reclaimTimeout _
  | .taskCompletion _
  | .decrementRetry _
  | .budgetExhausted _
  | .overrun _
  | .deadline _
  | .watchdog _
  | .commandAccept _ _
  | .commandEnd _ _
  | .checkpointPause _ _
  | .engineStall _ _
  | .dataFrame _ _
  | .creditFrame _ _
  | .abortFrame _ _
  | .probeFrame _ _
  | .replyFrame _ _
  | .resendTimeout _ _ _ _
  | .silenceTimeout _ _ _
  | .unreachablePeer _ _ _
  | .collectiveEnd _ _
  | .collectiveCheckpoint _ _
  | .portReceive _ _
  | .portTransmit _
  | .mgmtRead _ _ _
  | .mgmtWrite _ _ _
  | .getVersion _
  | .getCapabilities _
  | .negotiateAlgorithms _
  | .getDigests _
  | .getCertificate _
  | .challenge _
  | .getMeasurements _
  | .unsupportedRequest _
  | .resetN
  | .cmdRead _
  | .cmdWrite _
  | .halted _
  | .treset _
  | .quiescence _
  | .trelease _
  | .endEntry _
  | .answerRetry _
  | .answerDecline _
  | .fqueue _
  | .migrationEnd _ _
  | .uncorrectableError _ _
  | .configRestore _
  | .repair _
  | .powerSample _ _
  | .priorityFlowControl _ _ _ => true
  | _ => false

/-! ### The copies that the machine may keep -/

/-- The root that a unit walks from in an address space (spec/16_isolation.md R358, R369): a control core's own registers, or
the address space's. -/
def unitRoot (s : State) (u : XUnit) (asid : Nat) : Option Nat :=
  match u with
  | .scalar (.cc n) =>
    let c := (agentOf s (.cc n)).cc
    if c.rootOn && c.asid.toNat == asid then some (c.root.toNat * 65536) else none
  | _ => some ((aspOf s asid).root.toNat * 65536)

/-- A context in which the checks of spec/16_isolation.md R359 read an entry for a unit. -/
def unitCtx (u : XUnit) (asid root : Nat) : XCtx where
  unit := u
  mode := .s
  asid := asid
  root := root / 65536
  hart := none
  task := none
  cid := none
  isCc := match u with
    | .scalar (.cc _) => true
    | _ => false

/-- Cache the entries on the walk of an address that are valid and that R359 admits; no other entry is cached (R362). -/
def fillPath (s : State) (c : XCtx) (va : Nat) : Nat → Nat → State
  | 0, _ => s
  | left + 1, table =>
    let level := 3 - left
    let path := va / 2 ^ pageLog level
    if hbmEnd < table + 65536 || (!cached s c level path && isPoisoned s (table + 8 * (path % 8192))) then s
    else
      let e := entryFor s c level path table
      let keep : State :=
        if cached s c level path then s
        else { s with tlb := { unit := c.unit, asid := c.asid, level := level, path := path, entry := e } :: s.tlb }
      if !bit e 0 then s
      else if bit e 1 then (if leafOk c level (path * 2 ^ pageLog level) e then keep else s)
      else if tableOk e then fillPath keep c va left (fld e 51 16 * 65536)
      else s

/-- A translation cache takes in the walk of an address (R362; log 7). -/
def cacheWalk (s : State) (u : XUnit) (asid va : Nat) : State :=
  match unitRoot s u asid with
  | some root => fillPath s (unitCtx u asid root) va 3 root
  | none => s

/-- A translation cache gives up what it holds on the walk of an address (R362; log 7). -/
def evictWalk (s : State) (u : XUnit) (asid va : Nat) : State :=
  { s with tlb := s.tlb.filter (fun t => !(t.unit = u && t.asid == asid && onWalk t va)) }

/-- An instruction store takes in the doubleword of HBM4E at a key (spec/02_encoding.md R60; log 6). -/
def fillStore (s : State) (a : AgentId) (key : Nat) : State :=
  let k := key / 8 * 8
  if hbmEnd ≤ k || isPoisoned s k || s.istore.any (fun c => c.agent = a && c.key == k) then s
  else { s with istore := { agent := a, key := k, word := BitVec.ofNat 64 (Memory.readLE s.mem k 8) } :: s.istore }

/-- An instruction store gives up a doubleword (R60; log 6). -/
def dropStore (s : State) (a : AgentId) (key : Nat) : State :=
  { s with istore := s.istore.filter (fun c => !(c.agent = a && c.key == key / 8 * 8)) }

/-! ### Fetch -/

/-- The doubleword of code that holds the PC: the instruction store's copy, or memory's (R60). -/
def fetchCode (s : State) : Except Flt Word :=
  match resolveScalar s .fetch s.me.pc.toNat with
  | .error f => .error f
  | .ok (.mem k) =>
    match s.istore.find? (fun c => c.agent = s.me.id && c.key == k / 8 * 8) with
    | some c => .ok c.word
    | none => .ok (BitVec.ofNat 64 (Memory.readLE s.mem (k / 8 * 8) 8))
  | .ok (.poisonMap o) => .ok (BitVec.ofNat 64 (readLoc s (.poisonMap (o / 8 * 8)) 8))
  | .ok (.mgmt o) => .ok (BitVec.ofNat 64 (readLoc s (.mgmt (o / 8 * 8)) 8))

noncomputable section

/-- Fetch the word at the PC and decode it: fetch faults first (R33), `ALIGN` for a 64-bit word that is not 8-byte aligned
(R32), the decode fates (R51), else the instruction. The spec says nothing of a PC that is not 4-byte aligned, which only a
debug write (spec/17_traps.md R415) or an image's LOAD (spec/16_isolation.md R381) can leave: it takes `ALIGN` with `XVAL` = PC
before any fetch fault (DESIGN CHOICE, log 47). -/
def fetchMove (s : State) : Move :=
  if s.me.pc.toNat % 4 ≠ 0 then .next (takeTrap s (Trap.sync cAlign s.me.pc))
  else
    match fetchCode s with
    | .error f => .next (takeTrap s f.trap)
    | .ok w =>
      match decode .inline ((leBytes 8 w.toNat).drop (s.me.pc.toNat % 8)) with
      | .instr i _ => .exec i s
      | .fate .illegal word _ => .next (takeTrap s (Trap.sync cIllegal (BitVec.ofNat 64 word)))
      | .fate (.feature n) _ _ => .next (takeTrap s (Trap.sync cFeature (BitVec.ofNat 64 n)))
      | .short => .next (takeTrap s (Trap.sync cAlign s.me.pc))

/-- The acting agent's turn. A control core runs once boot is done (spec/16_isolation.md R380). A hart runs unless its task is
pre-empted or held, or a debugger has halted it; it takes a pending `OVERRUN` before it fetches (spec/17_traps.md R390); a
parked hart waits for its answer (R368). -/
def agentTurn (s : State) : Move :=
  match s.me.id with
  | .cc _ => if s.bootstat = 4#8 then fetchMove s else .next s
  | .hart h =>
    if s.me.stopped || s.me.halted then .next s
    else match s.me.status with
      | .idle => .next s
      | .parked _ _ => .next (takeAnswer s h)
      | .running =>
        if s.me.held then .next s
        else if overrunNow s s.me then .next (takeOverrun s)
        else fetchMove s

/-- The instruction at a hart's PC was in flight when a pre-emption or interrupt arrived: it completes, stops at an element
(R398), or takes a synchronous trap of its own, for which a pending `OVERRUN` stays held (R400). An `OVERRUN` that was held in S
mode or while parked comes before the first instruction in U mode (R400). -/
def flightTurn (s : State) (stop : Option Nat) : Move :=
  match s.me.id with
  | .cc _ => agentTurn s
  | .hart _ =>
    if s.me.status = .running ∧ s.me.stopped = false ∧ s.me.halted = false ∧ s.me.held = false then
      if overrunNow s s.me && s.me.overdue then .next (takeOverrun s)
      else match fetchMove s, stop with
      | .exec i s, some k => (match execUntil i k s with
        | .next t => .next t
        | _ => .exec i s)
      | m, _ => m
    else agentTurn s

/-- An event that a frame stands for, if it stands for one. -/
def eventMove (s : State) : Option Instr → Move
  | some i => .exec i s
  | none => .next s

/-- A frame arrives at a network port, with its FCS (spec/15_links_collectives.md R345, R353): one of a wrong length or FCS is
dropped and counted, a collective frame and a flow control frame act by their bytes, and any other goes to the receive ring. -/
def receiveWire (s : State) (port : Fin 16) (bytes : List Byte) : Move :=
  let f := bytes.take (bytes.length - 4)
  if bytes.length < 64 ∨ 9216 < bytes.length ∨ fcsOk bytes = false then .next (dropFrame s port.val)
  else if etherType f = 0x88B5 then eventMove s ((frameOf (etherBody f)).bind (frameInstr port))
  else if etherType f = 0x8808 then
    match pfcOf (etherBody f) (portOf s port.val).prio.toNat with
    | some pause => .exec (.priorityFlowControl port (Fin.ofNat 8 (portOf s port.val).prio.toNat) pause) s
    | none => .next s
  else .exec (.portReceive port f) s

/-- A turn of the agenda (log 1). A turn that names an instruction that is no event changes nothing: agents alone execute
instructions. -/
def turnMove (s : State) : Turn → Move
  | .event i => if isEvent i then .exec i s else .next s
  | .agent a => agentTurn (switchTo s a)
  | .elapse kiln cycles => .next (elapse s kiln cycles)
  | .inFlight a stop => flightTurn (switchTo s a) stop
  | .withhold x away => .next (withhold s x away)
  | .wire port bytes => receiveWire s port bytes
  | .inside => (match s.inside with
    | (port, f) :: rest => eventMove { s with inside := rest } (frameInstr port f)
    | [] => .next s)
  | .mgmtFrame ty bytes => eventMove s (mgmtInstr ty bytes)
  | .migrateLine obj lasting => .next (migrateLine s obj lasting)
  | .cache u asid va => .next (cacheWalk s u asid va)
  | .evict u asid va => .next (evictWalk s u asid va)
  | .store a key => .next (fillStore s a key)
  | .drop a key => .next (dropStore s a key)

/-- What moves next: the head of the agenda; without one, boot until it has stopped (R380) or ended, and then the acting
agent. -/
def nextTurn (s : State) : Move :=
  match s.agenda with
  | t :: rest => turnMove { s with agenda := rest } t
  | [] =>
    if 0x80 ≤ s.bootstat.toNat then .stop (.bootStopped s.bootstat.toNat)
    else if s.bootstat.toNat < 4 then .next (bootStep s)
    else agentTurn s

end

/-- Where `State.withFetchWord` places an instruction: an address of HBM4E that its own page table maps to itself. -/
def placeAddr : Nat := 0x30000

/-- The state in which the next step fetches the instruction with these bits (log 8): boot is done, a hart context in U mode
acts, its address space has a root table at 0x10000 whose one level-2 leaf maps the first 512 MiB to themselves, and the
bits lie at `placeAddr`. -/
def placeWord (s : State) (nbits w : Nat) : State :=
  let h : AgentId := match s.me.id with
    | .hart h => .hart h
    | .cc _ => .hart ⟨0, 0, 0⟩
  let s := switchTo s h
  let m := Memory.writeLE (Memory.writeLE (Memory.writeLE s.mem 0x10000 8 0x20001) 0x20000 8 0x3F) placeAddr 8 (w % 2 ^ nbits)
  { s with
    me := { s.me with pc := BitVec.ofNat 64 placeAddr, mode := .u, asid := 0#16, status := .running
                      held := false, overrun := false, overdue := false, stopped := false, halted := false }
    mem := m
    poison := s.poison.filter (fun l => l != 0x10000 / 64 && l != 0x20000 / 64 && l != placeAddr / 64)
    aspaces := tset 0 { aspOf s 0 with valid := true, root := 1#36 } s.aspaces
    istore := s.istore.filter (fun c => c.agent != h)
    tlb := s.tlb.filter (fun t => t.unit != .scalar h)
    bootstat := 4#8
    agenda := [] }

end Machine
end Sys2Proof
end

