-- ==== Sys2Proof/Machine/Step.lean ====
section
/-! DEFINITION. One step of the package. -/

namespace Sys2Proof
namespace Machine

/-- One step: what `nextTurn` says moves next. -/
noncomputable def step (s : State) : Host.Outcome State Fault Refusal :=
  match nextTurn s with
  | .exec i t => exec i t
  | .next t => .next t
  | .stop f => .fault f

/-- The state with the instruction of these bits where the next step fetches (log 8). -/
def State.withFetchWord (s : State) (nbits w : Nat) : State := placeWord s nbits w

end Machine
end Sys2Proof
end

