-- ==== Sys2Proof/Machine/Assembly.lean ====
section
/-! DEFINITION. What the assembly language means (spec/03_assembly.md R63, R66-R76): expressions, fields, pseudo-instructions, the
placing of statements, chain blocks and relocations, and the bytes of a file. A line is taken as split into its labels and its
statement (R62-R65); an operand that is a number stays an expression until its field is filled. -/

namespace Sys2Proof
namespace Machine

/-! ### Expressions (R63, R68, R69) -/

/-- The binary operators of R68. -/
inductive AsmOp where
  | mul | div | mod | add | sub | shl | shr | and | xor | or
  deriving DecidableEq, Repr

/-- An expression (R68); `back` and `fwd` are the references `nb` and `nf` to a local label (R63). -/
inductive AsmExpr where
  | int (n : Int)
  | sym (name : String)
  | back (n : Nat)
  | fwd (n : Nat)
  | dot
  | neg (e : AsmExpr)
  | inv (e : AsmExpr)
  | bin (op : AsmOp) (a b : AsmExpr)
  deriving DecidableEq, Repr

/-- Where a label stands: in a section of the file, or in another object under a name (DESIGN CHOICE, log 43). -/
inductive AsmSec where
  | text | data
  | other (name : String)
  deriving DecidableEq, Repr

/-- What a value is (R69): absolute, a label, or a label plus an absolute value. -/
inductive AsmKind where
  | abs
  | label (s : AsmSec)
  | sum (s : AsmSec)
  deriving DecidableEq, Repr

/-- A value with its kind; that of a label is its address. -/
structure AsmValue where
  kind : AsmKind
  val  : Int
  deriving DecidableEq, Repr

/-- The symbols of a file, and its local labels by number and line (R63). -/
structure AsmEnv where
  syms   : List (String × AsmValue)
  locals : List (Nat × Nat × AsmValue)
  deriving DecidableEq, Repr

/-- 64-bit two's complement (R68). -/
def asmWrap (x : Int) : Int := (BitVec.ofInt 64 x).toInt

/-- An operator on absolute values; none for an error (R68). -/
def asmAbs (op : AsmOp) (a b : Int) : Option Int :=
  let bits (f : BitVec 64 → BitVec 64 → BitVec 64) : Int := (f (BitVec.ofInt 64 a) (BitVec.ofInt 64 b)).toInt
  match op with
  | .mul => some (asmWrap (a * b))
  | .div => if b = 0 then none else some (asmWrap (a.tdiv b))
  | .mod => if b = 0 then none else some (asmWrap (a.tmod b))
  | .add => some (asmWrap (a + b))
  | .sub => some (asmWrap (a - b))
  | .shl => if 0 ≤ b ∧ b < 64 then some (asmWrap (a * 2 ^ b.toNat)) else none
  | .shr => if 0 ≤ b ∧ b < 64 then some (a / 2 ^ b.toNat) else none
  | .and => some (bits (fun x y => x &&& y))
  | .xor => some (bits (fun x y => x ^^^ y))
  | .or => some (bits (fun x y => x ||| y))

/-- An operator on two values (R69): the difference of two labels of a section is absolute, and a relocatable value takes an
absolute one added to it. -/
def asmBin (op : AsmOp) (a b : AsmValue) : Option AsmValue :=
  let out (k : AsmKind) : Option AsmValue := (asmAbs op a.val b.val).map (fun v => { kind := k, val := v })
  match a.kind, b.kind with
  | .abs, .abs => out .abs
  | .label .text, .label .text => if op = .sub then out .abs else none
  | .label .data, .label .data => if op = .sub then out .abs else none
  | .label s, .abs => if op = .add then out (.sum s) else none
  | .sum s, .abs => if op = .add then out (.sum s) else none
  | _, _ => none

/-- A unary operator takes an absolute value. -/
def asmUn (f : Int → Int) (v : Option AsmValue) : Option AsmValue :=
  match v with
  | some v => if v.kind = .abs then some { v with val := asmWrap (f v.val) } else none
  | none => none

/-- The value of an expression on a line whose statement stands at an address; none for an error. -/
def asmEval (env : AsmEnv) (line : Nat) (here : AsmValue) : AsmExpr → Option AsmValue
  | .int n => some { kind := .abs, val := asmWrap n }
  | .sym x => (env.syms.find? (fun p => p.1 == x)).map (fun p => p.2)
  | .back n => ((env.locals.filter (fun l => l.1 == n && decide (l.2.1 ≤ line))).getLast?).map (fun l => l.2.2)
  | .fwd n => (env.locals.find? (fun l => l.1 == n && decide (line < l.2.1))).map (fun l => l.2.2)
  | .dot => some here
  | .neg e => asmUn (fun x => -x) (asmEval env line here e)
  | .inv e => asmUn (fun x => -x - 1) (asmEval env line here e)
  | .bin op a b => match asmEval env line here a, asmEval env line here b with
    | some x, some y => asmBin op x y
    | _, _ => none

/-- The value of an expression that must be absolute (R69). -/
def asmAbsolute (env : AsmEnv) (line : Nat) (here : AsmValue) (e : AsmExpr) : Option Int :=
  match asmEval env line here e with
  | some v => if v.kind = .abs then some v.val else none
  | none => none

/-! ### Fields (R66, R74, R76) -/

/-- A signed immediate of 14 bits; none where it does not fit (R66). -/
def asmImm14 (x : Int) : Option (Fin 16384) := if -8192 ≤ x ∧ x ≤ 8191 then some (Fin.ofNat 16384 (x % 16384).toNat) else none
/-- A signed immediate of 19 bits. -/
def asmImm19 (x : Int) : Option (Fin 524288) := if -262144 ≤ x ∧ x ≤ 262143 then some (Fin.ofNat 524288 (x % 524288).toNat) else none
/-- off14 of a target from a word's address (R66). -/
def asmOff14 (target at_ : Int) : Option (Fin 16384) := if (target - at_) % 4 = 0 then asmImm14 ((target - at_) / 4) else none
/-- off19 of a target. -/
def asmOff19 (target at_ : Int) : Option (Fin 524288) := if (target - at_) % 4 = 0 then asmImm19 ((target - at_) / 4) else none
/-- An unsigned field of some bits; none where the value does not fit (R66). -/
def asmUns (bits : Nat) (x : Int) : Option Nat := if 0 ≤ x ∧ x < 2 ^ bits then some x.toNat else none
/-- pchi of R74, and pclo, for a distance. -/
def pchi (d : Int) : Int := (d + 0x2000) / 2 ^ 14
def pclo (d : Int) : Int := d - pchi d * 2 ^ 14

/-- The relocations of R76. -/
inductive Reloc where
  | abs64 | abs32 | branch14 | jump19 | pchi19 | pclo14
  deriving DecidableEq, Repr

/-- The value a relocation places in its field, from symbol, addend and place; none for a link error (R76). -/
def relocValue (r : Reloc) (s a p : Int) : Option Nat :=
  match r with
  | .abs64 => some ((s + a) % 2 ^ 64).toNat
  | .abs32 => if -2 ^ 31 ≤ s + a ∧ s + a < 2 ^ 32 then some ((s + a) % 2 ^ 32).toNat else none
  | .branch14 => (asmOff14 (s + a) p).map (fun x => x.val)
  | .jump19 => (asmOff19 (s + a) p).map (fun x => x.val)
  | .pchi19 => (asmImm19 (pchi (s + a - p))).map (fun x => x.val)
  | .pclo14 => (asmImm19 (pchi (s + a - (p - 4)))).bind (fun _ => (asmImm14 (pclo (s + a - (p - 4)))).map (fun x => x.val))

noncomputable section

/-! ### Pseudo-instructions (R73) -/

/-- The pseudo-instructions of R73; a target, a symbol or a value of `li` is an expression, or what it comes to. -/
inductive Pseudo (α : Type) where
  | nop
  | mv (rd rs : Reg)
  | not (rd rs : Reg)
  | neg (rd rs : Reg)
  | beqz (rs : Reg) (t : α)
  | bnez (rs : Reg) (t : α)
  | j (t : α)
  | call (t : α)
  | ret
  | csrwr (c : Fin 4096) (rs : Reg)
  | csrwri (c : Fin 4096) (u : α)
  | la (rd : Reg) (s : α)
  | callfar (s : α)
  | li (rd : Reg) (v : α)
  deriving DecidableEq, Repr

/-- The words of `li`, as R73 gives them; `fuel` bounds the steps, and five are enough for a 64-bit value. -/
def liWords (rd : Reg) : Nat → Int → List Instr
  | 0, v => [.addi rd 0 (Fin.ofNat 16384 (v % 16384).toNat)]
  | fuel + 1, v =>
    if -8192 ≤ v ∧ v ≤ 8191 then [.addi rd 0 (Fin.ofNat 16384 (v % 16384).toNat)]
    else liWords rd fuel (v / 2 ^ 13) ++ [.slli rd rd 13] ++
      (if v % 2 ^ 13 = 0 then [] else [.ori rd rd (Fin.ofNat 16384 (v % 2 ^ 13).toNat)])

/-- The words of a pseudo-instruction whose first word stands at an address; none for an error (R66, R73, R74). -/
def pseudoWords (at_ : Int) : Pseudo Int → Option (List Instr)
  | .nop => some [.addi 0 0 0]
  | .mv rd rs => some [.addi rd rs 0]
  | .not rd rs => some [.xori rd rs 16383]
  | .neg rd rs => some [.sub rd 0 rs]
  | .beqz rs t => (asmOff14 t at_).map (fun o => [.beq rs 0 o])
  | .bnez rs t => (asmOff14 t at_).map (fun o => [.bne rs 0 o])
  | .j t => (asmOff19 t at_).map (fun o => [.jal 0 o])
  | .call t => (asmOff19 t at_).map (fun o => [.jal 1 o])
  | .ret => some [.jalr 0 1 0]
  | .csrwr c rs => some [.csrst 0 rs c]
  | .csrwri c u => (asmUns 5 u).map (fun n => [.csrsti 0 (Fin.ofNat 32 n) c])
  | .la rd s => match asmImm19 (pchi (s - at_)), asmImm14 (pclo (s - at_)) with
    | some h, some l => some [.auipc rd h, .addi rd rd l]
    | _, _ => none
  | .callfar s => match asmImm19 (pchi (s - at_)), asmImm14 (pclo (s - at_)) with
    | some h, some l => some [.auipc 1 h, .jalr 1 1 l]
    | _, _ => none
  | .li rd v => some (liWords rd 5 v)

/-- An assigned number of R49, on a hart or on a control core. -/
def csrKnown (n : Nat) : Bool :=
  (csrMode (Agent.fresh (.hart ⟨0, 0, 0⟩)) n).isSome || (csrMode (Agent.fresh (.cc 0)) n).isSome

/-- The register that a csr instruction names. -/
def csrOf : Instr → Option Nat
  | .csrld _ c | .csrst _ _ c | .csrbset _ _ c | .csrbclr _ _ c | .csrsti _ _ c | .csrbseti _ _ c | .csrbclri _ _ c => some c.val
  | _ => none

/-- The assembler takes a word at a place (R67): only an absent feature, or a mode, may keep it from being an instruction. The steps
that are no words encode as 0, which test 1 refuses. -/
def asmTakes (p : Place) (i : Instr) : Bool := encode i != 0 && check3 p i && check5 p i && (csrOf i).all csrKnown

/-! ### Fields of a statement (R66, R74) -/

/-- The fields that hold a number: signed immediates, the unsigned one of `lhi` (spec/05_scalar_ops.md R109), targets, shift amounts,
the immediate of a csr form, the length and the granule of `setvl`, the offset of a memory port, the distance of a `delay`, and the
engine and stream of an engine node. These are the operands that may be expressions (R66); the integers that select a row of `vaccrd`
and `vaccwr` (spec/07_matrix.md R161) and a part of `vcvt`, `vpack` and `vunpack` (spec/06_vector_arith.md R136) are plain numbers of
the instruction (DESIGN CHOICE, log 43). -/
inductive AsmFld where
  | imm14 | imm19 | uimm19 | off14 | off19 | sh6 | sh5 | uimm5 | len14 | gexp | off9 | dist | engine | stream
  deriving DecidableEq, Repr

/-- The lowest bit of a field (R36). -/
def AsmFld.lo : AsmFld → Nat
  | .uimm5 => 14
  | .off9 => 55
  | .stream => 2
  | _ => 0

/-- What a field holds for a value, in a word at an address; none where it does not fit (R66). -/
def AsmFld.code (f : AsmFld) (at_ v : Int) : Option Nat :=
  match f with
  | .imm14 => (asmImm14 v).map (fun x => x.val)
  | .imm19 => (asmImm19 v).map (fun x => x.val)
  | .uimm19 => asmUns 19 v
  | .off14 => (asmOff14 v at_).map (fun x => x.val)
  | .off19 => (asmOff19 v at_).map (fun x => x.val)
  | .sh6 => asmUns 6 v
  | .sh5 => asmUns 5 v
  | .uimm5 => asmUns 5 v
  | .len14 => asmUns 14 v
  | .gexp => asmUns 4 v
  | .off9 => if -256 ≤ v ∧ v ≤ 255 then some (v % 512).toNat else none
  | .dist => asmUns 8 (v - 1)
  | .engine => asmUns 2 v
  | .stream => asmUns 3 v

/-- The field that an operand fills in an instruction: the immediate of `lhi` is unsigned (spec/05_scalar_ops.md R109). -/
def AsmFld.within (i : Instr) (f : AsmFld) : AsmFld :=
  match i, f with
  | .lhi _ _, .imm19 => .uimm19
  | _, f => f

/-- A numeric operand: an expression, or `%pchi` or `%pclo` of one. -/
inductive AsmArg where
  | val (e : AsmExpr)
  | pchi (e : AsmExpr)
  | pclo (e : AsmExpr)
  deriving DecidableEq, Repr

/-- What a statement is: nothing, a section, an alignment, data of a width, `.equ`, `.global`, `.entry`, a word whose numeric fields
are zero with what goes into them, a pseudo-instruction, and the two ends of a chain block (R70). -/
inductive AsmStmt where
  | empty
  | text
  | data
  | align (e : AsmExpr)
  | bytes (width : Nat) (es : List AsmExpr)
  | equ (name : String) (e : AsmExpr)
  | global (name : String)
  | entry (name : String)
  | word (i : Instr) (nums : List (AsmFld × AsmArg))
  | pseudo (p : Pseudo AsmExpr)
  | chain (name : String) (cid strip inflight : AsmExpr)
  | endchain
  deriving DecidableEq, Repr

/-- A line: its labels, its local labels and its statement (R62, R63). -/
structure AsmLine where
  labels : List String
  locals : List Nat
  stmt   : AsmStmt
  deriving DecidableEq, Repr

/-- A statement with its place: its line, whether in .text, whether in a chain block, the padding before it, its address, and the
bytes that it has already when it is placed. -/
structure AsmPlaced where
  line   : Nat
  text   : Bool
  inside : Bool
  pad    : List Byte
  at_    : Nat
  fixed  : List Byte
  stmt   : AsmStmt
  deriving DecidableEq, Repr

/-- A file part-way placed: the section in force, the location counters, whether a chain block is open, the symbols, and what
stands. -/
structure AsmState where
  inText : Bool
  textAt : Nat
  dataAt : Nat
  inside : Bool
  env    : AsmEnv
  placed : List AsmPlaced
  deriving DecidableEq, Repr

/-! ### Placing (R70-R72) -/

/-- Bytes of the padding word of .text. -/
def padWord : List Byte := leBytes 4 0x04000000

/-- The padding from a location to a multiple of `m` (R70): in .text zero bytes to a multiple of 4, then words. -/
def padTo (text : Bool) (at_ m : Nat) : List Byte :=
  let n := (m - at_ % m) % m
  if text then List.replicate (n % 4) 0#8 ++ (List.replicate (n / 4) padWord).flatten else List.replicate n 0#8

/-- The header of a chain block (spec/13_chains.md R281); none where an operand is out of range. -/
def chainHeader (cid strip inflight : Int) (nodes : Nat) : Option Nat :=
  if 0 ≤ cid ∧ cid < 256 ∧ 1 ≤ inflight ∧ inflight ≤ 8 ∧ 1 ≤ nodes ∧ nodes ≤ 64 then
    match (List.range 16).find? (fun k => (2 ^ k : Int) == strip) with
    | some k => some (cid.toNat * 2 ^ 16 + (inflight - 1).toNat * 2 ^ 12 + k * 2 ^ 8 + nodes)
    | none => none
  else none

/-- The location counter of the section in force. -/
def AsmState.at_ (st : AsmState) : Nat := if st.inText then st.textAt else st.dataAt
/-- The section in force. -/
def AsmState.sec (st : AsmState) : AsmSec := if st.inText then .text else .data
/-- The location counter moves to an address. -/
def AsmState.moveTo (st : AsmState) (n : Nat) : AsmState :=
  if st.inText then { st with textAt := n } else { st with dataAt := n }

/-- A symbol is defined, unless it is defined already (R63). -/
def AsmState.define (st : AsmState) (name : String) (v : AsmValue) : Option AsmState :=
  if st.env.syms.any (fun p => p.1 == name) then none
  else some { st with env := { st.env with syms := st.env.syms ++ [(name, v)] } }

/-- The padding of a `.align` (R70); none where its operand is an error. -/
def AsmState.alignPad (st : AsmState) (line : Nat) (e : AsmExpr) : Option (List Byte) :=
  match asmAbsolute st.env line { kind := .label st.sec, val := st.at_ } e with
  | some n => if n < 0 ∨ 16 < n ∨ (st.inText ∧ n < 2) then none else some (padTo st.inText st.at_ (2 ^ n.toNat))
  | none => none

/-- The value of a `.equ` (R70); none where its expression is an error. `.` in it is the location counter, before any padding that the
next item needs: a `.equ` has no address of its own, and R68 names none for it (DESIGN CHOICE, log 43). -/
def AsmState.equate (st : AsmState) (line : Nat) (name : String) (e : AsmExpr) : Option AsmState :=
  (asmAbsolute st.env line { kind := .label st.sec, val := st.at_ } e).bind (fun v => st.define name { kind := .abs, val := v })

/-- The address that a label takes before some statements, the first of them on a line (R63, R71): that of the next item, after the
padding that the item needs, or the location counter where a section directive or the end of the file comes first. A `.align` or a
datum that emits nothing is no item. One that emits padding is: the label stands before its padding (DEDUCED, log 43). A `.equ` on the
way counts where its value does not wait on the label itself (log 43). -/
def AsmState.nextAddr (st : AsmState) (line : Nat) : List AsmStmt → Nat
  | [] => st.at_
  | x :: rest => match x with
    | .empty | .global _ | .entry _ => st.nextAddr (line + 1) rest
    | .equ name e => ((st.equate line name e).getD st).nextAddr (line + 1) rest
    | .align e => if st.alignPad line e = some [] then st.nextAddr (line + 1) rest else st.at_
    | .bytes _ es => if es.isEmpty then st.nextAddr (line + 1) rest else st.at_
    | .word i _ => st.at_ + (padTo st.inText st.at_ i.len).length
    | .pseudo _ => st.at_ + (padTo st.inText st.at_ 4).length
    | .chain _ _ _ _ => st.at_ + (padTo st.inText st.at_ 8).length
    | .text | .data | .endchain => st.at_

/-- The labels of a line take an address (R63). -/
def AsmState.label (st : AsmState) (line : Nat) (l : AsmLine) (n : Nat) : Option AsmState :=
  let v : AsmValue := { kind := .label st.sec, val := n }
  (l.labels.foldl (fun a x => a.bind (fun st => st.define x v)) (some st)).map (fun st => { st with
    env := { st.env with locals := st.env.locals ++ l.locals.map (fun n => (n, line, v)) } })

/-- Place an item of `size` bytes after some padding, on a line. -/
def AsmState.item (st : AsmState) (line : Nat) (pad : List Byte) (size : Nat) (fixed : List Byte) (x : AsmStmt) : AsmState :=
  let n := st.at_ + pad.length
  { st.moveTo (n + size) with
    placed := st.placed ++ [{ line := line, text := st.inText, inside := st.inside, pad := pad, at_ := n, fixed := fixed, stmt := x }] }

/-- Words that stand before the end of the block (R72). -/
def nodeCount : List AsmLine → Nat
  | [] => 0
  | l :: r => match l.stmt with
    | .endchain => 0
    | .word _ _ => nodeCount r + 1
    | _ => nodeCount r

/-- Words of a pseudo-instruction. `li` needs its value when it is placed (DEDUCED, log 43). -/
def pseudoLen (st : AsmState) (line : Nat) : Pseudo AsmExpr → Option Nat
  | .la _ _ | .callfar _ => some 2
  | .li rd v => (asmAbsolute st.env line { kind := .label st.sec, val := st.nextAddr line [.pseudo (.li rd v)] } v).map (fun x => (liWords rd 5 x).length)
  | _ => some 1

/-- Place a statement of a line; `rest` are the lines after it. None for an error. The operands of `.align` and `.chain`, whose bytes
are fixed when they are placed, name symbols defined earlier in the file, as R70 asks of `.equ`, and in them `.` is the location
counter before the padding, not the address of the header or of what follows (DESIGN CHOICE, log 43). -/
def placeStmt (st : AsmState) (line : Nat) (rest : List AsmLine) (x : AsmStmt) : Option AsmState :=
  let here : AsmValue := { kind := .label st.sec, val := st.at_ }
  if st.inside then
    match x with
    | .empty => some st
    | .word i _ => match nodeOf i with
      | some (op, _) => if op = .stop then none else some (st.item line [] 8 [] x)
      | none => none
    | .endchain => some { st.item line [] 8 (leBytes 8 0xE1000000) x with inside := false }
    | _ => none
  else match x with
    | .empty => some st
    | .text => some { st with inText := true }
    | .data => some { st with inText := false }
    | .align e => (st.alignPad line e).map (fun p => st.item line [] p.length p x)
    | .bytes w es => if [1, 2, 4, 8].contains w then some (st.item line [] (w * es.length) [] x) else none
    | .equ name e => st.equate line name e
    | .global _ => some st
    | .entry _ => some st
    | .word i _ => if st.inText && st.at_ % 4 != 0 then none else some (st.item line (padTo st.inText st.at_ i.len) i.len [] x)
    | .pseudo p => match pseudoLen st line p with
      | some n => if st.inText && st.at_ % 4 != 0 then none else some (st.item line (padTo st.inText st.at_ 4) (4 * n) [] x)
      | none => none
    | .chain name cid strip inflight =>
      match asmAbsolute st.env line here cid, asmAbsolute st.env line here strip, asmAbsolute st.env line here inflight with
      | some c, some s, some f =>
        (chainHeader c s f (nodeCount rest)).bind (fun h =>
          (st.define name { kind := .label st.sec, val := st.nextAddr line [x] }).map (fun st =>
            { st.item line (padTo st.inText st.at_ 8) 8 (leBytes 8 h) x with inside := true }))
      | _, _, _ => none
    | .endchain => none

/-- Place the lines of a file from a line number, the labels of a line before its statement. None for an error, an open block among
them. -/
def placeLines (st : AsmState) (line : Nat) : List AsmLine → Option AsmState
  | [] => if st.inside then none else some st
  | l :: rest =>
    match (st.label line l (st.nextAddr line (l.stmt :: rest.map (fun x => x.stmt)))).bind (fun st => placeStmt st line rest l.stmt) with
    | some s => placeLines s (line + 1) rest
    | none => none

/-! ### Emitting (R66, R67, R70, R74) -/

/-- The expression whose `%pchi` an `auipc` statement holds. -/
def pchiOf : AsmStmt → Option AsmExpr
  | .word (.auipc _ _) [(.imm19, .pchi e)] => some e
  | _ => none

/-- What an operand puts into its field, after the statement `prev` that ends where the word begins. Relocatable values stand in
targets and under `%pchi` and `%pclo` (R69, R74, R76); `%pchi` in an `auipc`, `%pclo` right after the `auipc` with `%pchi` of the same
expression. What may stand between the two is a choice (DESIGN CHOICE, log 43): no statement that has a place in the section, a
`.align` or a datum that emits nothing among them, but a `.equ`, `.global` or `.entry`, or a section directive and one back, which have
no place. -/
def fieldCode (env : AsmEnv) (p : AsmPlaced) (prev : Option AsmPlaced) (i : Instr) (f : AsmFld) (a : AsmArg) : Option Nat :=
  let here : AsmValue := { kind := .label (if p.text then .text else .data), val := p.at_ }
  match a with
  | .val e =>
    (if f = .off14 ∨ f = .off19 then (asmEval env p.line here e).map (fun v => v.val) else asmAbsolute env p.line here e).bind ((f.within i).code p.at_)
  | .pchi e => match i, f with
    | .auipc _ _, .imm19 => (asmEval env p.line here e).bind (fun v => relocValue .pchi19 v.val 0 p.at_)
    | _, _ => none
  | .pclo e =>
    if f = .imm14 ∧ (prev.bind (fun q => pchiOf q.stmt)) = some e ∧ prev.any (fun q => q.text == p.text && q.at_ + 4 == p.at_) then
      (asmEval env p.line here e).bind (fun v => relocValue .pclo14 v.val 0 p.at_)
    else none

/-- The instruction whose word this is, its features apart. -/
def instrOf (w : Nat) : Option Instr :=
  if w / 2 ^ 30 % 4 = 3 then (vopOf (w / 2 ^ 24 % 64) (w / 2 ^ 32 % 1024) (vwordOf w)).map (fun op => op.instr (vwordOf w))
  else cand32 w

/-- The bytes of a word that the assembler takes at a place (R67). -/
def asmWord (pl : Place) (w : Nat) : Option (List Byte) :=
  match instrOf w with
  | some i => if encode i = w ∧ asmTakes pl i then some (leBytes i.len w) else none
  | none => none

/-- A pseudo-instruction with its expressions evaluated; a value of `li` is absolute. -/
def evalPseudo (env : AsmEnv) (line : Nat) (here : AsmValue) : Pseudo AsmExpr → Option (Pseudo Int)
  | .nop => some .nop
  | .mv rd rs => some (.mv rd rs)
  | .not rd rs => some (.not rd rs)
  | .neg rd rs => some (.neg rd rs)
  | .beqz rs t => (asmEval env line here t).map (fun v => .beqz rs v.val)
  | .bnez rs t => (asmEval env line here t).map (fun v => .bnez rs v.val)
  | .j t => (asmEval env line here t).map (fun v => .j v.val)
  | .call t => (asmEval env line here t).map (fun v => .call v.val)
  | .ret => some .ret
  | .csrwr c rs => some (.csrwr c rs)
  | .csrwri c u => (asmAbsolute env line here u).map (fun v => .csrwri c v)
  | .la rd s => (asmEval env line here s).map (fun v => .la rd v.val)
  | .callfar s => (asmEval env line here s).map (fun v => .callfar v.val)
  | .li rd v => (asmAbsolute env line here v).map (fun x => .li rd x)

/-- A datum of a width in bytes (R70, R76): an absolute value in the signed or unsigned range of the width, or a relocatable one in
eight bytes or in four that hold it. -/
def dataBytes (w : Nat) (v : AsmValue) : Option (List Byte) :=
  if v.kind = .abs then
    if -2 ^ (8 * w - 1) ≤ v.val ∧ v.val < 2 ^ (8 * w) then some (leBytes w (v.val % 2 ^ (8 * w)).toNat) else none
  else if w = 8 then (relocValue .abs64 v.val 0 0).map (leBytes 8)
  else if w = 4 then (relocValue .abs32 v.val 0 0).map (leBytes 4)
  else none

/-- The bytes of a placed statement, its padding apart; none for an error. -/
def emitStmt (env : AsmEnv) (prev : Option AsmPlaced) (p : AsmPlaced) : Option (List Byte) :=
  let here : AsmValue := { kind := .label (if p.text then .text else .data), val := p.at_ }
  match p.stmt with
  | .word i nums =>
    (allSome (nums.map (fun n => (fieldCode env p prev i n.1 n.2).map (fun v => v * 2 ^ n.1.lo)))).bind (fun vs =>
      asmWord (if p.inside then .chain else .inline) (vs.foldl (· + ·) (encode i)))
  | .pseudo q =>
    ((evalPseudo env p.line here q).bind (pseudoWords p.at_)).bind (fun ws =>
      (allSome (ws.map (fun i => asmWord .inline (encode i)))).map (fun l => l.flatten))
  | .bytes w es => (allSome (es.map (fun e => (asmEval env p.line here e).bind (dataBytes w)))).map (fun l => l.flatten)
  | _ => some p.fixed

/-- The bytes of a section: those of its placed statements in order, each after its padding. -/
def emitAll (env : AsmEnv) (prev : Option AsmPlaced) : List AsmPlaced → Option (List Byte)
  | [] => some []
  | p :: l => match emitStmt env prev p, emitAll env (some p) l with
    | some b, some r => some (p.pad ++ b ++ r)
    | _, _ => none

/-- What a file assembles to (R75): its sections, its symbols, the names it exports, and the addresses of its entry symbols. -/
structure AsmObject where
  text    : List Byte
  data    : List Byte
  syms    : List (String × AsmValue)
  exports : List String
  entries : List Int
  deriving DecidableEq, Repr

/-- The address of an entry symbol (R70): a label of .text at a multiple of 4. -/
def entryAddr (env : AsmEnv) (name : String) : Option Int :=
  match env.syms.find? (fun p => p.1 == name) with
  | some (_, v) => if v.kind = .label .text ∧ v.val % 4 = 0 then some v.val else none
  | none => none

/-- Names that a file exports: those of `.global` and `.entry`, each a symbol of the file: `.global` of a name that the file does not
define is an error (DESIGN CHOICE, log 43). -/
def exportName (env : AsmEnv) (l : AsmLine) : Option (Option String) :=
  match l.stmt with
  | .global x => if env.syms.any (fun p => p.1 == x) then some (some x) else none
  | .entry x => (entryAddr env x).map (fun _ => some x)
  | _ => some none

/-- Assemble a file whose sections lie at two addresses, with the symbols of other objects; none where the assembler or the linker
reports an error, which suppresses the whole (R67). -/
def assemble (textBase dataBase : Nat) (others : List (String × Int)) (lines : List AsmLine) : Option AsmObject :=
  let st : AsmState :=
    { inText := true, textAt := textBase, dataAt := dataBase, inside := false, env := { syms := [], locals := [] }, placed := [] }
  match placeLines st 0 lines with
  | none => none
  | some st =>
    let free := others.filter (fun p => !st.env.syms.any (fun q => q.1 == p.1))
    let env := { st.env with syms := st.env.syms ++ free.map (fun p => (p.1, { kind := .label (.other p.1), val := p.2 })) }
    match emitAll env none (st.placed.filter (fun p => p.text)), emitAll env none (st.placed.filter (fun p => !p.text)),
      allSome (lines.map (exportName st.env)) with
    | some t, some d, some names => some
      { text := t, data := d, syms := st.env.syms, exports := names.filterMap id
        entries := lines.filterMap (fun l => match l.stmt with
          | .entry x => entryAddr st.env x
          | _ => none) }
    | _, _, _ => none

end

end Machine
end Sys2Proof
end

