-- ==== Sys2Proof/Machine/Consistency.lean ====
section
/-! DEFINITION. The consistency model (spec/11_consistency.md R230-R253): an execution as a finite list of accesses with where
each read takes its value from and the coherence order of the writes, the relations of R233, and the conditions R236-R238. A
run of `step` performs the accesses of all agents one after another; its executions are sequential (log 2). -/

namespace Sys2Proof
namespace Machine

/-! ### Who accesses what -/

/-- A party with accesses (R230). The two agents of a hart have one program order; `engine die 3` is the collective engine. -/
inductive Party where
  | hart (h : HartId)
  | cc (n : Fin 32)
  | engine (die : Fin 8) (n : Fin 4)
  | kiln
  | outside
  deriving DecidableEq, Repr

/-- The scopes of R232, in the order of their codes. -/
inductive Scope where
  | hart | core | die | package | system
  deriving DecidableEq, Repr

/-- A place in program order (R231, R248): the instruction, and for a run the strip, reads (0) before writes (1) of the strip,
the block-order number of the node, and the element. -/
structure Spot where
  instr : Nat
  strip : Nat
  phase : Nat
  port  : Nat
  elem  : Nat
  deriving DecidableEq, Repr

/-- A unit of single-copy atomicity (R239): its first half-byte and the number of its half-bytes. -/
structure MUnit where
  at_  : Nat
  size : Nat
  deriving DecidableEq, Repr

/-- The forms of access that R239 tells apart. -/
inductive UnitForm where
  | scalar | element | nibble | payload | scales | thresher | engine
  deriving DecidableEq, Repr

/-- An access (R231), or a piece of one: `whole` is its unit of R239, and `unit` the part that the piece covers (`divide`).
`vec`: by the vector agent of its hart. `run`: by an engine for a request of a run of this hart, at a place of the run. `atom`: of
a scalar atomic, with its `.aq` and `.rl`. `tile`: of tile memory. `cmd`: performed by an engine for this command or request.
`total`: the total of a `winnow` (R275). `task`: of a task, its entry. `signal`: Kiln's completion signal of an entry. `covers`:
Kiln's read of a write index, with the entries it covers; `entry`: Kiln's access to the slot of an entry (R252). `via`: the
cached translation it used (spec/16_isolation.md R362). `loose`: of an element of an inline `vsrdu`, whose updates come in any order
(spec/12_atomics_engines.md R259). -/
structure MemAccess where
  party  : Party
  vec    : Bool
  run    : Option HartId
  place  : Spot
  form   : UnitForm
  whole  : MUnit
  unit   : MUnit
  write  : Bool
  value  : Nat
  atom   : Option (Bool × Bool)
  tile   : Bool
  cmd    : Option Nat
  total  : Bool
  task   : Option Nat
  signal : Option Nat
  covers : List Nat
  entry  : Option Nat
  via    : Option Nat
  loose  : Bool
  deriving DecidableEq, Repr

/-- The four fences (R241). -/
inductive FenceKind where
  | sv | vs | vv | all
  deriving DecidableEq, Repr

/-- What a party does at a place that orders accesses: a fence (R241), the issue of a command or request (R245), its
consumption inline, by `ewait` or `clwait` where `waited`, else by `estat`, or in a chain (R246), an arrival-chained load (spec/10_memory.md R225), the consumption of a link element
that the strip of a run of a sender sent, with the earlier runs of the sender's chain (R251), the submission of an entry (R252), the
arrival at and release from a generation of `gbar` or of `tbar` (spec/14_harts_kiln.md R318), a `tlbinv`, with the cached translations
it discards (spec/16_isolation.md R363), and a command of `OBJCMD` (spec/16_isolation.md R370). -/
inductive Point where
  | fence (k : FenceKind) (s : Scope)
  | tlbinv (discarded : List Nat)
  | command
  | issue (cmd : Nat)
  | consume (cmd : Nat) (waited : Bool)
  | eresp (cmd : Nat)
  | arrival
  | take (sender : Party) (run strip : Nat) (earlier : List Nat)
  | enq (entry : Nat)
  | barrier (generation : Nat) (tbar : Bool)
  deriving DecidableEq, Repr

/-- A point at a place of a party. -/
structure PointAt where
  party : Party
  place : Spot
  what  : Point
  deriving DecidableEq, Repr

/-- An operation of a party, an instruction or a node at a strip, as R235 and R251 see it: the registers it computes its results
from (`reads`) and its results (`writes`); of an access, those of the base, strides, index and offset (`addr`), of the value
written (`data`) and of the mask or selector (`mask`); of a scalar branch, those of the condition (`branch`). g registers are 0-31,
v registers 32-63, m registers 64-71, and from 128 on what a chain's graph carries: its queues, and what its nodes carry. A
result that keeps part of its old value is among `reads`. -/
structure OpUse where
  party  : Party
  place  : Spot
  reads  : List Nat
  writes : List Nat
  addr   : List Nat
  data   : List Nat
  mask   : List Nat
  branch : List Nat
  deriving DecidableEq, Repr

/-- An execution (R233). `ops` lists the operations, those of a party in program order; `source` lists for each access the write
that a read takes its value from, none for the initial value; `co` lists the writes, those of one unit in their coherence order;
`decs` names the entries whose completion decremented another's counter (R252); `init` the initial half-bytes by their addresses,
zero where it lists none. -/
structure Execution where
  accs   : List MemAccess
  ops    : List OpUse
  points : List PointAt
  decs   : List (Nat × Nat)
  init   : List (Nat × Nat)
  source : List (Option Nat)
  co     : List Nat
  deriving DecidableEq, Repr

/-- A party belongs to a scope as seen by another (R232), the die of an engine being the one it serves. A control core has no hart of its
core but itself. -/
def inScope (p : Party) (s : Scope) (q : Party) : Bool :=
  match s with
  | .system => true
  | .package => q != .outside
  | .hart => q = p
  | .core => q = p || (match p, q with
    | .hart a, .hart b => a.die == b.die && a.core == b.core
    | _, _ => false)
  | .die => q = p || (match p, q with
    | .hart a, .hart b => a.die == b.die
    | .hart a, .engine d _ | .engine d _, .hart a => a.die == d
    | .engine d _, .engine d' _ => d == d'
    | _, _ => false)

/-- The code of a scope (R232). -/
def Scope.code : Scope → Nat
  | .hart => 0
  | .core => 1
  | .die => 2
  | .package => 3
  | .system => 4

/-- The smallest scope of a fence that holds every agent taking part (R244). -/
def smallestScope (p : Party) (qs : List Party) : Scope :=
  if qs.all (inScope p .hart) then .hart
  else if qs.all (inScope p .core) then .core
  else if qs.all (inScope p .die) then .die
  else if qs.all (inScope p .package) then .package
  else .system

/-! ### Units (R239) -/

/-- The units of an access of n bytes at an address; `nibble` takes the address in half-bytes. -/
def unitsOf (f : UnitForm) (addr n : Nat) : List MUnit :=
  match f with
  | .scalar | .element => [{ at_ := 2 * addr, size := 2 * n }]
  | .nibble => [{ at_ := addr, size := 1 }]
  | .payload => (List.range n).map (fun k => { at_ := 2 * (addr + k), size := 2 })
  | .scales => (List.range (n / 2)).map (fun k => { at_ := 2 * (addr + 2 * k), size := 4 })
  | .thresher => (List.range ((addr + n + 3) / 4 - addr / 4)).map (fun k => { at_ := 8 * (addr / 4 + k), size := 8 })
  | .engine =>
    let lo := (addr + 7) / 8 * 8
    let hi := (addr + n) / 8 * 8
    if hi ≤ lo then (List.range n).map (fun k => { at_ := 2 * (addr + k), size := 2 })
    else (List.range (lo - addr)).map (fun k => { at_ := 2 * (addr + k), size := 2 })
      ++ (List.range ((hi - lo) / 8)).map (fun k => { at_ := 2 * (lo + 8 * k), size := 16 })
      ++ (List.range (addr + n - hi)).map (fun k => { at_ := 2 * (hi + k), size := 2 })

/-- Two units overlap. -/
def MUnit.meets (u v : MUnit) : Bool := u.at_ < v.at_ + v.size && v.at_ < u.at_ + u.size

/-- The accesses of a transfer of n bytes at an address: one for each of its units, with its part of the value. -/
def accessesOf (a : MemAccess) (addr n value : Nat) : List MemAccess :=
  let us := unitsOf a.form addr n
  us.map (fun u => { a with whole := u, unit := u, value := value / 16 ^ (u.at_ - ((us.head?.map MUnit.at_).getD 0)) % 16 ^ u.size })

/-- A unit is one of its form. -/
def unitOk (f : UnitForm) (u : MUnit) : Bool := unitsOf f (if f = .nibble then u.at_ else u.at_ / 2) (u.size / 2) == [u]

/-- The pieces of an access, of some half-bytes each. -/
def pieces (grain : Nat) (a : MemAccess) : List MemAccess :=
  (List.range (a.unit.size / grain)).map (fun k =>
    { a with unit := { at_ := a.unit.at_ + grain * k, size := grain }, value := a.value / 16 ^ (grain * k) % 16 ^ grain })

/-- An access overlaps another without covering the same unit. -/
def overlaps (l : List MemAccess) (a : MemAccess) : Bool := l.any (fun b => a.unit.meets b.unit && a.unit != b.unit)

/-- Accesses that overlap without covering the same unit are atomic only per byte with respect to each other (R239): each is
divided into its bytes, or into half-bytes where an access to half a byte is one of them. `wholeOk` says what stays atomic. -/
def divide (l : List MemAccess) : List MemAccess :=
  let grain := if l.any (fun a => a.unit.size == 1 && overlaps l a) then 1 else 2
  l.flatMap (fun a => if overlaps l a then pieces grain a else [a])

/-- Two pieces are of one access. -/
def samePart (a b : MemAccess) : Bool :=
  a.party = b.party && a.place == b.place && a.write == b.write && a.whole == b.whole && a.cmd == b.cmd

/-! ### Program order and dependencies -/

/-- A place comes before another. -/
def Spot.before (p q : Spot) : Bool :=
  p.instr < q.instr || (p.instr == q.instr && (p.strip < q.strip || (p.strip == q.strip && (p.phase < q.phase ||
    (p.phase == q.phase && (p.port < q.port || (p.port == q.port && p.elem < q.elem)))))))

/-- Two places are of one operation: an instruction, or a node at a strip; its phase and element do not matter. So a dependency through
the queues of a chain is of a node's strip as a whole, as a register carries one whatever the element (R235); that R251's element is
no finer is a DESIGN CHOICE (log 2). -/
def Spot.sameOp (p q : Spot) : Bool := p.instr == q.instr && p.strip == q.strip && p.port == q.port

/-- Who has an access performed: the hart whose run it serves (R248), or its party. -/
def MemAccess.owner (a : MemAccess) : Party :=
  match a.run with
  | some h => .hart h
  | none => a.party

/-- An access of the vector agent, or of an engine in a run's reference order. -/
def MemAccess.lags (a : MemAccess) : Bool := a.vec || a.run.isSome

/-- One access is before another in program order (R231, R233, R248): the read of an atomic or of a scatter-reduce element comes
before its write. Kiln, outside agents and an engine's accesses for an issued command have no program order, and those for a request
of a run stand in the reference order of that run alone: R245 and R246 say what orders them against the hart's other accesses
(DEDUCED, log 2). -/
def po (a b : MemAccess) : Bool :=
  a.owner = b.owner && ((a.run.isNone && b.run.isNone) || a.place.instr == b.place.instr) && (match a.owner with
    | .hart _ | .cc _ => a.place.before b.place || (a.place == b.place && !a.write && b.write)
    | _ => false)

/-- The registers that carry a value after an operation (R235): one that reads a carrier makes what it writes a carrier, and one
that does not ends the carrying of what it writes. g0 carries nothing. -/
def carryOn (regs : List Nat) (u : OpUse) : List Nat :=
  let kept := regs.filter (fun r => !u.writes.contains r)
  if u.reads.any (fun r => regs.contains r) then kept ++ u.writes.filter (fun r => r != 0) else kept

/-- Some operations in program order lead a value that some registers carry to an access at a place: to its address or mask, to
the value it writes, or, for a write, to a scalar branch before it (R235). An operation may be listed again for what comes back to it
(`runOps`). -/
def reaches (y : Spot) (write : Bool) : List Nat → Bool → List OpUse → Bool
  | _, _, [] => false
  | regs, ctrl, u :: us =>
    let from_ (l : List Nat) : Bool := l.any (fun r => regs.contains r)
    (u.place.sameOp y && (from_ u.addr || from_ u.mask || (write && (ctrl || from_ u.data)))) ||
      reaches y write (carryOn regs u) (ctrl || from_ u.branch) us

/-- What an access at a place y uses is computed from what the operation at an earlier place x of the party read or consumed
(R235, R251). -/
def dependsOn (e : Execution) (p : Party) (x y : Spot) (write : Bool) : Bool :=
  match (e.ops.filter (fun u => u.party = p)).dropWhile (fun u => !u.place.sameOp x) with
  | [] => false
  | u :: us => reaches y write (u.writes.filter (fun r => r != 0)) false us

/-! ### The relations of R233 -/

/-- Access i of an execution. -/
def acc? (e : Execution) (i : Nat) : Option MemAccess := e.accs[i]?

/-- A relation of accesses, between accesses i and j of an execution. -/
def at2 (e : Execution) (r : MemAccess → MemAccess → Bool) (i j : Nat) : Bool :=
  match acc? e i, acc? e j with
  | some a, some b => r a b
  | _, _ => false

/-- Two writes to one unit. -/
def writesTo (a b : MemAccess) : Bool := a.write && b.write && a.unit == b.unit

/-- A read, and a write to its unit. -/
def readOf (a b : MemAccess) : Bool := !a.write && b.write && a.unit == b.unit

/-- The read and the write of one atomic or scatter-reduce element (R231). -/
def oneStep (a b : MemAccess) : Bool := readOf a b && a.party = b.party && a.place == b.place

/-- Writes of one engine command in ascending linear index (spec/12_atomics_engines.md R275). -/
def commandOrder (a b : MemAccess) : Bool :=
  a.write && b.write && a.party = b.party && a.cmd.isSome && a.cmd == b.cmd && a.place.before b.place

/-- Where access i takes its value from. -/
def sourceOf (e : Execution) (i : Nat) : Option Nat := (e.source[i]?).getD none

/-- rf: read j returns the value of write i. -/
def rf (e : Execution) (i j : Nat) : Bool := sourceOf e j == some i

/-- Write i is co-before write j of the same unit. -/
def coBefore (e : Execution) (i j : Nat) : Bool :=
  at2 e writesTo i j && decide (e.co.idxOf i < e.co.idxOf j)

/-- fr: write j is co-after the write that read i returns. -/
def fr (e : Execution) (i j : Nat) : Bool :=
  at2 e readOf i j && (match sourceOf e i with
    | none => true
    | some w => coBefore e w j)

/-- The accesses of one hart, or of one control core. Two accesses of an engine, of Kiln or of outside agents are none. -/
def sameHart (a b : MemAccess) : Bool :=
  a.party = b.party && (match a.party with
    | .hart _ | .cc _ => true
    | _ => false)

/-- rfe: an rf pair that is not of one hart. -/
def rfe (e : Execution) (i j : Nat) : Bool := rf e i j && at2 e (fun a b => !sameHart a b) i j

/-- A later access depends on a read (R235). -/
def depends (e : Execution) (a b : MemAccess) : Bool :=
  po a b && !a.write && dependsOn e a.owner a.place b.place b.write

/-- ppo of two accesses in one program order (R234, R235, R250). The read and the write of a scalar atomic count as a scalar load
and a scalar store of R234 (DEDUCED, log 2). -/
def ppo (e : Execution) (a b : MemAccess) : Bool :=
  (po a b && ((!a.lags && !a.write) || (!a.lags && a.write && !b.lags && b.write) ||
    (a.lags && b.lags && a.write && b.write && a.place.instr == b.place.instr && a.place.strip < b.place.strip))) ||
  depends e a b

/-- Two elements of one `vsrdu`: their updates of a unit come in any order (spec/12_atomics_engines.md R259). -/
def anyOrder (a b : MemAccess) : Bool := a.loose && b.loose && a.place.sameOp b.place && a.place.elem != b.place.elem

/-- A pair that R234 marks ordered or coherent at one unit, or two writes of one command (spec/12_atomics_engines.md R275). -/
def coherentPair (a b : MemAccess) : Bool :=
  a.unit == b.unit && ((po a b && !(a.lags && !b.lags) && !anyOrder a b) || commandOrder a b)

/-! ### Fences, atomics and what orders agents (fo) -/

/-- A fence orders two accesses before and after it by their classes (R242). On a control core only `fence.all` has an
effect. -/
def fenceOrders (p : Party) (k : FenceKind) (a b : MemAccess) : Bool :=
  match p, k with
  | _, .all => true
  | .hart _, .sv => !a.vec && b.vec
  | .hart _, .vs => a.vec && !b.vec
  | .hart _, .vv => a.vec && b.vec
  | _, _ => false

/-- The fences of a party that order two of its accesses, at their scopes (R242), and what acts as `fence.all.package`: `tlbinv` and
a command of `OBJCMD` (spec/16_isolation.md R363, R370). -/
def fenceScopes (e : Execution) (a b : MemAccess) : List (Party × Scope) :=
  if a.party != b.party then []
  else e.points.filterMap (fun q =>
    let on (k : FenceKind) : Bool :=
      q.party = a.party && a.place.before q.place && q.place.before b.place && fenceOrders q.party k a b
    match q.what with
    | .fence k s => if on k then some (q.party, s) else none
    | .tlbinv _ | .command => if on .all then some (q.party, .package) else none
    | _ => none)

/-- An atomic orders accesses of its party, at package scope (R240). -/
def atomicScopes (a b : MemAccess) : List (Party × Scope) :=
  if a.party = b.party && po a b &&
     ((match a.atom with
       | some (aq, _) => !b.vec || aq
       | none => false) ||
      (match b.atom with
       | some (_, rl) => !a.vec || rl
       | none => false))
  then [(a.party, .package)] else []

/-- A fence of a kind, at a scope or a wider one, stands between two places of a party. -/
def fencedBetween (e : Execution) (p : Party) (k : FenceKind) (s : Scope) (x y : Spot) : Bool :=
  e.points.any (fun q => q.party = p && x.before q.place && q.place.before y && (match q.what with
    | .fence k' s' => (k' == k || k' == .all) && decide (s.code ≤ s'.code)
    | .tlbinv _ | .command => decide (s.code ≤ Scope.package.code)
    | _ => false))

/-- The scope at which an engine's accesses are ordered (R245, R246). -/
def engineScope : Party → Scope
  | .engine _ n => if n = 3 then .system else .die
  | _ => .die

/-- Access a is a write that an engine performed for a command, or a write that one of the engine's reads for it returned
(R246), with the scope. -/
def engineWrite (e : Execution) (cmd i : Nat) (a : MemAccess) : Option Scope :=
  if !a.write then none
  else if a.cmd == some cmd then some (engineScope a.party)
  else ((List.range e.accs.length).filterMap (fun k => match acc? e k with
    | some r => if r.cmd == some cmd && !r.write && rf e i k then some (engineScope r.party) else none
    | none => none)).head?

/-- A party that performs the copies of spec/10_memory.md R225: the copy engine (`cpy`, `cpyt`, `winnow`) or the gather/scatter engine
(`gsg`, `gss`), and no collective. -/
def copies : Party → Bool
  | .engine _ n => decide (n.val < 2)
  | _ => false

/-- Access a comes before a place of a party: it is the party's own, or an engine's for a command whose `ewait` or `clwait` the party has
executed before (R275, R318); an `estat` that shows the end orders no more than R246 says. -/
def arrivesBefore (e : Execution) (p : Party) (y : Spot) (a : MemAccess) : Bool :=
  (a.party = p && a.place.before y) ||
  (a.cmd.isSome && e.points.any (fun w => w.party = p && w.place.before y && (match w.what with
    | .consume d waited => waited && a.cmd == some d
    | _ => false)))

/-- A place consumes an element of the stream of which a point consumes one, at the point or after it: elements of a stream are
consumed in the order of their requests (R246). -/
def consumesAfter (e : Execution) (q : PointAt) (y : Spot) (holds : Spot → Bool) : Bool :=
  holds q.place || e.points.any (fun w => w.party = q.party && (match w.what with
    | .eresp _ => true
    | _ => false) &&
    w.place.instr == q.place.instr && w.place.port == q.place.port && q.place.before w.place && w.place.before y && holds w.place)

/-- What the points of a party order between access i, which is a, and b (R245, R246, R251, R252; spec/10_memory.md R225;
spec/12_atomics_engines.md R275; spec/14_harts_kiln.md R318; spec/16_isolation.md R363: `tlbinv` waits until every access that
used a discarded translation is performed). An arrival-chained load comes after what the copy forms that its hart issued before it, or before
the `run` it is a node of, write in tile memory (spec/10_memory.md R229), not after a collective or a request of an `ereq`; the order
counts at die scope: the engines are of the die, and the spec names no scope for it (DESIGN CHOICE, log 2). -/
def pointScopes (e : Execution) (i : Nat) (a b : MemAccess) : List (Party × Scope) :=
  e.points.filterMap (fun q =>
    let p := q.party
    match q.what with
    | .fence _ _ | .command => none
    | .tlbinv l =>
      if b.party = p && q.place.before b.place && (match a.via with
        | some v => l.contains v
        | none => false)
      then some (p, .package) else none
    | .issue c =>
      if b.cmd != some c then none
      else
        let s := engineScope b.party
        if a.party = p && a.place.before q.place && (a.vec || fencedBetween e p .sv s a.place q.place) then some (p, s)
        else if a.party != p && arrivesBefore e p q.place a then some (p, s)
        else none
    | .consume c _ =>
      match engineWrite e c i a with
      | some s => if b.party = p && q.place.before b.place && (b.vec || fencedBetween e p .vs s q.place b.place) then some (p, s) else none
      | none => none
    | .eresp c =>
      match engineWrite e c i a with
      | some s =>
        if b.owner = p && b.place.instr == q.place.instr && consumesAfter e q b.place (fun x => dependsOn e p x b.place b.write) then some (p, s) else none
      | none => none
    | .take f run strip earlier =>
      if a.owner = f && a.write && ((a.place.instr == run && a.place.strip ≤ strip) || earlier.contains a.place.instr) && b.owner = p &&
         b.place.instr == q.place.instr && dependsOn e p q.place b.place b.write
      then some (p, if inScope p .die f then .die else .package) else none
    | .arrival =>
      if b.party = p && b.place.sameOp q.place && !b.write && b.tile && a.write && a.tile && a.unit.meets b.unit &&
         copies a.party && a.run.isNone && e.points.any (fun w => w.party = p && w.place.instr < q.place.instr && (match w.what with
           | .issue c => a.cmd == some c
           | _ => false))
      then some (p, .die) else none
    | .enq t =>
      if a.party = p && (if a.place.sameOp q.place then b.task == some t
         else a.place.before q.place && (b.task == some t || (b.party = p && b.place.sameOp q.place)) &&
           (!a.vec || fencedBetween e p .vs .package a.place q.place))
      then some (p, .package) else none
    | .barrier g wide =>
      if b.party = p && q.place.before b.place && e.points.any (fun w =>
          (w.what == .barrier g wide) && arrivesBefore e w.party w.place a)
      then some (p, if a.cmd.isSome then engineScope a.party else if wide then .die else .core) else none)

/-- An access is of an entry's delivery: Kiln's to its slot, or the task's. -/
def delivers (t : Nat) (b : MemAccess) : Bool := b.task == some t || b.entry == some t

/-- What the tasks' course orders (R252): Kiln's read of a write index acquires what the ring's writer wrote before the index, for
the entries it covers, and comes before Kiln's reads of their slots, which come before their tasks. A task comes after the
entries whose completion it waited for and their signals, and its signal after all its harts accessed and its commands wrote.
The total of a `winnow` comes after its element writes (spec/12_atomics_engines.md R275). -/
def taskScopes (e : Execution) (i : Nat) (a b : MemAccess) : List (Party × Scope) :=
  ((List.range e.accs.length).filterMap (fun k => match acc? e k, (sourceOf e k).bind (acc? e) with
    | some r, some x =>
      if r.covers.any (fun t => delivers t b) && a.write && a.party = x.party && (po a x || sourceOf e k == some i)
      then some (.kiln, .package) else none
    | _, _ => none))
  ++ (if a.covers.any (fun t => delivers t b) || (!a.write && a.entry.isSome && a.entry == b.task) then [(.kiln, .package)] else [])
  ++ (e.decs.filterMap (fun d =>
    if (a.task == some d.1 || a.signal == some d.1) && b.task == some d.2 then some (.kiln, .package) else none))
  ++ (if b.signal.isSome && a.task == b.signal && (a.cmd.isNone || a.write) then [(.kiln, .package)] else [])
  ++ (if b.total && !a.total && a.write && a.cmd.isSome && a.cmd == b.cmd then [(b.party, .die)] else [])

/-- fo: what orders access i before access j, each with its party and scope. -/
def fo (e : Execution) (i j : Nat) : List (Party × Scope) :=
  match acc? e i, acc? e j with
  | some a, some b => fenceScopes e a b ++ atomicScopes a b ++ pointScopes e i a b ++ taskScopes e i a b
  | _, _ => []

/-! ### The conditions -/

/-- The pairs of R236 between accesses to one unit. -/
def coherenceEdge (e : Execution) (i j : Nat) : Bool :=
  rf e i j || coBefore e i j || fr e i j || at2 e coherentPair i j ||
    at2 e (fun a b => a.unit == b.unit && !(fenceScopes e a b ++ atomicScopes a b).isEmpty) i j

/-- The pairs along which a value passes: from a write to the read that returns it, and from a read to the write that depends on
it (R238). -/
def valueEdge (e : Execution) (i j : Nat) : Bool :=
  rf e i j || at2 e (fun a b => b.write && depends e a b) i j

/-- The pairs of R237 that hold whatever the cycle. -/
def plainEdge (e : Execution) (i j : Nat) : Bool :=
  rfe e i j || coBefore e i j || fr e i j || at2 e (ppo e) i j

/-- The pairs of R237. -/
def orderEdge (e : Execution) (i j : Nat) : Bool := plainEdge e i j || !(fo e i j).isEmpty

/-- The simple cycles of a relation on 0..n-1 through a path, which is listed from its end, and back to a start. -/
def cyclesFrom (edge : Nat → Nat → Bool) (n start : Nat) : Nat → List Nat → List (List Nat)
  | 0, _ => []
  | _ + 1, [] => []
  | fuel + 1, x :: path =>
    (if edge x start then [x :: path] else []) ++
    (List.range n).flatMap (fun y =>
      if start < y && edge x y && !(x :: path).contains y then cyclesFrom edge n start fuel (y :: x :: path) else [])

/-- The simple cycles of a relation on 0..n-1, each listed from its end. -/
def cycles (edge : Nat → Nat → Bool) (n : Nat) : List (List Nat) :=
  (List.range n).flatMap (fun x => cyclesFrom edge n x n [x])

/-- The pairs of a cycle that is listed from its end. -/
def cyclePairs : List Nat → List (Nat × Nat)
  | [] => []
  | x :: l => (x, (x :: l).getLastD x) :: (l.zip (x :: l))

/-- Every pair of a cycle belongs to the union of R237: a pair of fo belongs when every access of the cycle is by an agent of
its scope. -/
def forbiddenCycle (e : Execution) (c : List Nat) : Bool :=
  (cyclePairs c).all (fun p => plainEdge e p.1 p.2 || (fo e p.1 p.2).any (fun s =>
    c.all (fun z => match acc? e z with
      | some a => inScope s.1 s.2 a.party
      | none => false)))

/-- Coherence (R236). -/
def coherenceOk (e : Execution) : Bool := (cycles (coherenceEdge e) e.accs.length).isEmpty

/-- Order (R237). -/
def orderOk (e : Execution) : Bool := (cycles (orderEdge e) e.accs.length).all (fun c => !forbiddenCycle e c)

/-- No value comes from a cycle of dependencies and reads (R238), within one hart either (DEDUCED, log 2). -/
def causesOk (e : Execution) : Bool := (cycles (valueEdge e) e.accs.length).isEmpty

/-- The initial half-byte at an address. -/
def initAt (e : Execution) (x : Nat) : Nat := ((e.init.find? (fun p => p.1 == x)).map (fun p => p.2 % 16)).getD 0

/-- The initial value of a unit. -/
def initOf (e : Execution) (u : MUnit) : Nat :=
  if e.init.isEmpty then 0 else (List.range u.size).foldr (fun k v => initAt e (u.at_ + k) + 16 * v) 0

/-- Every read returns the initial value or the value of one write to its unit (R238). -/
def valuesOk (e : Execution) : Bool :=
  (List.range e.accs.length).all (fun i => match acc? e i with
    | some a => a.write || (match sourceOf e i with
      | none => a.value == initOf e a.unit
      | some w => match acc? e w with
        | some b => b.write && b.unit == a.unit && b.value == a.value
        | none => false)
    | none => false)

/-- No other write to the unit separates the read and the write of an atomic or of a scatter-reduce element (R231). -/
def atomicOk (e : Execution) : Bool :=
  let n := e.accs.length
  (List.range n).all (fun i => (List.range n).all (fun j => !at2 e oneStep i j ||
    (List.range n).all (fun k => !coBefore e k j || (match sourceOf e i with
      | none => false
      | some w => k == w || coBefore e k w))))

/-- The writes of an execution. -/
def writesOf (e : Execution) : List Nat :=
  (List.range e.accs.length).filter (fun i => ((acc? e i).map (fun a => a.write)).getD false)

/-- `co` orders the writes totally (R233). -/
def coOk (e : Execution) : Bool := e.co.isPerm (writesOf e)

/-- The accesses are of units of R239, or pieces of them, and no two pieces overlap without covering the same part. -/
def partsOk (e : Execution) : Bool :=
  e.accs.all (fun a => unitOk a.form a.whole && decide (a.whole.at_ ≤ a.unit.at_) &&
    decide (a.unit.at_ + a.unit.size ≤ a.whole.at_ + a.whole.size) && !overlaps e.accs a)

/-- A read returns what a write left or a later one. -/
def sees (e : Execution) (i w : Nat) : Bool := sourceOf e i == some w || ((sourceOf e i).map (coBefore e w)).getD false

/-- Of two pieces of one access and two of another, the two pairs at one part each: the accesses are of one unit, or the pieces of
one byte. They must be ordered alike (R239). -/
def tiedParts (e : Execution) (i i' j j' : Nat) : Bool :=
  at2 e samePart i i' && at2 e samePart j j' && !at2 e samePart i j &&
  at2 e (fun a b => a.unit == b.unit) i j && at2 e (fun a b => a.unit == b.unit) i' j' &&
  (at2 e (fun a b => a.whole == b.whole) i j || at2 e (fun a b => a.unit.at_ / 2 == b.unit.at_ / 2) i i')

/-- Single-copy atomicity of what was divided (R239): two writes that share a unit, or a byte, are in one order at all its parts,
and a read sees a write at all of them or at none. -/
def wholeOk (e : Execution) : Bool :=
  e.accs.all (fun a => a.unit == a.whole) ||
  (let l := List.range e.accs.length
   l.all (fun i => l.all (fun i' => l.all (fun j => l.all (fun j' => !tiedParts e i i' j j' ||
     (coBefore e i j == coBefore e i' j' && (!at2 e readOf i j || sees e i j == sees e i' j')))))))

/-- The model allows an execution (R236-R239). -/
def consistent (e : Execution) : Bool :=
  partsOk e && coOk e && valuesOk e && atomicOk e && wholeOk e && coherenceOk e && causesOk e && orderOk e

/-! ### Outcomes -/

/-- The writes from which access i may take its value. -/
def sourcesOf (e : Execution) (i : Nat) : List (Option Nat) :=
  match acc? e i with
  | none => [none]
  | some a =>
    if a.write then [none]
    else (if a.value == initOf e a.unit then [none] else []) ++
      (List.range e.accs.length).filterMap (fun w => match acc? e w with
        | some b => if b.write && b.unit == a.unit && b.value == a.value then some (some w) else none
        | none => none)

/-- Every way to choose one from each of some lists. -/
def choices : List (List (Option Nat)) → List (List (Option Nat))
  | [] => [[]]
  | l :: ls => l.flatMap (fun x => (choices ls).map (fun c => x :: c))

/-- A number at every place of a list. -/
def insertions (x : Nat) : List Nat → List (List Nat)
  | [] => [[x]]
  | y :: l => (x :: y :: l) :: (insertions x l).map (fun m => y :: m)

/-- The orders of a list. -/
def orders : List Nat → List (List Nat)
  | [] => [[]]
  | x :: l => (orders l).flatMap (insertions x)

/-- The half-byte that an execution leaves at an address. -/
def endAt (e : Execution) (x : Nat) : Nat :=
  match ((e.co.filterMap (acc? e)).filter (fun a => a.unit.meets { at_ := x, size := 1 })).getLast? with
  | some a => a.value / 16 ^ (x - a.unit.at_) % 16
  | none => initAt e x

/-- A unit ends at a value. -/
def endsAt (e : Execution) (u : MUnit) (v : Nat) : Bool :=
  (List.range u.size).all (fun k => endAt e (u.at_ + k) == v / 16 ^ k % 16)

/-- An outcome is allowed: some choice of sources and of a coherence order for the accesses, divided as R239 says, in which the
units end as said, is consistent. -/
def outcomeAllowed (e : Execution) (final : List (MUnit × Nat)) : Bool :=
  let e := { e with accs := divide e.accs }
  (choices ((List.range e.accs.length).map (sourcesOf e))).any (fun src => (orders (writesOf e)).any (fun co =>
    let x := { e with source := src, co := co }
    final.all (fun p => endsAt x p.1 p.2) && consistent x))

/-! ### The litmus tables (R253) -/

/-- Hart A, B, C or D: harts on different cores of one die. -/
def litHart (k : Fin 4) : Party := .hart ⟨0, k.castLE (by decide), 0⟩
/-- The words x (0) and y (1). -/
def litWord (n : Nat) : MUnit := { at_ := 0x2000 + 0x1000 * n, size := 16 }
/-- A place of instruction `n`. -/
def litSpot (n : Nat) : Spot where
  instr := n
  strip := 0
  phase := 0
  port := 0
  elem := 0
/-- An access of instruction `n` of a hart to a word. -/
def litAcc (p : Fin 4) (n : Nat) (vec write : Bool) (w v : Nat) : MemAccess where
  party := litHart p
  vec := vec
  run := none
  place := litSpot n
  form := if vec then .element else .scalar
  whole := litWord w
  unit := litWord w
  write := write
  value := v
  atom := none
  tile := false
  cmd := none
  total := false
  task := none
  signal := none
  covers := []
  entry := none
  via := none
  loose := false
/-- "sd" of R253: instruction n stores a value to a word. -/
def litSd (p : Fin 4) (n w v : Nat) : MemAccess := litAcc p n false true w v
/-- "ld" of R253, which reads a value. -/
def litLd (p : Fin 4) (n w v : Nat) : MemAccess := litAcc p n false false w v
/-- "vst" of R253. -/
def litVst (p : Fin 4) (n w v : Nat) : MemAccess := litAcc p n true true w v
/-- "vld" of R253. -/
def litVld (p : Fin 4) (n w v : Nat) : MemAccess := litAcc p n true false w v
/-- The read and the write of an `amoswap` that finds 0. -/
def litSwap (p : Fin 4) (n w v : Nat) : List MemAccess :=
  [{ litLd p n w 0 with atom := some (false, false) }, { litSd p n w v with atom := some (false, false) }]
/-- A fence at an instruction. -/
def litFence (p : Fin 4) (n : Nat) (k : FenceKind) (s : Scope) : PointAt where
  party := litHart p
  place := litSpot n
  what := .fence k s
/-- Instruction `n` of a hart with the registers it reads and writes, and of an access those of its address and of its data. -/
def litOp (p : Fin 4) (n : Nat) (reads writes addr data : List Nat) : OpUse where
  party := litHart p
  place := litSpot n
  reads := reads
  writes := writes
  addr := addr
  data := data
  mask := []
  branch := []
/-- A case of R253: its accesses, the operations with dependencies between them, and the fences. -/
def litmus (accs : List MemAccess) (ops : List OpUse) (fences : List PointAt) : Execution where
  accs := accs
  ops := ops
  points := fences
  decs := []
  init := []
  source := []
  co := []

/-- S1-S7: the case, the final values of words, and whether the outcome is allowed. -/
def litmusScalar : List (Execution × List (MUnit × Nat) × Bool) := [
  (litmus [litSd 0 0 0 1, litSd 0 1 1 1, litLd 1 0 1 1, litLd 1 1 0 0] [] [], [], false),
  (litmus [litSd 0 0 0 1, litLd 0 2 1 0, litSd 1 0 1 1, litLd 1 2 0 0] [] [], [], true),
  (litmus [litSd 0 0 0 1, litLd 0 2 1 0, litSd 1 0 1 1, litLd 1 2 0 0] [] [litFence 0 1 .all .die, litFence 1 1 .all .die], [], false),
  (litmus [litLd 0 0 0 1, litSd 0 1 1 1, litLd 1 0 1 1, litSd 1 1 0 1] [] [], [], false),
  (litmus [litSd 0 0 0 1, litSd 1 0 1 1, litLd 2 0 0 1, litLd 2 1 1 0, litLd 3 0 1 1, litLd 3 1 0 0] [] [], [], false),
  (litmus [litSd 0 0 0 1, litLd 0 1 0 1, litLd 0 2 1 0, litSd 1 0 1 1, litLd 1 1 1 1, litLd 1 2 0 0] [] [], [], true),
  (litmus (litSwap 0 0 0 1 ++ [litLd 0 1 1 0] ++ litSwap 1 0 1 1 ++ [litLd 1 1 0 0]) [] [], [], false)]

/-- SV1-SV9; SV6, SV8 and SV9 without and with their fence. -/
def litmusScalarVector : List (Execution × List (MUnit × Nat) × Bool) := [
  (litmus [litVst 0 0 0 1, litSd 0 2 1 1, litLd 1 0 1 1, litVld 1 1 0 0] [] [], [], true),
  (litmus [litVst 0 0 0 1, litSd 0 2 1 1, litLd 1 0 1 1, litVld 1 1 0 0] [] [litFence 0 1 .vs .die], [], false),
  (litmus [litVst 0 0 0 1, litSd 0 2 1 1, litLd 1 0 1 1, litVld 1 1 0 0] [] [litFence 0 1 .vs .core], [], true),
  (litmus [litSd 0 0 0 1, litVst 0 2 1 1, litLd 1 0 1 1, litLd 1 1 0 0] [] [], [], true),
  (litmus [litSd 0 0 0 1, litVst 0 2 1 1, litLd 1 0 1 1, litLd 1 1 0 0] [] [litFence 0 1 .sv .die], [], false),
  (litmus [litVst 0 0 0 1, litLd 0 2 0 0] [] [], [], true),
  (litmus [litVst 0 0 0 1, litLd 0 2 0 0] [] [litFence 0 1 .vs .hart], [], false),
  (litmus [litSd 0 0 0 1, litVld 0 1 0 0] [] [], [], false),
  (litmus [litVst 0 0 0 1, litSd 0 2 0 2] [] [], [(litWord 0, 1)], true),
  (litmus [litVst 0 0 0 1, litSd 0 2 0 2] [] [litFence 0 1 .vs .hart], [(litWord 0, 1)], false),
  (litmus [litVld 0 0 0 1, litSd 0 2 0 1] [] [], [], true),
  (litmus [litVld 0 0 0 1, litSd 0 2 0 1] [] [litFence 0 1 .vs .hart], [], false)]

/-- VV1-VV7. -/
def litmusVector : List (Execution × List (MUnit × Nat) × Bool) := [
  (litmus [litVst 0 0 0 1, litVst 0 2 1 1, litVld 1 0 1 1, litVld 1 2 0 0] [] [], [], true),
  (litmus [litVst 0 0 0 1, litVst 0 2 1 1, litVld 1 0 1 1, litVld 1 2 0 0] [] [litFence 0 1 .vv .die], [], true),
  (litmus [litVst 0 0 0 1, litVst 0 2 1 1, litVld 1 0 1 1, litVld 1 2 0 0] [] [litFence 0 1 .vv .die, litFence 1 1 .vv .die], [], false),
  (litmus [litVst 0 0 0 1, litVst 0 2 1 1, litVld 1 0 1 1, litVld 1 2 0 0]
    [litOp 1 0 [8] [33] [8] [], litOp 1 1 [33, 33] [34] [] [], litOp 1 2 [9, 34] [35] [9, 34] []] [litFence 0 1 .vv .die], [], false),
  (litmus [litVld 0 0 0 1, litVst 0 1 1 1, litVld 1 0 1 1, litVst 1 1 0 1] [] [], [], true),
  (litmus [litVld 0 0 0 1, litVst 0 1 1 1, litVld 1 0 1 1, litVst 1 1 0 1] 
    [litOp 0 0 [8] [33] [8] [], litOp 0 1 [9, 33] [] [9] [33], litOp 1 0 [9] [33] [9] [], litOp 1 1 [8, 33] [] [8] [33]] [], [], false),
  (litmus [litVst 0 0 0 1, litVst 0 1 0 2, litVld 1 0 0 2, litVld 1 1 0 1] [] [], [], false)]

/-- VV8, in which B reads a and then b. -/
def litVv8 (a b : Nat) : Execution :=
  litmus [litVst 0 0 0 1, { litVst 0 0 0 2 with place := { instr := 0, strip := 0, phase := 0, port := 0, elem := 1 } }, litVld 1 0 0 a, litVld 1 2 0 b]
    [] [litFence 1 1 .vv .die]

/-- T1-T4 of spec/16_isolation.md R363: D is a control core, word 0 the leaf of x and word 1 the flag; what the hart's walk of x reads
of the leaf, and the load of x (word 2) that follows it, by cached translation 7 or by none. -/
def litmusTranslation : List (Execution × List (MUnit × Nat) × Bool) :=
  let cc (m : MemAccess) : MemAccess := { m with party := .cc 0 }
  let inv (q : PointAt) : PointAt := { q with party := .cc 0 }
  let fence := inv (litFence 0 1 .all .package)
  [(litmus [cc (litSd 0 0 0 1), cc (litSd 0 2 1 1), litLd 1 0 1 1, { litLd 1 1 2 0 with via := some 7 }] []
      [inv { litFence 0 1 .all .package with what := .tlbinv [7] }], [], false),
   (litmus [cc (litSd 0 0 0 1), cc (litSd 0 2 1 1), litLd 1 0 1 1, { litLd 1 1 2 0 with via := some 7 }] [] [fence], [], true),
   (litmus [cc (litSd 0 0 0 1), cc (litSd 0 2 1 1), litLd 1 0 1 1, litLd 1 1 0 0] [] [fence], [], false),
   (litmus [cc (litSd 0 0 0 1), cc (litSd 0 2 1 1), litLd 1 0 1 1, litVld 1 1 0 0] [] [fence], [], false)]

/-! ### Sequential executions -/

/-- The last write to the unit of read i before it. -/
def lastWrite (e : Execution) (i : Nat) : Option Nat := ((List.range i).filter (fun w => at2 e readOf i w)).getLast?

/-- The accesses are listed in an order in which they are performed one after another: each read returns the last write before
it, coherence is the order of the list, program order and every pair of fo go forward, so do the writes of one command to one
unit, no write to the unit comes between the read and the write of an atomic or of a scatter-reduce element, and the pieces of
an access stand together. -/
def InSequence (e : Execution) : Prop :=
  partsOk e = true ∧
  (∀ i < e.accs.length, ∀ j < e.accs.length, ∀ k < e.accs.length,
    at2 e samePart i j = false ∨ at2 e samePart i k = true ∨ k ≤ i ∨ j ≤ k) ∧
  (∀ i < e.accs.length, ∀ j < e.accs.length, at2 e po i j = true ∨ fo e i j ≠ [] ∨
    (at2 e commandOrder i j = true ∧ at2 e writesTo i j = true) → i < j) ∧
  (∀ i < e.accs.length, ∀ j < e.accs.length, ∀ k < e.accs.length,
    at2 e oneStep i j = false ∨ at2 e writesTo k j = false ∨ k ≤ i ∨ j ≤ k) ∧
  e.source = (List.range e.accs.length).map (lastWrite e) ∧ e.co = writesOf e ∧ valuesOk e = true

end Machine
end Sys2Proof
end

