-- ==== Sys2Proof/Machine/RegUse.lean ====
section
/-! DEFINITION. What each instruction does with registers, for the dependencies of spec/11_consistency.md R235 and R251: the
registers and queues it computes from and writes, and those of its addresses, stored data, mask and branch condition. -/

namespace Sys2Proof
namespace Machine

/-- The registers and queues of an operation, as `OpUse` numbers them. -/
structure Uses where
  reads  : List Nat
  writes : List Nat
  addr   : List Nat
  data   : List Nat
  mask   : List Nat
  branch : List Nat
  deriving DecidableEq, Repr

/-- The numbers of g registers. -/
def gs (rs : List Reg) : List Nat := rs.map (fun r => r.val)
/-- The number of a register unit. -/
def RegUnit.key : RegUnit → Nat
  | .g r => r
  | .v r _ => 32 + r
  | .m n => 64 + n
  | .acc _ _ => 0
/-- The number of a v register or queue that a field of a node word names: 0-31 a register, from 32 on a queue. -/
def placeKey (n : Nat) : Nat := if n < 32 then 32 + n else 96 + n
/-- The number of what a source field names. -/
def fieldKey (f : Fin 512) : Nat := placeKey (if srcQ f then 32 + srcN f else srcN f)

/-- No register. -/
def noUse : Uses where
  reads := []
  writes := []
  addr := []
  data := []
  mask := []
  branch := []
/-- An instruction that reads and writes g registers. -/
def plainUse (reads writes : List Reg) : Uses := { noUse with reads := gs reads, writes := gs writes }
/-- A scalar load. -/
def loadUse (addr : List Reg) (rd : Reg) : Uses := { noUse with addr := gs addr, writes := gs [rd] }
/-- A scalar store. -/
def storeUse (base data : Reg) : Uses := { noUse with addr := gs [base], data := gs [data] }
/-- A scalar branch. -/
def branchUse (a b : Reg) : Uses := { noUse with branch := gs [a, b] }
/-- A scalar atomic. -/
def atomicUse (rd base : Reg) (data : List Reg) : Uses := { noUse with addr := gs [base], data := gs data, writes := gs [rd] }
/-- The v and m registers, saved to an image or restored from it (spec/17_traps.md R412, R413). -/
def vimage (u : Uses) (save : Bool) : Uses :=
  let regs := (List.range 40).map (fun k => 32 + k)
  if save then { u with data := regs } else { u with data := [], writes := regs }

/-- The 32-bit words with register fields. -/
def scalarUse : Instr → Uses
  | .add rd rs1 rs2 => plainUse [rs1, rs2] [rd]
  | .sub rd rs1 rs2 => plainUse [rs1, rs2] [rd]
  | .and rd rs1 rs2 => plainUse [rs1, rs2] [rd]
  | .andn rd rs1 rs2 => plainUse [rs1, rs2] [rd]
  | .or rd rs1 rs2 => plainUse [rs1, rs2] [rd]
  | .orn rd rs1 rs2 => plainUse [rs1, rs2] [rd]
  | .xor rd rs1 rs2 => plainUse [rs1, rs2] [rd]
  | .xnor rd rs1 rs2 => plainUse [rs1, rs2] [rd]
  | .sll rd rs1 rs2 => plainUse [rs1, rs2] [rd]
  | .srl rd rs1 rs2 => plainUse [rs1, rs2] [rd]
  | .sra rd rs1 rs2 => plainUse [rs1, rs2] [rd]
  | .rol rd rs1 rs2 => plainUse [rs1, rs2] [rd]
  | .ror rd rs1 rs2 => plainUse [rs1, rs2] [rd]
  | .min rd rs1 rs2 => plainUse [rs1, rs2] [rd]
  | .max rd rs1 rs2 => plainUse [rs1, rs2] [rd]
  | .minn rd rs1 rs2 => plainUse [rs1, rs2] [rd]
  | .maxn rd rs1 rs2 => plainUse [rs1, rs2] [rd]
  | .cmplt rd rs1 rs2 => plainUse [rs1, rs2] [rd]
  | .cmpltn rd rs1 rs2 => plainUse [rs1, rs2] [rd]
  | .cmpeq rd rs1 rs2 => plainUse [rs1, rs2] [rd]
  | .addI32 rd rs1 rs2 => plainUse [rs1, rs2] [rd]
  | .subI32 rd rs1 rs2 => plainUse [rs1, rs2] [rd]
  | .sllI32 rd rs1 rs2 => plainUse [rs1, rs2] [rd]
  | .srlI32 rd rs1 rs2 => plainUse [rs1, rs2] [rd]
  | .sraI32 rd rs1 rs2 => plainUse [rs1, rs2] [rd]
  | .rolI32 rd rs1 rs2 => plainUse [rs1, rs2] [rd]
  | .rorI32 rd rs1 rs2 => plainUse [rs1, rs2] [rd]
  | .mul rd rs1 rs2 => plainUse [rs1, rs2] [rd]
  | .mulh rd rs1 rs2 => plainUse [rs1, rs2] [rd]
  | .mulhu rd rs1 rs2 => plainUse [rs1, rs2] [rd]
  | .mulhsu rd rs1 rs2 => plainUse [rs1, rs2] [rd]
  | .mulI32 rd rs1 rs2 => plainUse [rs1, rs2] [rd]
  | .div rd rs1 rs2 => plainUse [rs1, rs2] [rd]
  | .divu rd rs1 rs2 => plainUse [rs1, rs2] [rd]
  | .rem rd rs1 rs2 => plainUse [rs1, rs2] [rd]
  | .remu rd rs1 rs2 => plainUse [rs1, rs2] [rd]
  | .divI32 rd rs1 rs2 => plainUse [rs1, rs2] [rd]
  | .divuI32 rd rs1 rs2 => plainUse [rs1, rs2] [rd]
  | .remI32 rd rs1 rs2 => plainUse [rs1, rs2] [rd]
  | .remuI32 rd rs1 rs2 => plainUse [rs1, rs2] [rd]
  | .addi rd rs1 _ => plainUse [rs1] [rd]
  | .andi rd rs1 _ => plainUse [rs1] [rd]
  | .ori rd rs1 _ => plainUse [rs1] [rd]
  | .xori rd rs1 _ => plainUse [rs1] [rd]
  | .cmplti rd rs1 _ => plainUse [rs1] [rd]
  | .cmpltni rd rs1 _ => plainUse [rs1] [rd]
  | .addiI32 rd rs1 _ => plainUse [rs1] [rd]
  | .slli rd rs1 _ => plainUse [rs1] [rd]
  | .srli rd rs1 _ => plainUse [rs1] [rd]
  | .srai rd rs1 _ => plainUse [rs1] [rd]
  | .rori rd rs1 _ => plainUse [rs1] [rd]
  | .slliI32 rd rs1 _ => plainUse [rs1] [rd]
  | .srliI32 rd rs1 _ => plainUse [rs1] [rd]
  | .sraiI32 rd rs1 _ => plainUse [rs1] [rd]
  | .lui rd _ => plainUse [] [rd]
  | .lhi rd _ => plainUse [rd] [rd]
  | .auipc rd _ => plainUse [] [rd]
  | .lb rd rs1 _ => loadUse [rs1] rd
  | .lbu rd rs1 _ => loadUse [rs1] rd
  | .lh rd rs1 _ => loadUse [rs1] rd
  | .lhu rd rs1 _ => loadUse [rs1] rd
  | .lw rd rs1 _ => loadUse [rs1] rd
  | .lwu rd rs1 _ => loadUse [rs1] rd
  | .ld rd rs1 _ => loadUse [rs1] rd
  | .sb rs2 rs1 _ => storeUse rs1 rs2
  | .sh rs2 rs1 _ => storeUse rs1 rs2
  | .sw rs2 rs1 _ => storeUse rs1 rs2
  | .sd rs2 rs1 _ => storeUse rs1 rs2
  | .clz rd rs1 => plainUse [rs1] [rd]
  | .ctz rd rs1 => plainUse [rs1] [rd]
  | .popc rd rs1 => plainUse [rs1] [rd]
  | .clzw rd rs1 => plainUse [rs1] [rd]
  | .ctzw rd rs1 => plainUse [rs1] [rd]
  | .popcw rd rs1 => plainUse [rs1] [rd]
  | .rev8 rd rs1 => plainUse [rs1] [rd]
  | .brev rd rs1 => plainUse [rs1] [rd]
  | .sextb rd rs1 => plainUse [rs1] [rd]
  | .sexth rd rs1 => plainUse [rs1] [rd]
  | .sextw rd rs1 => plainUse [rs1] [rd]
  | .zextb rd rs1 => plainUse [rs1] [rd]
  | .zexth rd rs1 => plainUse [rs1] [rd]
  | .zextw rd rs1 => plainUse [rs1] [rd]
  | .faddF32 rd rs1 rs2 _ => plainUse [rs1, rs2] [rd]
  | .fsubF32 rd rs1 rs2 _ => plainUse [rs1, rs2] [rd]
  | .fmulF32 rd rs1 rs2 _ => plainUse [rs1, rs2] [rd]
  | .fdivF32 rd rs1 rs2 _ => plainUse [rs1, rs2] [rd]
  | .fsqrtF32 rd rs1 _ => plainUse [rs1] [rd]
  | .fminF32 rd rs1 rs2 => plainUse [rs1, rs2] [rd]
  | .fmaxF32 rd rs1 rs2 => plainUse [rs1, rs2] [rd]
  | .fsgnjF32 rd rs1 rs2 => plainUse [rs1, rs2] [rd]
  | .fsgnjnF32 rd rs1 rs2 => plainUse [rs1, rs2] [rd]
  | .fsgnjxF32 rd rs1 rs2 => plainUse [rs1, rs2] [rd]
  | .feqF32 rd rs1 rs2 => plainUse [rs1, rs2] [rd]
  | .fltF32 rd rs1 rs2 => plainUse [rs1, rs2] [rd]
  | .fleF32 rd rs1 rs2 => plainUse [rs1, rs2] [rd]
  | .fclassF32 rd rs1 => plainUse [rs1] [rd]
  | .faddF64 rd rs1 rs2 _ => plainUse [rs1, rs2] [rd]
  | .fsubF64 rd rs1 rs2 _ => plainUse [rs1, rs2] [rd]
  | .fmulF64 rd rs1 rs2 _ => plainUse [rs1, rs2] [rd]
  | .fdivF64 rd rs1 rs2 _ => plainUse [rs1, rs2] [rd]
  | .fsqrtF64 rd rs1 _ => plainUse [rs1] [rd]
  | .fminF64 rd rs1 rs2 => plainUse [rs1, rs2] [rd]
  | .fmaxF64 rd rs1 rs2 => plainUse [rs1, rs2] [rd]
  | .fsgnjF64 rd rs1 rs2 => plainUse [rs1, rs2] [rd]
  | .fsgnjnF64 rd rs1 rs2 => plainUse [rs1, rs2] [rd]
  | .fsgnjxF64 rd rs1 rs2 => plainUse [rs1, rs2] [rd]
  | .feqF64 rd rs1 rs2 => plainUse [rs1, rs2] [rd]
  | .fltF64 rd rs1 rs2 => plainUse [rs1, rs2] [rd]
  | .fleF64 rd rs1 rs2 => plainUse [rs1, rs2] [rd]
  | .fclassF64 rd rs1 => plainUse [rs1] [rd]
  | .fmadd rd rs1 rs2 rs3 _ _ => plainUse [rs1, rs2, rs3] [rd]
  | .fmsub rd rs1 rs2 rs3 _ _ => plainUse [rs1, rs2, rs3] [rd]
  | .fnmadd rd rs1 rs2 rs3 _ _ => plainUse [rs1, rs2, rs3] [rd]
  | .fnmsub rd rs1 rs2 rs3 _ _ => plainUse [rs1, rs2, rs3] [rd]
  | .fcvtF32I32 rd rs1 _ => plainUse [rs1] [rd]
  | .fcvtF32N32 rd rs1 _ => plainUse [rs1] [rd]
  | .fcvtF32I64 rd rs1 _ => plainUse [rs1] [rd]
  | .fcvtF32N64 rd rs1 _ => plainUse [rs1] [rd]
  | .fcvtF64I32 rd rs1 _ => plainUse [rs1] [rd]
  | .fcvtF64N32 rd rs1 _ => plainUse [rs1] [rd]
  | .fcvtF64I64 rd rs1 _ => plainUse [rs1] [rd]
  | .fcvtF64N64 rd rs1 _ => plainUse [rs1] [rd]
  | .fcvtI32F32 rd rs1 _ => plainUse [rs1] [rd]
  | .fcvtN32F32 rd rs1 _ => plainUse [rs1] [rd]
  | .fcvtI64F32 rd rs1 _ => plainUse [rs1] [rd]
  | .fcvtN64F32 rd rs1 _ => plainUse [rs1] [rd]
  | .fcvtI32F64 rd rs1 _ => plainUse [rs1] [rd]
  | .fcvtN32F64 rd rs1 _ => plainUse [rs1] [rd]
  | .fcvtI64F64 rd rs1 _ => plainUse [rs1] [rd]
  | .fcvtN64F64 rd rs1 _ => plainUse [rs1] [rd]
  | .fcvtF32F64 rd rs1 _ => plainUse [rs1] [rd]
  | .fcvtF64F32 rd rs1 _ => plainUse [rs1] [rd]
  | .fcvtF32Bf16 rd rs1 _ => plainUse [rs1] [rd]
  | .fcvtBf16F32 rd rs1 _ => plainUse [rs1] [rd]
  | .fcvtF32F16 rd rs1 _ => plainUse [rs1] [rd]
  | .fcvtF16F32 rd rs1 _ => plainUse [rs1] [rd]
  | .fcvtF64F16 rd rs1 _ => plainUse [rs1] [rd]
  | .fcvtF16F64 rd rs1 _ => plainUse [rs1] [rd]
  | .csrld rd _ => plainUse [] [rd]
  | .csrst rd rs1 _ => plainUse [rs1] [rd]
  | .csrbset rd rs1 _ => plainUse [rs1] [rd]
  | .csrbclr rd rs1 _ => plainUse [rs1] [rd]
  | .csrsti rd _ _ => plainUse [] [rd]
  | .csrbseti rd _ _ => plainUse [] [rd]
  | .csrbclri rd _ _ => plainUse [] [rd]
  | .wait rd rs1 rs2 => { loadUse [rs1] rd with reads := gs [rs2] }
  | .vcsave rs1 => vimage (storeUse rs1 0) true
  | .vcrest rs1 => vimage (storeUse rs1 0) false
  | .tlbinv rs1 rs2 => plainUse [rs1, rs2] []
  | .beq rs1 rs2 _ => branchUse rs1 rs2
  | .bne rs1 rs2 _ => branchUse rs1 rs2
  | .blt rs1 rs2 _ => branchUse rs1 rs2
  | .bge rs1 rs2 _ => branchUse rs1 rs2
  | .bltu rs1 rs2 _ => branchUse rs1 rs2
  | .bgeu rs1 rs2 _ => branchUse rs1 rs2
  | .jal rd _ => plainUse [] [rd]
  | .jalr rd rs1 _ => plainUse [rs1] [rd]
  | .amoswap rd rs1 rs2 _ _ => atomicUse rd rs1 [rs2]
  | .amoadd rd rs1 rs2 _ _ => atomicUse rd rs1 [rs2]
  | .amoand rd rs1 rs2 _ _ => atomicUse rd rs1 [rs2]
  | .amoor rd rs1 rs2 _ _ => atomicUse rd rs1 [rs2]
  | .amoxor rd rs1 rs2 _ _ => atomicUse rd rs1 [rs2]
  | .amomin rd rs1 rs2 _ _ => atomicUse rd rs1 [rs2]
  | .amomax rd rs1 rs2 _ _ => atomicUse rd rs1 [rs2]
  | .amominu rd rs1 rs2 _ _ => atomicUse rd rs1 [rs2]
  | .amomaxu rd rs1 rs2 _ _ => atomicUse rd rs1 [rs2]
  | .amocas rd rs1 rs2 _ _ => atomicUse rd rs1 [rs2, rd]
  | .setvl rd rs1 _ _ _ => plainUse [rs1] [rd]
  | .setvli rd _ _ => plainUse [] [rd]
  | .enq rd rs1 rs2 => { loadUse [rs1] rd with reads := gs [rs2] }
  | .qstat rd rs1 => plainUse [rs1] [rd]
  | .depdec rd rs1 => plainUse [rs1] [rd]
  | .gbar rd rs1 => plainUse [rs1] [rd]
  | .tbar rd rs1 => plainUse [rs1] [rd]
  | _ => noUse

/-- The mask register of a node word, which selects what it does. -/
def maskKeys (w : VWord) : List Nat := (maskUnits w).map RegUnit.key
/-- The destination of a node word, where it has one: a v register or queue, an m register or a g register. -/
def destKeys (op : VOp) (w : VWord) : List Nat :=
  if cmpForm op || mopForm op then [64 + w.vd.val % 8]
  else if op = .vfirst || op = .vextr then [w.vd.val % 32]
  else if storeForm op then []
  else if vusesVd op && (mmaG op).isNone then [placeKey w.vd.val]
  else match op with
    | .dmk | .cpy | .cpyt | .gsg | .gss | .winnow | .ewait | .estat | .clred | .clbcast | .clagat | .clrsc | .clwait | .chwait => [w.gd]
    | .vmmaX1 | .vmmaX2 | .vmmaX4 | .vmmaX8 => if 32 ≤ w.vd.val then [placeKey w.vd.val] else []
    | _ => []

/-- The operands of a node word that is no memory port, its mask apart. -/
def operandKeys (op : VOp) (w : VWord) : List Nat :=
  let fs := (vsrcFields w op).map fieldKey
  let gb := if w.x.val = 1 then [srcN w.f2] else []
  match op with
  | .mand | .mor | .mxor | .mandn | .mnot | .mmv => (mopUnits op w).map RegUnit.key
  | .vshup | .vshdn | .vjoinup | .vjoindn | .vextr => fs ++ [srcN w.f2]
  | .vrgatherX1 | .vrgatherX2 | .vrgatherX4 | .vrgatherX8 =>
    fs ++ gb ++ (List.range (gatherG op)).map (fun k => placeKey (srcN w.f1 + k))
  | .vpcnt | .vpcntInc => [64 + srcN w.f1 % 8] ++ gb
  | .vfirst => [64 + srcN w.f1 % 8]
  | .vsscanAdd | .vsscanMin | .vsscanMax | .vsscanAnd | .vsscanOr | .vsscanXor => fs ++ [64 + srcN w.f2 % 8]
  | .vinsrt => [srcN w.f1, srcN w.f2]
  | .vmmaX1 | .vmmaX2 | .vmmaX4 | .vmmaX8 =>
    fieldKey w.f1 :: (if srcQ w.f3 then [fieldKey w.f3] else []) ++ (List.range 8).map (fun k => placeKey (srcN w.f2 + k))
  | .thwand | .thscore | .thfuse | .thtopk => fs ++ [placeKey (thParamReg op w)]
  | .dmk | .cpy | .cpyt | .gsg | .gss | .winnow | .clred | .clbcast | .clagat | .clrsc => [w.ga, w.gbG, w.gc]
  | .ewait | .estat | .clwait | .chain | .run => [w.ga]
  | _ => fs ++ gb

/-- The forms whose result takes in what earlier strips of the run brought (spec/08_permute_sparse.md R185,
spec/13_chains.md R293). -/
def carriesOn (op : VOp) : Bool :=
  redForm op || thForm op || (mmaG op).isSome || (match op with
    | .vpcnt | .vpcntInc | .vsscanAdd | .vsscanMin | .vsscanMax | .vsscanAnd | .vsscanOr | .vsscanXor | .vexpand | .delay => true
    | _ => false)

/-- The other nodes that may carry units into the next strip, those that a commit leaves without a partner or without the rest of their
block: a pairing node, a memory port that reads two queues among them (spec/13_chains.md R296), and `vpack` (R450). -/
def mayWait (op : VOp) (w : VWord) : Bool := !carriesOn op && (op == .vpack || decide (2 ≤ (nodeQueues op w).length))

/-- Where a node word is executed, as far as its registers go: inline, where it writes every element of its destination or leaves
some, or as a node of a block with its number: whether it takes what an earlier strip of the run left it, and whether it leaves
something to the next. -/
inductive Executed where
  | inline (whole : Bool)
  | node (port : Nat) (takes leaves : Bool)
  deriving DecidableEq, Repr

/-- The key under which a run holds what its strips write of an m register: its nodes read the value captured at `run` (R152). -/
def shadowKey (k : Nat) : Nat := 320 + k

/-- What a node word writes, by where it is executed. -/
def wroteKeys (x : Executed) (op : VOp) (w : VWord) : List Nat :=
  match x with
  | .inline _ => destKeys op w
  | .node _ _ _ => (destKeys op w).map (fun k => if 64 ≤ k ∧ k < 72 then shadowKey k else k)

/-- The destinations of which a node word keeps part: a v or m register of which it leaves elements, as a tail (R128), a masked-off
element, what lies beyond element 0 (R149), or the bits of a mask beyond its strip (R152). The mask of `vsel` chooses between its sources
and leaves nothing (R132). A queue, and a g register, are new as a whole. -/
def keptKeys (x : Executed) (op : VOp) (w : VWord) : List Nat :=
  match x with
  | .inline whole =>
    if !whole || (maskReg w != 0 && !maskZ w && op != .vsel) || redForm op || op == .vinsrt || op == .vsput then
      (destKeys op w).filter (fun k => 32 ≤ k && k < 72)
    else []
  | .node _ _ _ => (wroteKeys x op w).filter (fun k => 320 ≤ k)

/-- What a node takes from the earlier strips of its run, and leaves to the later ones. -/
def heldKeys (x : Executed) : List Nat × List Nat :=
  match x with
  | .node port takes leaves => (if takes then [256 + port] else [], if leaves then [256 + port] else [])
  | .inline _ => ([], [])

/-- The operands of a node word that is no memory port from which it computes the addresses it accesses: the image of a descriptor, of
a chain block or of a group (spec/12_atomics_engines.md R263, spec/13_chains.md R286, spec/15_links_collectives.md R350), what `thdec`
and `thscore` read (`nodeUse` adds the block at which `thdec` goes on), and the request of an `ereq`, from which the engine computes all that it accesses (R251). -/
def addrKeys (op : VOp) (w : VWord) : List Nat :=
  match op with
  | .dmk | .chain | .clred | .clbcast | .clagat | .clrsc => [w.ga]
  | .thdec | .thscore | .ereq => operandKeys op w
  | _ => []

/-- The node words. -/
def nodeUse (op : VOp) (w : VWord) (x : Executed) : Uses :=
  let held := heldKeys x
  if loadForm op || storeForm op then
    { noUse with
      addr := (memUnits op w).filterMap (fun u => match u with
        | .g r => some r
        | _ => none) ++ (if indexForm op then [fieldKey (viFld w)] else []) ++ held.1
      data := (if storeForm op then [placeKey w.vd.val] else []) ++ held.1
      mask := maskKeys w
      reads := keptKeys x op w
      writes := wroteKeys x op w ++ held.2 }
  else
    { noUse with
      reads := operandKeys op w ++ maskKeys w ++ held.1 ++ keptKeys x op w
      addr := addrKeys op w ++ (if op = .thdec then held.1 else [])
      writes := wroteKeys x op w ++ held.2 }

/-- What an instruction, or a node of a chain, does with registers and queues (R235, R251). -/
def usesOf (i : Instr) (x : Executed) : Uses :=
  match nodeOf i with
  | some (op, w) => nodeUse op w x
  | none => scalarUse i

/-- The operation of an instruction at a place of a party: whatever register it reads leads to what it writes (R235). What a chain's
graph carries is that run's own. -/
def opUse (p : Party) (y : Spot) (x : Executed) (i : Instr) : OpUse :=
  let u := usesOf i x
  let own (l : List Nat) : List Nat := l.map (fun k => if k < 128 then k else k + 4096 * y.instr)
  { party := p, place := y, reads := own (u.addr ++ u.data ++ u.mask ++ u.branch ++ u.reads), writes := own u.writes
    addr := own u.addr, data := own u.data, mask := own u.mask, branch := own u.branch }

/-- The operations of some instructions of a party, in program order from its first place, each with whether it writes every element
of a v or m register that it writes. -/
def opsOf (p : Party) (n : Nat) : List (Instr × Bool) → List OpUse
  | [] => []
  | i :: l => opUse p (litSpot n) (.inline i.2) i.1 :: opsOf p (n + 1) l

/-- The end of a run for an m register that a node of its writes: what its strips wrote of it is in the register. -/
def maskEnd (p : Party) (instr strips k : Nat) : OpUse where
  party := p
  place := { instr := instr, strip := strips, phase := 1, port := k, elem := 0 }
  reads := [k, shadowKey k + 4096 * instr]
  writes := [k]
  addr := []
  data := []
  mask := []
  branch := []

/-- How a node of a run is executed in a strip; `waiting` lists the strips and nodes at whose commit units of the node wait (R296). -/
def executedAt (waiting : List (Nat × Nat)) (i : Instr) (strip port : Nat) : Executed :=
  match nodeOf i with
  | some (op, w) =>
    if carriesOn op then .node port (strip != 0) true
    else .node port (mayWait op w && strip != 0 && waiting.contains (strip - 1, port)) (mayWait op w && waiting.contains (strip, port))
  | none => .node port false false

/-- An operation listed again: what it wrote stays, and it writes what comes back to it. -/
def OpUse.again (u : OpUse) : OpUse := { u with reads := u.reads ++ u.writes }

/-- Nodes whose queue may have a reader earlier in block order (spec/13_chains.md R283). -/
def delays (nodes : List Instr) : Nat := (nodes.filter (fun i => (nodeOf i).any (fun n => n.1 = .delay))).length

/-- The operations of the nodes of a run, strip by strip in block order (spec/11_consistency.md R248), and what its masks then hold. The
nodes of a strip are listed once more for each `delay`: what a `delay` gives in the strip may go to a node earlier in block order. -/
def runOps (p : Party) (instr : Nat) (nodes : List Instr) (strips : Nat) (waiting : List (Nat × Nat)) : List OpUse :=
  (List.range strips).flatMap (fun t =>
    let ops := (nodes.zip (List.range nodes.length)).map (fun n =>
      opUse p { instr := instr, strip := t, phase := 0, port := n.2, elem := 0 } (executedAt waiting n.1 t n.2) n.1)
    ops ++ (List.replicate (delays nodes) (ops.map OpUse.again)).flatten) ++
  ((nodes.flatMap (fun i => (usesOf i (.inline true)).writes)).filter (fun k => 64 ≤ k && k < 72)).eraseDups.map (maskEnd p instr strips)

end Machine
end Sys2Proof
end

