-- ==== Sys2Proof/Safety.lean ====
section
/-! DEFINITION. What the statements speak of: what every state of a run keeps, what an instruction may change, and when it
meets nothing that stops it. -/

namespace Sys2Proof
namespace Machine

/-! ### What every state keeps -/

/-- Each memory of the package is in its canonical form: addresses strictly rising, no byte listed that reads as an unlisted
one does. -/
def MemoryCanonical (s : State) : Prop :=
  Memory.wf s.mem = true ∧ Memory.wf s.staging = true ∧ Memory.wf s.mailbox.bytes = true

/-- No hart is in M mode, and none returns to it: U and S are the modes of a hart (spec/01_machine.md R15;
spec/17_traps.md R388). -/
def HartModes (s : State) : Prop :=
  ∀ a ∈ agents s, isHart a = true → a.mode ≠ .m ∧ a.pm ≠ 2#2 ∧ a.pm ≠ 3#2

/-! ### 32-bit instructions -/

/-- No register of a list is poisoned: an instruction that reads them takes no `POISON` (spec/18_ras.md R419). -/
def Clean (s : State) (rs : List Reg) : Prop := ∀ r ∈ rs, r ≠ 0 → s.me.pg.getLsbD r.val = false

/-- The whole effect of a 32-bit instruction that writes one register: rd holds v, unless it is g0, and has lost its poison;
the PC is past the word; the flags fl are added; nothing else differs. -/
def RegEffect (s : State) (d : Reg) (v : Word) (fl : BitVec 5) (t : State) : Prop :=
  (∀ r : Reg, getG t.me r = if r = 0 then 0#64 else if r = d then v else getG s.me r) ∧
  (∀ r : Reg, t.me.pg.getLsbD r.val = (s.me.pg.getLsbD r.val && (r != d || d == 0))) ∧
  t = { s with me := { s.me with g := t.me.g, pg := t.me.pg, pc := s.me.pc + 4#64, fflags := s.me.fflags ||| fl } }

/-- An instruction that reads the registers rs, and, when none is poisoned, writes v to rd and adds the flags fl. -/
def Gives (i : Instr) (rs : List Reg) (s : State) (d : Reg) (v : Word) (fl : BitVec 5) : Prop :=
  Clean s rs → ∃ t, exec i s = .next t ∧ RegEffect s d v fl t

/-- An instruction that changes nothing but the PC, which comes to stand at p. -/
def OnlyPc (i : Instr) (s : State) (p : Word) : Prop :=
  exec i s = .next { s with me := { s.me with pc := p } }

/-- An instruction that takes a trap at its word with none of its effect. -/
def Traps (i : Instr) (s : State) (cause : Nat) (xval : Word) : Prop :=
  exec i s = .next (takeTrap s (Trap.sync cause xval))

/-- The registers, flags, special registers and places of the acting agent that stay as they are but its g registers, their
poison and its PC. -/
def SameButG (s t : State) : Prop :=
  t.me = { s.me with g := t.me.g, pg := t.me.pg, pc := t.me.pc }

/-- Memory reads as before outside n bytes from a key, and so do the other memories of the package. -/
def SameOutside (s t : State) (k n : Nat) : Prop :=
  (∀ j, (j < k ∨ k + n ≤ j) → Memory.read t.mem j = Memory.read s.mem j) ∧
  t.staging = s.staging ∧ t.mailbox = s.mailbox

/-! ### Node words executed inline -/

/-- An inline node word that meets nothing that stops it: a hart acts, the word is legal inline, no run is in progress or
waits to be reported, and no register is poisoned. -/
def Ready (op : VOp) (w : VWord) (s : State) (h : HartId) : Prop :=
  s.me.id = .hart h ∧ vfate op w = .ok () ∧ s.me.vec.rRun = false ∧ s.me.vec.rPend = false ∧ cleanAgent s.me = true

/-- An inline node word completes with the state t, but that the PC moves past the word. -/
def Runs8 (i : Instr) (s t : State) : Prop := exec i s = .next (setPc t (s.me.pc + 8#64))

/-- What a node word that writes one vector register leaves as it was: only that register, with its scales and its poison,
`FFLAGS`, `VSTART` and the PC may differ. -/
def OnlyV (s t : State) (d : Reg) : Prop :=
  t = { s with me := { s.me with
    pc := t.me.pc, fflags := t.me.fflags
    vec := { s.me.vec with
      vstart := t.me.vec.vstart
      regs := { data := s.me.vec.regs.data.set d t.me.vec.regs.data[d]
                scale := s.me.vec.regs.scale.set d t.me.vec.regs.scale[d] }
      pv := s.me.vec.pv.set d t.me.vec.pv[d] } } }

/-- A source element of a word, as the bits of its type. -/
def srcA (s : State) (w : VWord) (i : Nat) : Nat := srcElem s.me.vec.regs w.vt.val (lanesIn s) w.f1 i
/-- The third source element of a word. -/
def srcC (s : State) (w : VWord) (i : Nat) : Nat := srcElem s.me.vec.regs w.vt.val (lanesIn s) w.f3 i

end Machine
end Sys2Proof
end

