-- ==== Sys2Proof/Certificates/Slice0/Obligations.lean ====
section
/-! DEFINITION. The statements for the provers. Each says of the machine what the manual says; what it says only in part, and
what rests on a choice of the model, its title says. -/

open Sys2Proof Sys2Proof.Machine

/-! ### Values, written from the manual's tables -/

namespace Sys2Proof
namespace Machine

/-- 1 when a condition holds, else 0. -/
def one (p : Prop) [Decidable p] : Word := if p then 1#64 else 0#64
/-- The sign-extended low 32 bits: w32 of spec/05_scalar_ops.md R106. -/
def low32 (x : Word) : Word := BitVec.ofInt 64 (BitVec.ofNat 32 x.toNat).toInt
/-- The low half of a register. -/
def half (x : Word) : BitVec 32 := BitVec.ofNat 32 x.toNat
/-- A 32-bit result, sign-extended. -/
def wide (x : BitVec 32) : Word := BitVec.ofInt 64 x.toInt
/-- A quotient truncated toward zero, with its corners (spec/04_formats.md R80). -/
def quoS {n : Nat} (a b : BitVec n) : BitVec n := if b = 0#n then BitVec.allOnes n else BitVec.ofInt n (a.toInt.tdiv b.toInt)
/-- An unsigned quotient. -/
def quoU {n : Nat} (a b : BitVec n) : BitVec n := if b = 0#n then BitVec.allOnes n else BitVec.ofNat n (a.toNat / b.toNat)
/-- A remainder with the sign of the dividend. -/
def remS {n : Nat} (a b : BitVec n) : BitVec n := if b = 0#n then a else BitVec.ofInt n (a.toInt - b.toInt * a.toInt.tdiv b.toInt)
/-- An unsigned remainder. -/
def remU {n : Nat} (a b : BitVec n) : BitVec n := if b = 0#n then a else BitVec.ofNat n (a.toNat % b.toNat)
/-- A 14-bit immediate as a signed number (spec/02_encoding.md R34). -/
def simm (i : Fin 16384) : Int := if i.val < 8192 then (i.val : Int) else (i.val : Int) - 16384
/-- A 19-bit immediate as a signed number. -/
def simm19 (i : Fin 524288) : Int := if i.val < 262144 then (i.val : Int) else (i.val : Int) - 524288
/-- A three-register form that writes f of its operands. -/
def AluForm (i : Reg → Reg → Reg → Instr) (f : Word → Word → Word) : Prop :=
  ∀ s d a b, Gives (i d a b) [a, b] s d (f (getG s.me a) (getG s.me b)) 0#5
/-- A two-register form that writes f of its operand. -/
def UnForm (i : Reg → Reg → Instr) (f : Word → Word) : Prop :=
  ∀ s d a, Gives (i d a) [a] s d (f (getG s.me a)) 0#5
/-- An immediate form. -/
def ImmForm (i : Reg → Reg → Fin 16384 → Instr) (f : Word → Int → Word) : Prop :=
  ∀ s d a n, Gives (i d a n) [a] s d (f (getG s.me a) (simm n)) 0#5
/-- The highest one bit of a number below 2^n. -/
def IsClz (n x c : Nat) : Prop := (x = 0 ∧ c = n) ∨ (c < n ∧ 2 ^ (n - 1 - c) ≤ x ∧ x < 2 ^ (n - c))
/-- The lowest one bit. -/
def IsCtz (n x c : Nat) : Prop := (x = 0 ∧ c = n) ∨ (c < n ∧ 2 ^ c ∣ x ∧ ¬ 2 ^ (c + 1) ∣ x)

/-- The value of n bytes of memory, the first the least significant (spec/00_scope.md R3). -/
def bytesAt (m : Memory) (k n : Nat) : Nat :=
  ((List.range n).map (fun j => (Memory.read m (k + j)).toNat * 256 ^ j)).foldl (· + ·) 0
/-- A load of n bytes that extends them by f: at an aligned address that translates for a read, rd takes the value at the
place, and at a place of memory that is the value of its bytes. -/
def LoadForm (i : Reg → Reg → Fin 16384 → Instr) (n : Nat) (f : Nat → Word) : Prop :=
  ∀ s d a m l, (effAddr s a m).toNat % n = 0 → resolveScalar s .read (effAddr s a m).toNat = .ok l →
    Gives (i d a m) [a] s d (f (readLoc s l n)) 0#5 ∧ (∀ k, l = .mem k → readLoc s l n = bytesAt s.mem k n)
/-- A store of the n low bytes of rs2: at an aligned address that translates for a write, the place takes them; at a place of
memory, those bytes and no other, and nothing but memory and the PC differs. -/
def StoreForm (i : Reg → Reg → Fin 16384 → Instr) (n : Nat) : Prop :=
  ∀ s b a m l, Clean s [a, b] → (effAddr s a m).toNat % n = 0 → resolveScalar s .write (effAddr s a m).toNat = .ok l →
    exec (i b a m) s = .next (setPc (writeLoc s l n (getG s.me b).toNat) (s.me.pc + 4#64)) ∧
    (∀ k, l = .mem k → Memory.wf s.mem = true → ∃ t, exec (i b a m) s = .next t ∧
      (∀ j, j < n → Memory.read t.mem (k + j) = BitVec.ofNat 8 ((getG s.me b).toNat / 256 ^ j)) ∧
      (∀ j, (j < k ∨ k + n ≤ j) → Memory.read t.mem j = Memory.read s.mem j) ∧
      t = { s with mem := t.mem, me := { s.me with pc := s.me.pc + 4#64 } })
/-- The bits of an address below the index of the level after m others: a leaf there maps 2 to that many bytes (spec/16_isolation.md
R357). -/
def belowLevel (m : Nat) : Nat := 42 - 13 * m
/-- The entry that a unit's translation cache holds of a level on the way to an address (R362). -/
def heldAt (s : State) (c : XCtx) (va m : Nat) : Option Word :=
  (s.tlb.find? (fun t => t.unit = c.unit && t.asid == c.asid && t.level == m + 1 && t.path == va / 2 ^ belowLevel m)).map
    (fun t => t.entry)
/-- Where a table has the entry of an address: 8,192 entries of 8 bytes (R357). -/
def entryKey (va m table : Nat) : Nat := table + 8 * (va / 2 ^ belowLevel m % 8192)
/-- The entry that a walk takes: the one held, else that of memory. -/
def entryIn (s : State) (c : XCtx) (va m table : Nat) : Word :=
  (heldAt s c va m).getD (BitVec.ofNat 64 (bytesAt s.mem (entryKey va m table) 8))
/-- Bits [51:16] of an entry as an address: FRAME of a leaf, NEXT of a table entry (R358). -/
def granuleOf (e : Word) : Nat := 65536 * (e.toNat / 2 ^ 16 % 2 ^ 36)
/-- The table of a walk after m levels, the first at the root (R357). -/
def tableFor (s : State) (c : XCtx) (va : Nat) : Nat → Nat
  | 0 => 65536 * c.root
  | m + 1 => granuleOf (entryIn s c va m (tableFor s c va m))
/-- The entry of a walk after m levels. -/
def levelEntry (s : State) (c : XCtx) (va m : Nat) : Word := entryIn s c va m (tableFor s c va m)
/-- A table lies in HBM4E, and the entry that is read there is not poisoned (R359; spec/18_ras.md R419). -/
def TableReads (s : State) (c : XCtx) (va m : Nat) : Prop :=
  tableFor s c va m + 65536 ≤ hbmEnd ∧ (heldAt s c va m = none → isPoisoned s (entryKey va m (tableFor s c va m)) = false)
/-- A valid table entry: V, no L, and zero in [63:52] and [15:2] (R358, R359). -/
def LeadsOn (e : Word) : Prop :=
  e.getLsbD 0 = true ∧ e.getLsbD 1 = false ∧ e.toNat / 2 ^ 52 = 0 ∧ e.toNat / 4 % 2 ^ 14 = 0
/-- A valid leaf after m levels (R359; spec/10_memory.md R212): V and L, zero in [15:6], no W without R, no skew code that the part
lacks; in the TILE window a leaf of 64 KiB with [51:29] zero, and elsewhere one of skew 0 whose page is aligned and lies whole in
HBM4E, or, for a control core in S mode, in the poison map view. -/
def LeafRight (c : XCtx) (va m : Nat) (e : Word) : Prop :=
  let size := 2 ^ belowLevel m
  let base := va / size * size
  let tile := c.isCc = false ∧ base < 0x7FFF0003000000 ∧ 0x7FFF0000000000 < base + size
  let skew := e.toNat / 2 ^ 52 % 4
  e.getLsbD 0 = true ∧ e.getLsbD 1 = true ∧ e.toNat / 2 ^ 6 % 2 ^ 10 = 0 ∧ (e.getLsbD 3 = true → e.getLsbD 2 = true) ∧
  skew ≠ 3 ∧ (skew = 2 → Config.hasFeature 96 = true) ∧ (tile → m = 2 ∧ e.toNat / 2 ^ 29 % 2 ^ 23 = 0) ∧
  (¬ tile → skew = 0 ∧ granuleOf e % size = 0 ∧ (granuleOf e + size ≤ hbmEnd ∨
    (c.isCc = true ∧ c.mode ≠ .u ∧ 0x10000000000 ≤ granuleOf e ∧ granuleOf e + size ≤ 0x1003B9ACA00)))
/-- The leaf grants what the access needs in its mode (R360). -/
def permits (c : XCtx) (acc : Acc) (e : Word) : Bool :=
  (match acc with
    | .read => e.getLsbD 2
    | .write => e.getLsbD 3
    | .both => e.getLsbD 2 && e.getLsbD 3
    | .fetch => e.getLsbD 4) &&
  (decide (c.mode ≠ .u) || e.getLsbD 5) && (decide (c.mode ≠ .s) || decide (acc ≠ .fetch) || !e.getLsbD 5)
/-- The leaf's configuration identity admits a chain's access; it bears on no other, and on none without feature 100 (R365). -/
def identityOk (c : XCtx) (e : Word) : Bool :=
  let cid := e.toNat / 2 ^ 54 % 256
  c.cid.all (fun n => !Config.hasFeature 100 || cid == 0 || cid == n)
/-- The first check of R360 that fails, the grant row of spec/10_memory.md R211 and R216 after `CIDMIS` (log 13), and the poison of the
line last: its cause, and whether the leaf lacks a permission and whether R216 stops it. -/
def firstBar (c : XCtx) (acc : Acc) (e : Word) (inGrant peer poisoned : Bool) : Option (Nat × Bool × Bool) :=
  if permits c acc e = false then some (cProt, true, false)
  else if identityOk c e = false then some (cCidmis, false, false)
  else if inGrant = false then some (cProt, false, peer)
  else if e.getLsbD 62 = true ∧ (acc = .write ∨ acc = .both) then some (cPfault, false, false)
  else if (e.getLsbD 63 = true ∨ poisoned = true) ∧ acc ≠ .write then some (cPoison, false, false)
  else none
/-- An access stops with a cause at an address. -/
def StopsAt (r : Except Flt Loc) (va : Nat) (acc : Acc) (why : Nat × Bool × Bool) : Prop :=
  r = .error { cause := why.1, va := va, acc := acc, perm := why.2.1, peer := why.2.2 }
/-- An access names a place, unless a bar stops it. -/
def Names (r : Except Flt Loc) (va : Nat) (acc : Acc) (bar : Option (Nat × Bool × Bool)) (l : Loc) : Prop :=
  match bar with
  | none => r = .ok l
  | some why => StopsAt r va acc why
/-- The walk of R357 with the checks of R359: `POISON` at a poisoned entry, `PFAULT` where no valid leaf is found, and what a valid
leaf gives. Faults are reported at `at_`. -/
def Walks (s : State) (c : XCtx) (acc : Acc) (va at_ : Nat) (r : Except Flt Loc) (leaf : Nat → Word → Prop) : Prop :=
  ∀ m < 3, (∀ j < m, TableReads s c va j ∧ LeadsOn (levelEntry s c va j)) →
    let e := levelEntry s c va m
    (hbmEnd < tableFor s c va m + 65536 → StopsAt r at_ acc (cPfault, false, false)) ∧
    (tableFor s c va m + 65536 ≤ hbmEnd → ¬ TableReads s c va m → StopsAt r at_ acc (cPoison, false, false)) ∧
    (TableReads s c va m → (LeadsOn e → m = 2) → ¬ LeafRight c va m e → StopsAt r at_ acc (cPfault, false, false)) ∧
    (TableReads s c va m → LeafRight c va m e → leaf m e)
/-- What a leaf of global memory gives (R357, R360, R361). -/
def GlobalLeaf (s : State) (c : XCtx) (acc : Acc) (va : Nat) (r : Except Flt Loc) (m : Nat) (e : Word) : Prop :=
  let pa := granuleOf e + va % 2 ^ belowLevel m
  Names r va acc (firstBar c acc e true false (decide (pa < hbmEnd) && isPoisoned s pa))
    (if pa < hbmEnd then .mem pa else .poisonMap (pa - 0x10000000000))
/-- A row of a core lies in the reserve of a chain of a task (spec/13_chains.md R288). -/
def inReserve (s : State) (task : Option EntryId) (die core row : Nat) : Bool :=
  (agents s).any (fun a => a.task == task && a.id.hart?.any (fun h => h.die.val == die && h.core.val == core) &&
    a.vec.chain.any (fun ch => decide (ch.rowLo ≤ row ∧ row < ch.rowLo + ch.rows)))
/-- Bank and row within the page of a line, under a skew code (spec/10_memory.md R211). -/
def bankRow (skew l : Nat) : Nat × Nat :=
  if skew = 0 then (l % 128, l / 128) else if skew = 1 then (l % 128 ^^^ l / 128, l / 128) else (l % 127, l / 127)
/-- What a leaf of the TILE window gives at an offset of its page on a core of a die (R211): the row that it names of the grant of the
task's gang there, if it lies in the grant and in no reserve. -/
def TileLeaf (s : State) (c : XCtx) (acc : Acc) (at_ : Nat) (r : Except Flt Loc) (die core off : Nat) (peer : Bool) (e : Word) : Prop :=
  let at2 := bankRow (e.toNat / 2 ^ 52 % 4) (off / 64)
  let row := e.toNat / 2 ^ 16 % 2 ^ 13 + at2.2
  (hartGang s c.task core = none → Names r at_ acc (firstBar c acc e false peer false) (.mem 0)) ∧
  ∀ g, hartGang s c.task core = some g →
    let key := tileKey (40 * die + core) + (g.row + row) * 8192 + at2.1 * 64 + off % 64
    Names r at_ acc (firstBar c acc e (decide (row < g.rows) && !inReserve s c.task die core (g.row + row)) peer (isPoisoned s key))
      (.mem key)
/-- A slot of a core's scalar data memory is that of a hart of the gang (spec/10_memory.md R210). -/
def MySlot (s : State) (c : XCtx) (h : HartId) (slot : Nat) : Prop :=
  slot = h.ctx.val ∨ (c.task ≠ none ∧ ∃ a ∈ agents s, a.task = c.task ∧
    ∃ k, a.id = .hart k ∧ k.ctx.val = slot ∧ k.core = h.core ∧ k.die = h.die)
/-- A core beside a hart's, in a direction, that holds a gang of the task on the same die (R216). -/
def PeerCore (s : State) (c : XCtx) (h : HartId) (d n : Nat) : Prop :=
  neighbour (hartCore h) d = some n ∧ n / 40 = h.die.val ∧ hartGang s c.task (n % 40) ≠ none
/-- What a virtual address names, and what stops an access to it (R207-R212, R216; spec/16_isolation.md R357-R365). -/
def Lands (s : State) (c : XCtx) (acc : Acc) (va : Nat) (r : Except Flt Loc) : Prop :=
  let prot := StopsAt r va acc (cProt, false, false)
  (2 ^ 55 ≤ va → prot) ∧
  (va < 0x7FFF0000000000 → Walks s c acc va va r (GlobalLeaf s c acc va r)) ∧
  (0x7FFF0000000000 ≤ va → c.hart = none ∨ acc = .fetch → prot) ∧
  ∀ h, c.hart = some h → acc ≠ .fetch → 0x7FFF0000000000 ≤ va → va < 2 ^ 55 →
    (va < 0x7FFF0003000000 → Walks s c acc va va r (fun _ e => TileLeaf s c acc va r h.die.val h.core.val (va % 65536) false e)) ∧
    (∀ k < 0x80000, va = 0x7FFF0010000000 + k → let key := sdmKey (hartCore h) + k
      (c.cid = none ∧ MySlot s c h (k / 0x4000) → Names r va acc
        (if isPoisoned s key = true ∧ acc ≠ .write then some (cPoison, false, false) else none) (.mem key)) ∧
      (¬ (c.cid = none ∧ MySlot s c h (k / 0x4000)) → prot)) ∧
    (∀ d < 4, ∀ k < 0x3000000, va = 0x7FFF0020000000 + d * 0x4000000 + k →
      (∀ n, acc = .read → PeerCore s c h d n → Walks s c acc (0x7FFF0000000000 + k) va r (fun _ e =>
        TileLeaf s c acc va r (n / 40) (n % 40) (k % 65536) true e)) ∧
      (acc ≠ .read ∨ (∀ n, ¬ PeerCore s c h d n) → StopsAt r va acc (cProt, false, true))) ∧
    (0x7FFF0003000000 ≤ va → (∀ k < 0x80000, va ≠ 0x7FFF0010000000 + k) →
      (∀ d < 4, ∀ k < 0x3000000, va ≠ 0x7FFF0020000000 + d * 0x4000000 + k) → prot)
/-- A key lies in the rows that a core grants the task (R211). -/
def InRows (s : State) (c : XCtx) (die core k : Nat) : Prop :=
  ∃ g, hartGang s c.task core = some g ∧ tileKey (40 * die + core) + g.row * 8192 ≤ k ∧
    k < tileKey (40 * die + core) + (g.row + g.rows) * 8192
/-- Where a hart's access may land (R207-R211, R216; spec/16_isolation.md R361): inside the page of a valid leaf of its address space,
which lies in HBM4E; in its own gang's rows or slots; or, for a read alone, in the rows of its task beside it. -/
def InsideSpace (s : State) (c : XCtx) (h : HartId) (acc : Acc) (va : Nat) (l : Loc) : Prop :=
  ∃ k, l = .mem k ∧
    ((k < hbmEnd ∧ ∃ m < 3, (∀ j < m, LeadsOn (levelEntry s c va j)) ∧ LeafRight c va m (levelEntry s c va m) ∧
        permits c acc (levelEntry s c va m) = true ∧ granuleOf (levelEntry s c va m) ≤ k ∧
        k < granuleOf (levelEntry s c va m) + 2 ^ belowLevel m) ∨
      InRows s c h.die.val h.core.val k ∨
      (∃ slot < 32, MySlot s c h slot ∧ sdmKey (hartCore h) + slot * 0x4000 ≤ k ∧ k < sdmKey (hartCore h) + (slot + 1) * 0x4000) ∨
      (acc = .read ∧ ∃ d n, PeerCore s c h d n ∧ InRows s c (n / 40) (n % 40) k))
/-- What a control core's physical access gives in a mode (R361, R369). -/
def LandsPhysical (s : State) (md : Mode) (acc : Acc) (pa : Nat) (r : Except Flt Loc) : Prop :=
  (pa < hbmEnd → Names r pa acc (if isPoisoned s pa = true ∧ acc ≠ .write then some (cPoison, false, false) else none) (.mem pa)) ∧
  (0x10000000000 ≤ pa → pa < 0x1003B9ACA00 → md ≠ .u → r = .ok (.poisonMap (pa - 0x10000000000))) ∧
  (0x20000000000 ≤ pa → pa < 0x20000001000 → md = .m → r = .ok (.mgmt (pa - 0x20000000000))) ∧
  (hbmEnd ≤ pa → (0x10000000000 ≤ pa ∧ pa < 0x1003B9ACA00 → md = .u) → (0x20000000000 ≤ pa ∧ pa < 0x20000001000 → md ≠ .m) →
    StopsAt r pa acc (cProt, false, false))
/-- What a vector access's byte offset names under a space (R214-R216): the address of R215; `PROT` at the offset itself where a need
is not met, and where R216 stops the access. -/
def LandsUnder (s : State) (c : XCtx) (space dir : Nat) (acc : Acc) (a : Int) (r : Except Flt Loc) : Prop :=
  let prot := r = .error { cause := cProt, va := (a % 2 ^ 64).toNat, acc := acc, perm := false, peer := false, offset := true }
  let window (base lim : Nat) := (¬ (0 ≤ a ∧ a < lim) → prot) ∧
    (0 ≤ a → a < lim → match resolve s c acc (base + a.toNat) with
      | .ok l => r = .ok l
      | .error f => r = .error (if f.peer then { f with va := a.toNat, offset := true } else f))
  (space = 0 → (a < 0 → prot) ∧ (0 ≤ a → r = resolve s c acc a.toNat)) ∧
  (space = 1 → window 0x7FFF0000000000 0x3000000) ∧ (space = 2 → window (0x7FFF0020000000 + dir * 0x4000000) 0x3000000) ∧
  (space = 3 → window 0x7FFF0010000000 0x80000)
/-- What stops a load or a store: an address that is not a multiple of n, then one that does not translate. -/
def AccessStops (i : Instr) (rs : List Reg) (n : Nat) (acc : Acc) (ea : Word) (s : State) : Prop :=
  Clean s rs →
    (ea.toNat % n ≠ 0 → Traps i s cAlign ea) ∧
    (∀ f, ea.toNat % n = 0 → resolveScalar s acc ea.toNat = .error f → exec i s = .next (takeTrap s f.trap))
/-- An atomic of n bytes (spec/12_atomics_engines.md R255): rd takes the old value, sign-extended; the place takes what `new`
gives of the old value, the operand and the compared value, if it gives one; nothing but rd, the place and the PC differs. -/
def AtomicForm (i : Reg → Reg → Reg → Fin 2 → Fin 8 → Instr) (rs : Reg → Reg → Reg → List Reg)
    (new : (n : Nat) → BitVec n → BitVec n → BitVec n → Option (BitVec n)) : Prop :=
  ∀ s d a b dw o l, let n := if dw = (0 : Fin 2) then 4 else 8
    Clean s (rs d a b) → (getG s.me a).toNat % n = 0 → resolveScalar s .both (getG s.me a).toNat = .ok l →
    let old := BitVec.ofNat (8 * n) (readLoc s l n)
    let s' := match new (8 * n) old (BitVec.ofNat (8 * n) (getG s.me b).toNat) (BitVec.ofNat (8 * n) (getG s.me d).toNat) with
      | some v => writeLoc s l n v.toNat
      | none => s
    exec (i d a b dw o) s = .next (setPc (wr s' d (BitVec.ofInt 64 old.toInt)) (s.me.pc + 4#64))
/-- A conditional branch: to its target when the condition holds, else to the next word; a target that is not a multiple of 4
traps `ALIGN` at the branch. -/
def BranchForm (i : Reg → Reg → Fin 16384 → Instr) (c : Word → Word → Prop) : Prop :=
  ∀ s a b n, let target := s.me.pc + BitVec.ofInt 64 (4 * simm n)
    Clean s [a, b] →
      (c (getG s.me a) (getG s.me b) → target.toNat % 4 = 0 → OnlyPc (i a b n) s target) ∧
      (¬ c (getG s.me a) (getG s.me b) → OnlyPc (i a b n) s (s.me.pc + 4#64)) ∧
      (c (getG s.me a) (getG s.me b) → target.toNat % 4 ≠ 0 → Traps (i a b n) s cAlign target)
/-- Whether a scalar form accepts a rounding code (spec/05_scalar_ops.md R112). -/
def RmOk (rm : Fin 8) : Prop := rm.val ≤ 4 ∨ rm.val = 7
/-- The mode that a scalar form rounds by: code 7 is `RMODE`, and an `RMODE` of 5 rounds by RNE (R112). -/
def modeFor (s : State) (rm : Fin 8) : RMode :=
  RMode.plain (if rm.val = 7 then (if s.me.rmode = 5#3 then 0 else s.me.rmode.toNat) else rm.val)
/-- The number in a register's low bits, in a format. -/
def num (F : Fmt) (s : State) (r : Reg) : FVal := unpack F ((getG s.me r).toNat % 2 ^ F.width)
/-- A code in a register's low bits. -/
def low (F : Fmt) (s : State) (r : Reg) : Nat := (getG s.me r).toNat % 2 ^ F.width
/-- A floating-point form of two operands, both as numbers, that rounds: the result zero-extended, and its flags. -/
def RoundForm (i : Reg → Reg → Reg → Fin 8 → Instr) (F : Fmt) (f : RMode → FVal → FVal → FRes) : Prop :=
  ∀ s d a b rm, RmOk rm →
    let r := f (modeFor s rm) (num F s a) (num F s b)
    Gives (i d a b rm) [a, b] s d (BitVec.ofNat 64 r.1) r.2
/-- A floating-point form of two operands, both as codes, that does not round. -/
def CodeForm (i : Reg → Reg → Reg → Instr) (F : Fmt) (f : Nat → Nat → FRes) : Prop :=
  ∀ s d a b, Gives (i d a b) [a, b] s d (BitVec.ofNat 64 (f (low F s a) (low F s b)).1) (f (low F s a) (low F s b)).2
/-- A conversion: f of the mode and the source register, as result and flags. -/
def ConvertForm (i : Reg → Reg → Fin 8 → Instr) (f : RMode → Word → Word × BitVec 5) : Prop :=
  ∀ s d a rm, RmOk rm →
    let r := f (modeFor s rm) (getG s.me a)
    Gives (i d a rm) [a] s d r.1 r.2
/-- The value that a format's code stands for. -/
def valIn (F : Fmt) (x : Word) : FVal := unpack F (x.toNat % 2 ^ F.width)
/-- The number that a finite value is; zero for another (spec/04_formats.md R81). -/
def FVal.q : FVal → ℚ
  | .fin s m e => (if s then -1 else 1) * m * 2 ^ e
  | _ => 0
/-- Neither an infinity nor a NaN. -/
def FVal.finite : FVal → Bool
  | .fin _ _ _ => true
  | _ => false
/-- The magnitude of a code whose exponent field has no upper limit: the multiples of the spacing that R89 rounds to. -/
def magOf (F : Fmt) (c : Nat) : ℚ :=
  (if c / 2 ^ F.f = 0 then (c : ℚ) else (2 ^ F.f + c % 2 ^ F.f : Nat) * 2 ^ (c / 2 ^ F.f - 1)) * 2 ^ F.emin
/-- Whether a value that lies the part d, at least 0 and below 1, of the way from its neighbour toward zero to the next one goes
to that next one, under a mode (R89, R93). -/
def goesUp (m : RMode) (neg odd : Bool) (d : ℝ) : Prop :=
  match m.mode with
  | 0 => 1 / 2 < d ∨ (d = 1 / 2 ∧ odd = true)
  | 1 => False
  | 2 => 0 < d ∧ neg = false
  | 3 => 0 < d ∧ neg = true
  | 4 => 1 / 2 ≤ d
  | _ => 2 ^ 32 ≤ ⌊d * 2 ^ 32⌋ + (m.bits : Int)
/-- The magnitude's code of a result that overflows (R90). -/
def overflowOf (F : Fmt) (m : RMode) (neg : Bool) : Nat :=
  if F.spec = .ieee ∧ (m.mode = 0 ∨ m.mode = 4 ∨ (m.mode = 2 ∧ neg = false) ∨ (m.mode = 3 ∧ neg = true)) then F.infCode
  else F.maxCode
/-- A result r of rounding the magnitude x with a sign to a format: one of the two neighbours of x, by the mode (R89, R93); above
the largest finite value, the overflow result with OF and NX; NX when the result is not x, and UF beside it when the result is
not zero and below the smallest normal (R90). -/
def Rounded (F : Fmt) (m : RMode) (neg : Bool) (x : ℝ) (r : FRes) : Prop :=
  ∃ lo y : Nat, (magOf F lo : ℝ) ≤ x ∧ x < (magOf F (lo + 1) : ℝ) ∧
    let d := (x - magOf F lo) / (magOf F (lo + 1) - magOf F lo)
    (goesUp m neg (lo % 2 == 1) d → y = lo + 1) ∧ (¬ goesUp m neg (lo % 2 == 1) d → y = lo) ∧
    (F.maxCode < y → r = (F.sign neg (overflowOf F m neg), fOF ||| fNX)) ∧
    (y ≤ F.maxCode → d = 0 → r = (F.sign neg y, 0#5)) ∧
    (y ≤ F.maxCode → d ≠ 0 → r = (F.sign neg y, if 0 < y ∧ y < 2 ^ F.f then fUF ||| fNX else fNX))
/-- A result r of the sum of two numbers, each with the sign it bears when it is zero: rounded once, and, when it is exactly
zero, signed as R89 says. -/
def Summed (F : Fmt) (m : RMode) (na : Bool) (a : ℚ) (nb : Bool) (b : ℚ) (r : FRes) : Prop :=
  (a + b ≠ 0 → Rounded F m (decide (a + b < 0)) ((|a + b| : ℚ) : ℝ) r) ∧
  (a + b = 0 → r = (F.sign (if a = 0 ∧ na = nb then na else m.mode == 3) 0, 0#5))
/-- The arithmetic of a format rounds the exact result once (R89, R95; spec/05_scalar_ops.md R113, R114): for finite operands, in a
mode whose random bits, if it has any, are 32 (R93). -/
def RoundsOnce (F : Fmt) : Prop :=
  ∀ (m : RMode) (a b c : FVal), m.bits < 2 ^ 32 → a.finite = true → b.finite = true → c.finite = true →
    Summed F m a.isNeg a.q b.isNeg b.q (addV F m a b) ∧
    Rounded F m (a.isNeg != b.isNeg) ((|a.q * b.q| : ℚ) : ℝ) (mulV F m a b) ∧
    (b.q ≠ 0 → Rounded F m (a.isNeg != b.isNeg) ((|a.q / b.q| : ℚ) : ℝ) (divV F m a b)) ∧
    (a.isNeg = false ∨ a.q = 0 → Rounded F m a.isNeg (Real.sqrt a.q) (sqrtV F m a)) ∧
    (∀ neg : Bool, Summed F m ((a.isNeg != b.isNeg) != neg) ((if neg then -1 else 1) * (a.q * b.q)) c.isNeg c.q
      (fmaV F m neg a b c))
/-- A whole number y that the magnitude x rounds to (R90). -/
def RoundedInt (m : RMode) (neg : Bool) (x : ℚ) (y : Nat) : Prop :=
  let lo := ⌊x⌋.toNat
  (goesUp m neg (lo % 2 == 1) ((x - lo : ℚ) : ℝ) → y = lo + 1) ∧ (¬ goesUp m neg (lo % 2 == 1) ((x - lo : ℚ) : ℝ) → y = lo)
/-- A value in an integer type of w bits (R90): the rounded number where the type holds it, with NX when it is another; else the
nearer limit, and for a NaN zero, with NV. -/
def ToInteger (sg : Bool) (w : Nat) (m : RMode) (a : FVal) (r : FRes) : Prop :=
  let lo : Int := if sg then -2 ^ (w - 1) else 0
  let hi : Int := if sg then 2 ^ (w - 1) - 1 else 2 ^ w - 1
  let code (v : Int) : Nat := (v % 2 ^ w).toNat
  (∀ q, a = .nan q → r = (0, fNV)) ∧
  (∀ s, a = .inf s → r = (code (if s then lo else hi), fNV)) ∧
  (a.finite = true → ∃ y, RoundedInt m a.isNeg |a.q| y ∧
    let v : Int := if a.isNeg then -(y : Int) else y
    (lo ≤ v ∧ v ≤ hi → r = (code v, if (y : ℚ) = |a.q| then 0#5 else fNX)) ∧ (v < lo → r = (code lo, fNV)) ∧
    (hi < v → r = (code hi, fNV)))

/-! The algorithms of the special functions, on exact numbers (spec/06_vector_arith.md R142-R148), with the constants that the model's
tables list; `TablesNearest` says what those are. -/

/-- The whole number nearest x, the even one of two. -/
def nearest (x : ℚ) : Int := if x - ⌊x⌋ < 1 / 2 ∨ (x - ⌊x⌋ = 1 / 2 ∧ ⌊x⌋ % 2 = 0) then ⌊x⌋ else ⌊x⌋ + 1
/-- mul(a, b) of R142. -/
def mul60 (a b : Int) : Int := a * b / 2 ^ 60
/-- exp2core of R142: n and v. -/
def exp2Parts (x : Int) : Int × Int :=
  let n := x / 2 ^ 24
  let f := x - n * 2 ^ 24
  let j := f / 2 ^ 19
  let u := (f - j * 2 ^ 19) * 2 ^ 6
  let p := 2 ^ 30 + ((cC1 : Int) + ((cC2 : Int) + cC3 * u / 2 ^ 30) * u / 2 ^ 30) * u / 2 ^ 30
  (n, (tblT.getD j.toNat 0 : Int) * p)
/-- What `vexp2` rounds (R143). -/
def exp2Value (x : ℚ) : ℚ :=
  let p := exp2Parts (nearest (min (max x (-160)) 128 * 2 ^ 24))
  p.2 * 2 ^ (p.1 - 60)
/-- What `vlog2` rounds, for x = s * 2^(e - 23) (R144). -/
def log2Value (s e : Int) : ℚ :=
  let m := if 3 * 2 ^ 23 ≤ 2 * s then s else 2 * s
  let e := if 3 * 2 ^ 23 ≤ 2 * s then e + 1 else e
  let k := nearest (m / 2 ^ 17)
  let w := (m - k * 2 ^ 17) * 2 ^ 60 / (k * 2 ^ 17)
  let p := mul60 w (cK1 - mul60 w (cK2 - mul60 w (cK3 - mul60 w cK4)))
  e + (tblG.getD (k - 96).toNat 0 + p : Int) * 2 ^ (-60 : Int)
/-- What `vrcp` rounds, but for its sign (R145). -/
def rcpValue (s e : Int) : ℚ :=
  if s = 2 ^ 23 then 2 ^ (-e)
  else
    let y := nearest (2 ^ 38 / (2 * (s / 2 ^ 16 - 128) + 257 : Int))
    let t := 2 ^ 60 - s * 2 ^ 7 * y
    (y * (2 ^ 60 + mul60 t (2 ^ 60 + mul60 t (2 ^ 60 + t))) : Int) * 2 ^ (-e - 90)
/-- What `vrsqrt` rounds (R146). -/
def rsqrtValue (s e : Int) : ℚ :=
  let s' := if e % 2 = 1 then 2 * s else s
  let e' := if e % 2 = 1 then e - 1 else e
  if s' = 2 ^ 23 then 2 ^ (-(e' / 2))
  else
    let y : Int := tblSQ.getD (s' / 2 ^ 18 - 32).toNat 0
    let t := (2 ^ 90 - s' * 2 ^ 7 * y * y) / 2 ^ 30
    (y * (2 ^ 60 + mul60 t (2 ^ 59 + mul60 t (3 * 2 ^ 57 + mul60 t (5 * 2 ^ 56 + mul60 t (35 * 2 ^ 53))))) : Int) *
      2 ^ (-(e' / 2) - 90)
/-- H and v of R147 and R148, for a, at most a limit, times log2 e or twice that. -/
def decayParts (a : ℚ) (twice : Int) : ℚ × ℚ :=
  let p := exp2Parts (-(nearest (a * 2 ^ 24) * cL2E * twice / 2 ^ 32))
  (2 ^ (60 - p.1), p.2)
/-- What `vsigm` rounds (R147). -/
def sigmValue (x : ℚ) : ℚ :=
  let p := decayParts (min |x| 128) 1
  (if 0 ≤ x then p.1 else p.2) / (p.1 + p.2)
/-- What `vtanh` rounds, but for its sign (R148). -/
def tanhValue (x : ℚ) : ℚ :=
  if |x| < 2 ^ (-4 : Int) then
    let z := ⌊x * x * 2 ^ 60⌋
    |x| * (2 ^ 60 - mul60 z (nearest (2 ^ 60 / 3) - mul60 z (nearest (2 ^ 61 / 15) - mul60 z (nearest (17 * 2 ^ 60 / 315)))) : Int) *
      2 ^ (-60 : Int)
  else
    let p := decayParts (min |x| 64) 2
    (p.1 - p.2) / (p.1 + p.2)
/-- The finite results of the special functions (R141): the value of the algorithm, rounded once. The forms of a significand take
any s and e that the operand's magnitude is (R142). -/
def SpecialsRound (F : Fmt) : Prop :=
  ∀ (m : RMode) (a : Nat) (sg : Bool) (n : Nat) (e : Int), m.bits < 2 ^ 32 → unpack F a = .fin sg n e →
    let x := (FVal.fin sg n e).q
    Rounded F m false (exp2Value x) (specElem .vexp2 F m a) ∧
    Rounded F m false (sigmValue x) (specElem .vsigm F m a) ∧
    Rounded F m sg (tanhValue x) (specElem .vtanh F m a) ∧
    (∀ s d : Int, |x| = s * 2 ^ (d - 23) → 2 ^ 23 ≤ s → s < 2 ^ 24 →
      Rounded F m sg (rcpValue s d) (specElem .vrcp F m a) ∧
      (sg = false → Rounded F m (decide (log2Value s d < 0)) ((|log2Value s d| : ℚ) : ℝ) (specElem .vlog2 F m a) ∧
        Rounded F m false (rsqrtValue s d) (specElem .vrsqrt F m a)))
/-- n is the nearest whole number to x, and no other is as near. -/
def IsNearest (n : Int) (x : ℝ) : Prop := |(n : ℝ) - x| < 1 / 2
/-- The tables and the constants hold the nearest whole numbers (R142): T[j] that of 2^(30 + j/32), SQ[j] that of 2^30 divided by the
root of 1 + (2j + 1)/64, G[k] that of 2^60 log2(k/128), and so C1-C3, K1-K4 and L2E. -/
def TablesNearest : Prop :=
  IsNearest cC1 (2 ^ 30 * Real.log 2) ∧ IsNearest cC2 (2 ^ 30 * Real.log 2 ^ 2 / 2) ∧ IsNearest cC3 (2 ^ 30 * Real.log 2 ^ 3 / 6) ∧
  IsNearest cL2E (2 ^ 32 / Real.log 2) ∧
  IsNearest cK1 (2 ^ 60 / Real.log 2) ∧ IsNearest cK2 (2 ^ 60 / (2 * Real.log 2)) ∧ IsNearest cK3 (2 ^ 60 / (3 * Real.log 2)) ∧
  IsNearest cK4 (2 ^ 60 / (4 * Real.log 2)) ∧
  (∀ k, 96 ≤ k → k ≤ 192 → IsNearest (tblG.getD (k - 96) 0) (2 ^ 60 * Real.logb 2 (k / 128))) ∧
  (∀ j, j < 32 → let n := tblT.getD j 0; (2 * n - 1) ^ 32 < 2 ^ (992 + j) ∧ 2 ^ (992 + j) < (2 * n + 1) ^ 32) ∧
  (∀ j, j < 96 → let n := tblSQ.getD j 0; (2 * n - 1) ^ 2 * (65 + 2 * j) < 2 ^ 68 ∧ 2 ^ 68 < (2 * n + 1) ^ 2 * (65 + 2 * j))

/-- The class code of an operand of e exponent and f fraction bits (spec/05_scalar_ops.md R115). -/
def classOf (e f x : Nat) : Nat :=
  let frac := x % 2 ^ f
  let ex := x / 2 ^ f % 2 ^ e
  let sign := x / 2 ^ (e + f) % 2
  let cls := if ex = 0 then (if frac = 0 then 0 else 1)
    else if ex = 2 ^ e - 1 then (if frac = 0 then 3 else if 2 ^ (f - 1) ≤ frac then 4 else 5) else 2
  let int := (ex = 0 ∧ frac = 0) ∨ (0 < ex ∧ ex < 2 ^ e - 1 ∧ (2 ^ f + frac) * 2 ^ ex % 2 ^ (2 ^ (e - 1) - 1 + f) = 0)
  cls + 8 * sign + (if int then 16 else 0)
/-- The code with another sign bit. -/
def resign (F : Fmt) (x y : Nat) : Nat := x % 2 ^ (F.width - 1) + y % 2 * 2 ^ (F.width - 1)
/-- The sign bit of a code. -/
def topBit (F : Fmt) (x : Nat) : Nat := x / 2 ^ (F.width - 1) % 2

/-- A NaN's code: an exponent of all ones with a fraction that is not zero (spec/04_formats.md R81). -/
def nanCode (F : Fmt) (x : Nat) : Bool := decide (x / 2 ^ F.f % 2 ^ F.eb = 2 ^ F.eb - 1 ∧ x % 2 ^ F.f ≠ 0)
/-- A signalling NaN's code: the top bit of its fraction is 0. -/
def signallingCode (F : Fmt) (x : Nat) : Bool := nanCode F x && decide (x % 2 ^ F.f < 2 ^ (F.f - 1))
/-- The canonical NaN: positive, with the top bit of the fraction alone. -/
def canonicalNan (F : Fmt) : Nat := (2 ^ F.eb - 1) * 2 ^ F.f + 2 ^ (F.f - 1)
/-- Where a code that is no NaN stands among the values of its format; the two zeros stand together. -/
def standing (F : Fmt) (x : Nat) : Int :=
  if topBit F x = 1 then -((x % 2 ^ (F.width - 1) : Nat) : Int) else ((x % 2 ^ (F.width - 1) : Nat) : Int)
/-- The relations of spec/06_vector_arith.md R134 on numbers: equal, not equal, less, less or equal, greater, greater or equal;
the last, unordered, no two numbers are in. -/
def related (op : Nat) (p q : Int) : Bool :=
  match op with
  | 0 => decide (p = q) | 1 => decide (p ≠ q) | 2 => decide (p < q) | 3 => decide (p ≤ q) | 4 => decide (q < p) | 5 => decide (q ≤ p)
  | _ => false
/-- A compare of two codes (spec/04_formats.md R95): with a NaN, equal and the ordered relations are false, not equal and unordered
true, and NV is raised by an ordered relation, or by a signalling NaN; without one, the relation of the numbers, and no flag. -/
def compared (F : Fmt) (op x y : Nat) : Bool × BitVec 5 :=
  if nanCode F x = true ∨ nanCode F y = true then
    (decide (op = 1 ∨ op = 6),
      if (2 ≤ op ∧ op ≤ 5) ∨ signallingCode F x = true ∨ signallingCode F y = true then fNV else 0#5)
  else (related op (standing F x) (standing F y), 0#5)
/-- The lesser of two codes, or the greater with `mx` (spec/04_formats.md R95): of a NaN and a number, the number; of two NaNs, the
canonical one; NV by a signalling NaN; of two numbers the lesser or the greater, where -0 stands below +0. -/
def chosen (F : Fmt) (mx : Bool) (x y : Nat) : FRes :=
  let nv := if signallingCode F x = true ∨ signallingCode F y = true then fNV else 0#5
  let at_ (c : Nat) : Int := 2 * standing F c - topBit F c
  if nanCode F x = true ∧ nanCode F y = true then (canonicalNan F, nv)
  else if nanCode F x = true then (y, nv)
  else if nanCode F y = true then (x, nv)
  else (if (at_ x < at_ y) ↔ mx = false then x else y, 0#5)
/-- A code of an infinity. -/
def infCodeIs (F : Fmt) (x : Nat) : Bool := decide (x % 2 ^ (F.width - 1) = (2 ^ F.eb - 1) * 2 ^ F.f)
/-- A code of a zero. -/
def zeroCodeIs (F : Fmt) (x : Nat) : Bool := decide (x % 2 ^ (F.width - 1) = 0)
/-- The infinity of a sign. -/
def infOf (F : Fmt) (neg : Bool) : Nat := (2 ^ F.eb - 1) * 2 ^ F.f + if neg then 2 ^ (F.width - 1) else 0
/-- What an operation gives for a NaN among its operands, where no other row applies (spec/04_formats.md R95). -/
def nanGiven (F : Fmt) (l : List Nat) (r : FRes) : Prop :=
  l.any (nanCode F) = true → r = (canonicalNan F, if l.any (signallingCode F) = true then fNV else 0#5)
/-- The invalid operations of R95, and a divisor of zero, on codes of a format; and what an infinity gives where R95 has no row
for it, its limit without a flag (log 51). -/
def SpecialsAt (F : Fmt) (m : RMode) (x y z : Nat) (neg : Bool) : Prop :=
  let a := unpack F x
  let b := unpack F y
  let c := unpack F z
  let sx := topBit F x == 1
  let sy := topBit F y == 1
  let sz := topBit F z == 1
  let invalid : FRes := (canonicalNan F, fNV)
  let numbers := nanCode F x = false ∧ nanCode F y = false
  let zeroInf := (zeroCodeIs F x = true ∧ infCodeIs F y = true) ∨ (infCodeIs F x = true ∧ zeroCodeIs F y = true)
  let anyInf := infCodeIs F x = true ∨ infCodeIs F y = true
  b.neg = unpack F (resign F y (1 + topBit F y)) ∧
  nanGiven F [x, y] (addV F m a b) ∧
  (infCodeIs F x = true → infCodeIs F y = true → addV F m a b = if sx = sy then (x, 0#5) else invalid) ∧
  (infCodeIs F x = true → nanCode F y = false → infCodeIs F y = false → addV F m a b = (x, 0#5) ∧ addV F m b a = (x, 0#5)) ∧
  nanGiven F [x, y] (mulV F m a b) ∧
  (zeroInf → mulV F m a b = invalid) ∧
  (numbers → ¬ zeroInf → anyInf → mulV F m a b = (infOf F (sx != sy), 0#5)) ∧
  nanGiven F [x, y] (divV F m a b) ∧
  (numbers → zeroCodeIs F y = true → zeroCodeIs F x = false → infCodeIs F x = false →
    divV F m a b = (infOf F (sx != sy), fDZ)) ∧
  ((zeroCodeIs F x = true ∧ zeroCodeIs F y = true) ∨ (infCodeIs F x = true ∧ infCodeIs F y = true) → divV F m a b = invalid) ∧
  (numbers → infCodeIs F x = true → infCodeIs F y = false → divV F m a b = (infOf F (sx != sy), 0#5)) ∧
  (numbers → infCodeIs F x = false → infCodeIs F y = true →
    divV F m a b = (if (sx != sy) = true then 2 ^ (F.width - 1) else 0, 0#5)) ∧
  nanGiven F [x] (sqrtV F m a) ∧
  (nanCode F x = false → zeroCodeIs F x = false → sx = true → sqrtV F m a = invalid) ∧
  (zeroCodeIs F x = true ∨ x = infOf F false → sqrtV F m a = (x, 0#5)) ∧
  (zeroInf → fmaV F m neg a b c = invalid) ∧
  (¬ zeroInf → nanGiven F [x, y, z] (fmaV F m neg a b c)) ∧
  (numbers → ¬ zeroInf → anyInf → nanCode F z = false →
    fmaV F m neg a b c = if infCodeIs F z = true ∧ sz ≠ ((sx != sy) != neg) then invalid else (infOf F ((sx != sy) != neg), 0#5)) ∧
  (numbers → ¬ anyInf → infCodeIs F z = true → fmaV F m neg a b c = (z, 0#5))
/-- So it is for every code of a format. -/
def SpecialsOf (F : Fmt) : Prop :=
  ∀ (m : RMode) (x y z : Nat) (neg : Bool), x < 2 ^ F.width → y < 2 ^ F.width → z < 2 ^ F.width → SpecialsAt F m x y z neg

/-- The state in which a csr instruction reads and writes: after the lazy vector switch for a register of the vector state
(spec/17_traps.md R403, R404). -/
def csrState (s : State) (n : Nat) : State := if vectorCsr n then vsave s else s
/-- A csr instruction that nothing stops: the register is open to the agent and its mode, no register read is poisoned, and
no failed run waits to be reported where that comes first. -/
def CsrReady (s : State) (n : Nat) (rs : List Reg) : Prop :=
  csrOk s.me n = true ∧ Clean s rs ∧ (vectorCsr n = true → isHart s.me = true ∧ s.me.vec.rPend = false)
/-- A csr instruction that writes `new old` (spec/05_scalar_ops.md R118): rd takes what the register held, and the register is
written by its map, in full or its RW fields alone; a write that its map traps has no effect. A write of `FFLAGS` waits while a
run has been issued that has not ended (R119): the word executes again. -/
def CsrForm (i : Instr) (rs : List Reg) (s : State) (d : Reg) (n : Nat) (new : Word → Word) (full : Bool) : Prop :=
  CsrReady s n rs →
    let t := csrState s n
    ((n = 5 → t.me.vec.rRun = false) →
      (∀ t', storeCsr t n (new (readCsr t n)) full = .ok t' →
        exec i s = .next (setPc (wr t' d (readCsr t n)) (t'.me.pc + 4#64))) ∧
      (∀ tr, storeCsr t n (new (readCsr t n)) full = .error tr → exec i s = .next (takeTrap t tr))) ∧
    (n = 5 → t.me.vec.rRun = true → exec i s = .next t)
/-- What `tlbinv` discards (spec/16_isolation.md R363): a selected address space that the agent may name, and an entry on the
walk of the address, or any. -/
def Discards (s : State) (a b : Word) (e : TlbEntry) : Prop :=
  (a.getLsbD 16 = true ∨ e.asid = a.toNat % 65536) ∧
  (match s.me.id with
   | .hart _ => (aspOf s e.asid).ten = s.me.ten
   | .cc _ => s.me.mode = .m ∨ s.me.cc.tenmask.getLsbD (aspOf s e.asid).ten.toNat = true ∨ s.me.cc.asid.toNat = e.asid) ∧
  (a.getLsbD 17 = true ∨ e.path = (b.toNat / 65536 * 65536) / 2 ^ pageLog e.level)
/-- The least number of parts of at most c that make up n, for c above 0. -/
def ceilDiv (n c : Nat) : Nat := (n + c - 1) / c
/-- The grant of spec/06_vector_arith.md R126 for a request, a capacity, BAL and G. -/
def granted (req c : Nat) (bal : Bool) (g : Nat) : Nat :=
  let l := if bal = true ∧ c < req then ceilDiv req (ceilDiv req c) else min req c
  if 2 ^ g ≤ l then l - l % 2 ^ g else l
/-- A barrier instruction (spec/14_harts_kiln.md R317) on a barrier b, for a hart that has no run: which it completes with, where
it traps, and where it waits. `put` puts the barrier back and releases the harts of a completed generation; `note` notes what the
hart waits for. -/
def BarrierForm (i : Reg → Reg → Instr) (s : State) (b : Barrier) (arrived : Bool) (waits : Option (BitVec 16))
    (put : Barrier → State) (note : State → Bool → Option (BitVec 16) → State) : Prop :=
  ∀ d a, Clean s [a] →
    let t := BitVec.ofNat 16 (getG s.me a).toNat
    let back (u : State) (g : BitVec 16) : Host.Outcome State Fault Refusal :=
      .next (setPc (wr (note u false none) d (BitVec.ofNat 64 g.toNat)) ((note u false none).me.pc + 4#64))
    (∀ g, waits = some g → arrived = false → exec (i d a) s = back s g) ∧
    (∀ g, waits = some g → arrived = true → exec (i d a) s = .next s) ∧
    (waits = none → b.arr ≠ 0#11 → t ≠ b.tag → Traps (i d a) s cBarrier (BitVec.ofNat 64 b.tag.toNat)) ∧
    (waits = none → (b.arr = 0#11 ∨ t = b.tag) → b.arr + 1#11 = b.live → b.live ≠ 0#11 →
      exec (i d a) s = back (put { gen := b.gen + 1#16, tag := 0#16, arr := 0#11, live := b.live }) b.gen) ∧
    (waits = none → (b.arr = 0#11 ∨ t = b.tag) → b.arr + 1#11 ≠ b.live →
      exec (i d a) s = .next (note (put { b with tag := t, arr := b.arr + 1#11 }) true (some b.gen)))

/-- A barrier that one hart has left (R410): LIVE one less, and a generation that is then complete ends (R317). -/
def oneLess (b : Barrier) : Barrier :=
  if b.arr = b.live - 1#11 ∧ b.arr ≠ 0#11 then { gen := b.gen + 1#16, tag := 0#16, arr := 0#11, live := b.live - 1#11 }
  else { b with live := b.live - 1#11 }
/-- Whether a lane block, by its first lane and its size, lies within another. -/
def lanesWithin (x y : Nat × Nat) : Bool := decide (y.1 ≤ x.1 ∧ x.1 + x.2 ≤ y.1 + y.2)
/-- The block in force of a hart, and its pending one. -/
def inForce (a : Agent) : Nat × Nat := (a.first.toNat, a.lanes.toNat)
/-- The pending block of a hart. -/
def pendingBlock (a : Agent) : Nat × Nat := (a.nfirst.toNat, a.nlanes.toNat)
/-- The block that a hart holds beside the one in force (R315): its pending one, or, where Kiln has reclaimed lanes of that and the
hart has not changed since, the one that was pending. -/
def heldBlock (a : Agent) : Nat × Nat :=
  match a.kept with
  | some b => (b.1.toNat, b.2.toNat)
  | none => pendingBlock a
/-- The lane blocks that a hart gives up (R315): the held one if the rest has been taken, or if it contains the block in force; the
one in force if that contains the held one; else both, as one where they are buddies. -/
def givenUp (a : Agent) : List (Nat × Nat) :=
  let now := inForce a
  let next := heldBlock a
  if a.reclaimed = true ∨ lanesWithin now next = true then [next]
  else if lanesWithin next now = true then [now]
  else if next.2 = now.2 ∧ Nat.xor next.1 next.2 = now.1 ∧ next.2 < 128 then [(min next.1 now.1, 2 * next.2)]
  else [next, now]
/-- The live hart of the acting hart's gang whose lanes in force, which it still holds, are the buddy of a block (R315). -/
def takerOf (s : State) (k : EntryId) (core : Nat) (b : Nat × Nat) : Option Agent :=
  (liveHarts s k).find? (fun o => o.id != s.me.id && agentCore o == core && inForce o == (Nat.xor b.1 b.2, b.2) &&
    decide (b.2 < 128) && (!o.reclaimed || lanesWithin (inForce o) (heldBlock o)))
/-- The doubled block with what joins it from a pool, and the pool without that (R315). -/
def joinedWith (pool : List (Nat × Nat)) (b : Nat × Nat) : List (Nat × Nat) × Nat × Nat :=
  joinPool 6 pool (min b.1 (Nat.xor b.1 b.2)) (2 * b.2)
/-- The pool after a block is given up to a hart or to it. -/
def poolAfter (pool : List (Nat × Nat)) (b : Nat × Nat) (taker : Option Agent) : List (Nat × Nat) :=
  if taker = none then b :: pool else (joinedWith pool b).1
/-- The pending grant of a block's taker afterwards. -/
def GrantGrown (t : State) (pool : List (Nat × Nat)) (b : Nat × Nat) (taker : Option Agent) : Prop :=
  ∀ o, taker = some o → (agentOf t o.id).nfirst = BitVec.ofNat 7 (joinedWith pool b).2.1 ∧
    (agentOf t o.id).nlanes = BitVec.ofNat 8 (joinedWith pool b).2.2
/-- The state after the lazy switch with no other effect yet (spec/17_traps.md R404). -/
abbrev switched (s : State) : State := vsave s
/-- Element k of a form of one type, from its operands as patterns of the element width. -/
def intAt (f : (n : Nat) → Bool → BitVec n → BitVec n → BitVec n → BitVec n) (u : State) (w : VWord) (k : Nat) : FRes :=
  let n := elemW w.vt.val
  ((f n (signedTy w.vt.val) (BitVec.ofNat n (srcA u w k)) (BitVec.ofNat n (bElem u w.vt.val w k))
    (BitVec.ofNat n (srcC u w k))).toNat, 0#5)
/-- An integer form (spec/06_vector_arith.md R128, R132): it completes, and its active body elements take f of the operands. -/
def IntForm (op : VOp) (i : VWord → Instr) (f : (n : Nat) → Bool → BitVec n → BitVec n → BitVec n → BitVec n) : Prop :=
  ∀ s h w, Ready op w s h → Runs8 (i w) s (elementwise (switched s) w.vt.val w (intAt f (switched s) w))
/-- A floating-point form (R128, R133): f of the format, the mode of the element, and the operands' codes. -/
def FloatForm (op : VOp) (i : VWord → Instr) (f : Fmt → RMode → Nat → Nat → Nat → FRes) : Prop :=
  ∀ s h w, Ready op w s h → Runs8 (i w) s (elementwise (switched s) w.vt.val w (fun k =>
    f (fmtOf w.vt.val) (modeAt (switched s) w k) (srcA (switched s) w k) (bElem (switched s) w.vt.val w k) (srcC (switched s) w k)))
/-- The number an unsigned or signed pattern stands for. -/
def intVal {n : Nat} (sg : Bool) (a : BitVec n) : Int := if sg then a.toInt else a.toNat
/-- An exact value clamped to the range of an integer type. -/
def clampTo (n : Nat) (sg : Bool) (v : Int) : BitVec n :=
  if sg then BitVec.ofInt n (max (-2 ^ (n - 1)) (min (2 ^ (n - 1) - 1) v)) else BitVec.ofInt n (max 0 (min (2 ^ n - 1) v))
/-- A form that writes bits of mask register vd (R127, R134, R135): over its body, element k takes `f k` where that is given and
keeps its bit where not; no other bit of a mask, and nothing else but FFLAGS, VSTART, the poison of masks and the PC differs. -/
def MaskForm (i : Instr) (s u : State) (d start stop : Nat) (f : Nat → Option Bool) (fl : BitVec 5) : Prop :=
  ∃ t, exec i s = .next t ∧
    (∀ n k, k < 65536 → maskBitOf t.me.vec.masks n k =
      if n % 8 = d % 8 ∧ d % 8 ≠ 0 ∧ start ≤ k ∧ k < stop then (f k).getD (maskBitOf u.me.vec.masks n k)
      else maskBitOf u.me.vec.masks n k) ∧
    t = { u with me := { u.me with
      pc := s.me.pc + 8#64, fflags := u.me.fflags ||| fl
      vec := { u.me.vec with masks := t.me.vec.masks, pm := t.me.vec.pm, vstart := 0#17 } } }
/-- A form that completes and changes nothing but vector register vd, `FFLAGS`, `VSTART`, which becomes 0, and the PC. -/
def WritesVd (op : VOp) (i : VWord → Instr) : Prop :=
  ∀ s h w, Ready op w s h → ∃ t, exec (i w) s = .next t ∧ OnlyV (switched s) t (regOf w.vd.val) ∧
    t.me.pc = s.me.pc + 8#64 ∧ t.me.vec.vstart = 0#17
/-- Whether element k of a body is one that a word writes by its mask. -/
def activeAt (u : State) (w : VWord) (k : Nat) : Bool := maskBitOf u.me.vec.masks (maskReg w) k
/-- A form that writes element k of vd as `f k` for the active elements from `start` below evl. -/
def ElementForm (op : VOp) (i : VWord → Instr) (start : State → VWord → Nat) (f : State → VWord → Nat → Nat) : Prop :=
  ∀ s h w, Ready op w s h → Runs8 (i w) s
    (elementsOn (switched s) w.vt.val w (body (start (switched s) w) (evlOf (switched s) w.vt.val))
      (fun k => (f (switched s) w k, 0#5)))
/-- How many active elements lie below k. -/
def activeBelow (u : State) (w : VWord) (k : Nat) : Nat := ((List.range k).filter (activeAt u w)).length
/-- Where a body begins. -/
def atVstart (u : State) (_ : VWord) : Nat := u.me.vec.vstart.toNat
/-- What a form leaves in vd and in `FFLAGS`: element k of d takes `f k` where that is given, and keeps its value else; the flags
of every element that is given one are added. -/
def WritesElements (u t : State) (ty d : Nat) (f : Nat → Option FRes) : Prop :=
  (∀ k, k < cap ty (lanesIn u) → elemAt t.me.vec.regs ty (lanesIn u) d k =
    match f k with
    | some x => x.1 % 2 ^ codeW ty
    | none => elemAt u.me.vec.regs ty (lanesIn u) d k) ∧
  (∀ j, j < 5 → t.me.fflags.getLsbD j = (u.me.fflags.getLsbD j ||
    (List.range (cap ty (lanesIn u))).any (fun k => ((f k).map (fun x => x.2.getLsbD j)).getD false)))
/-- What an element takes that mask bit n governs: x where it is active, zero where it is masked off under MZ, and else nothing
(R128). -/
def masked (u : State) (w : VWord) (n : Nat) (x : FRes) : Option FRes :=
  if activeAt u w n then some x else if maskZ w then some (0, 0#5) else none
/-- A form that completes, changes only vd, `FFLAGS`, `VSTART` and the PC, and leaves `f` in the elements of vd, as type `ty`. -/
def ValueForm (op : VOp) (i : VWord → Instr) (ty : VWord → Nat) (f : State → VWord → Nat → Option FRes) : Prop :=
  ∀ s h w, Ready op w s h → lanesIn s ≤ 128 → ∃ t, exec (i w) s = .next t ∧ OnlyV (switched s) t (regOf w.vd.val) ∧
    t.me.pc = s.me.pc + 8#64 ∧ t.me.vec.vstart = 0#17 ∧
    WritesElements (switched s) t (ty w) w.vd.val (f (switched s) w)
/-- The pair of a destination element k in a conversion (R136): its narrow-side index and its source element, where the pair
reaches from `start` and stays below `lim`. -/
def pairOf (dst src : Nat) (u : State) (w : VWord) (start lim k : Nat) : Option (Nat × Nat) :=
  let c := min (cap dst (lanesIn u)) (cap src (lanesIn u))
  let n0 := w.f3.val / 8 % 16 * c
  if cap dst (lanesIn u) ≤ cap src (lanesIn u) then
    if k < c ∧ start ≤ n0 + k ∧ n0 + k < min lim (cap src (lanesIn u)) then some (n0 + k, n0 + k) else none
  else if n0 ≤ k ∧ k < n0 + c ∧ start ≤ k ∧ k < lim then some (k, k - n0) else none
/-- The value of `vcvt` (R137): an integer is clamped to the destination's range, or rounded; a float is rounded into the format
or to an integer. -/
def converted (dst src : Nat) (m : RMode) (x : Nat) : FRes :=
  let v := intVal (signedTy src) (BitVec.ofNat (elemW src) x)
  if src < 8 ∧ dst < 8 then ((clampTo (elemW dst) (signedTy dst) v).toNat, 0#5)
  else if src < 8 then roundTo (fmtOf dst) m (decide (v < 0)) v.natAbs 0 false
  else if dst < 8 then toInt (signedTy dst) (elemW dst) m (unpack (fmtOf src) x)
  else toFmt (fmtOf dst) m (unpack (fmtOf src) x)
/-- The value of a block's scale code (spec/04_formats.md R85). -/
def scaleVal (c : Nat) : ℚ := 2 ^ ((c / 2 : Int) - 127) * (1 + (c % 2 : Nat) / 2)
/-- The value of `vunpack` (R139): the code's value times the scale's, rounded once. -/
def unpacked (dst bt : Nat) (m : RMode) (code scale : Nat) : FRes :=
  let F := fmtOf dst
  if scale = 511 then (F.nan, 0#5)
  else match blkVal bt code with
    | .fin s n e => roundTo F m s (n * (2 + scale % 2)) (e + (scale / 2 : Nat) - 128) false
    | .inf s => (F.sign s F.infCode, 0#5)
    | .nan _ => (F.nan, 0#5)
/-- The largest finite element of a block type (R138). -/
def maxOf (bt : Nat) : ℚ :=
  if bt = 17 then 448 else if bt = 18 then 57344 else if bt = 19 then 28 else if bt = 20 then 6 else 127 / 64
/-- The scale of a block of `vpack` (R138), from its 32 source values: the NaN code with NV; else code 0x0FE for zeros, and the
least that admits the greatest magnitude. -/
def ScaleChosen (bt : Nat) (x : Nat → FVal) (code : Nat) (fl : BitVec 5) : Prop :=
  ((∃ q < 32, (x q).finite = false) → code = 511 ∧ fl = fNV) ∧
  ((∀ q < 32, (x q).finite = true) → fl = 0#5 ∧
    ((∀ q < 32, (x q).q = 0) → code = 0x0FE) ∧
    ((∃ q < 32, (x q).q ≠ 0) → code < 511 ∧ (∀ q < 32, |(x q).q| ≤ scaleVal code * maxOf bt) ∧
      ∀ c < code, ∃ q < 32, scaleVal c * maxOf bt < |(x q).q|))
/-- An element code of `vpack` (R138): zero in a block of the NaN scale; else the value over the scale, rounded to the element
format, or for mxi8 to a multiple of 1/64. -/
def ElementPacked (bt code : Nat) (m : RMode) (x : FVal) (r : FRes) : Prop :=
  (code = 511 → r = (0, 0#5)) ∧
  (code ≠ 511 → bt ≠ 21 → Rounded (fmtOf (blkElem bt)) m x.isNeg ((|x.q| / scaleVal code : ℚ) : ℝ) r) ∧
  (code ≠ 511 → bt = 21 → ∃ y, RoundedInt m x.isNeg (|x.q| / scaleVal code * 64) y ∧
    r = (((if x.isNeg then -(y : Int) else y) % 256).toNat, if (y : ℚ) = |x.q| / scaleVal code * 64 then 0#5 else fNX))
/-- `vpack` (R138): each block of the body whose 32 elements are all paired takes its scale, and its active elements their codes;
no other scale slot and no other element changes. -/
def PackForm : Prop :=
  ∀ s h w, Ready .vpack w s h → lanesIn s ≤ 128 →
    let u := switched s
    let bt := w.vt.val
    let src := w.f2.val
    let L := lanesIn u
    let start := u.me.vec.vstart.toNat / 32 * 32
    let pair (n : Nat) := pairOf bt src u w start u.me.vec.vlLen.toNat n
    let whole (j : Nat) : Bool := (List.range 32).all (fun q => (pair (32 * j + q)).isSome)
    let x (n : Nat) : FVal := unpack (fmtOf src) (srcElem u.me.vec.regs src L w.f1 ((pair n).getD (0, 0)).2)
    ∃ (t : State) (code : Nat → Nat) (fl : Nat → BitVec 5) (r : Nat → FRes), exec (.vpack w) s = .next t ∧ OnlyV u t (regOf w.vd.val) ∧
      (∀ j, j < cap bt L / 32 → whole j = true →
        ScaleChosen bt (fun q => x (32 * j + q)) (code j) (fl j) ∧
        ∀ q < 32, ElementPacked bt (code j) (modeAt u w (32 * j + q)) (x (32 * j + q)) (r (32 * j + q))) ∧
      (∀ j, j < cap bt L / 32 → scaleAt t.me.vec.regs w.vd.val j =
        if whole j then code j else scaleAt u.me.vec.regs w.vd.val j) ∧
      (∀ k, k < cap bt L → elemAt t.me.vec.regs bt L w.vd.val k =
        match (if whole (k / 32) then masked u w k (r k) else none) with
        | some y => y.1 % 2 ^ codeW bt
        | none => elemAt u.me.vec.regs bt L w.vd.val k) ∧
      (∀ b, b < 5 → t.me.fflags.getLsbD b = (u.me.fflags.getLsbD b ||
        (List.range (cap bt L)).any (fun k => whole (k / 32) &&
          ((fl (k / 32)).getLsbD b || (activeAt u w k && (r k).2.getLsbD b)))))
/-- The block that a source field reads for block j (spec/02_encoding.md R37). -/
def sourceBlock (f : Fin 512) (j : Nat) : Nat := srcIndex f (32 * j) / 32
/-- One combination of a reduction or a scan (R149; spec/08_permute_sparse.md R182): sum, lesser, greater, and, or, exclusive or. -/
def combineOf (kind t : Nat) (m : RMode) (a b : Nat) : FRes :=
  let n := elemW t
  let F := fmtOf t
  let va := intVal (signedTy t) (BitVec.ofNat n a)
  let vb := intVal (signedTy t) (BitVec.ofNat n b)
  match kind with
  | 0 => if fltTy t then addV F m (unpack F a) (unpack F b) else ((a + b) % 2 ^ n, 0#5)
  | 1 => if fltTy t then minmax F false a b else (if va ≤ vb then a else b, 0#5)
  | 2 => if fltTy t then minmax F true a b else (if va ≤ vb then b else a, 0#5)
  | 3 => (a &&& b, 0#5)
  | 4 => (a ||| b, 0#5)
  | _ => (a ^^^ b, 0#5)
/-- The ordered form (spec/04_formats.md R99): the elements of a list one after another, each with the mode of its index. -/
def inOrderFrom (f : RMode → Nat → Nat → FRes) (md : Nat → RMode) (x : Nat → Nat) : List Nat → FRes → FRes
  | [], r => r
  | i :: l, r => inOrderFrom f md x l ((f (md i) r.1 (x i)).1, r.2 ||| (f (md i) r.1 (x i)).2)
/-- The tree form (R99): what stands at a position of a level, as the lowest index below it, the value and the flags so far, or
nothing; a combination takes the mode of the lowest index of its right operand (R151). -/
def treeAt (f : RMode → Nat → Nat → FRes) (md : Nat → RMode) (x : Nat → Option Nat) : Nat → Nat → Option (Nat × FRes)
  | 0, j => (x j).map (fun v => (j, v, 0#5))
  | l + 1, j => match treeAt f md x l (2 * j), treeAt f md x l (2 * j + 1) with
    | some a, some b => some (a.1, (f (md b.1) a.2.1 b.2.1).1, a.2.2 ||| b.2.2 ||| (f (md b.1) a.2.1 b.2.1).2)
    | some a, none => some a
    | none, b => b
/-- A reduction's value from its operands: the ordered form, from element 0 of vs2, or for a `vredosum` that resumes from element 0
of vd (R150); and the tree form, whose last combination takes the mode of the first element. Seventeen levels reach every
position of the longest vector, and a level above the last combination changes nothing. -/
def reduced (op : VOp) (kind : Nat) (w : VWord) (u : State) : FRes :=
  let t := w.vt.val
  let n := evlOf u t
  let start := u.me.vec.vstart.toNat
  let f := combineOf kind t
  let s0 := if op = .vredosum ∧ start ≠ 0 then elemAt u.me.vec.regs t (lanesIn u) w.vd.val 0
    else srcElem u.me.vec.regs t (lanesIn u) w.f2 0
  if op = .vredtsum then
    match treeAt f (modeAt u w) (fun j => if start ≤ j ∧ j < n ∧ activeAt u w j = true then some (srcA u w j) else none) 17 0 with
    | some a => ((f (modeAt u w 0) s0 a.2.1).1, a.2.2 ||| (f (modeAt u w 0) s0 a.2.1).2)
    | none => (s0, 0#5)
  else inOrderFrom f (modeAt u w) (srcA u w) ((List.range' start (n - start)).filter (activeAt u w)) (s0, 0#5)
/-- The earlier element whose value a scan goes on from at element i (spec/08_permute_sparse.md R182): the last active one of its
segment, if there is one. -/
def scanFrom (act newSeg : Nat → Bool) (i : Nat) : Option Nat :=
  if newSeg i then none
  else ((List.range i).filter (fun j => act j && !((List.range' (j + 1) (i - j)).any newSeg))).getLast?
/-- A segmented scan (R182): an active body element takes its own source element, or its combination with the value of the last
active element of its segment before it. -/
def ScanForm (op : VOp) (i : VWord → Instr) (kind : Nat) : Prop :=
  ∀ s h w, Ready op w s h → lanesIn s ≤ 128 →
    let u := switched s
    let ty := w.vt.val
    let L := lanesIn u
    let inBody (k : Nat) := decide (u.me.vec.vstart.toNat ≤ k) && decide (k < evlOf u ty)
    let prev (k : Nat) := scanFrom (activeAt u w) (fun j => j == 0 || maskBitOf u.me.vec.masks (srcN w.f2) j) k
    ∃ t, exec (i w) s = .next t ∧ OnlyV u t (regOf w.vd.val) ∧
      let y (k : Nat) : FRes := match prev k with
        | some j => combineOf kind ty (modeAt u w k) (elemAt t.me.vec.regs ty L w.vd.val j) (srcA u w k)
        | none => (srcA u w k, 0#5)
      WritesElements u t ty w.vd.val (fun k => if inBody k then masked u w k (y k) else none)
/-- A reduction (R149): element 0 of vd takes its value where there is a body capacity at all, and its flags are added; no other
element of vd changes. The value is what `reduced` says. -/
def ReduceForm (op : VOp) (i : VWord → Instr) (kind : Nat) : Prop :=
  ∀ s h w, Ready op w s h → lanesIn s ≤ 128 →
    let u := switched s
    let t := w.vt.val
    ∃ z, exec (i w) s = .next z ∧ OnlyV u z (regOf w.vd.val) ∧ z.me.pc = s.me.pc + 8#64 ∧ z.me.vec.vstart = 0#17 ∧
      (evlOf u t = 0 → z.me.vec.regs = u.me.vec.regs ∧ z.me.fflags = u.me.fflags) ∧
      (evlOf u t ≠ 0 → elemAt z.me.vec.regs t (lanesIn u) (regOf w.vd.val).val 0 = (redValue op w u).1 % 2 ^ codeW t ∧
        z.me.fflags = u.me.fflags ||| (redValue op w u).2) ∧
      (∀ k, 0 < k → k < cap t (lanesIn u) →
        elemAt z.me.vec.regs t (lanesIn u) w.vd.val k = elemAt u.me.vec.regs t (lanesIn u) w.vd.val k) ∧
      (evlOf u t ≠ 0 → redValue op w u = reduced op kind w u)
/-- A form that writes g register vd with v, sets `VSTART` to 0, and changes nothing else but the PC. -/
def WritesG (op : VOp) (i : VWord → Instr) (v : State → VWord → Word) : Prop :=
  ∀ s h w, Ready op w s h → exec (i w) s = .next (setPc
    { wr (switched s) (regOf w.vd.val) (v (switched s) w) with
      me := { (wr (switched s) (regOf w.vd.val) (v (switched s) w)).me with vec := { s.me.vec with vstart := 0#17 } } }
    (s.me.pc + 8#64))
/-- A load that meets no fault (spec/10_memory.md R221-R225): its stride and alignment are legal, no copy has still to write what
it waits for, and every active element or block is read. -/
def LoadsOk (op : VOp) (w : VWord) (u : State) : Prop :=
  let t := w.vt.val
  let m := memAt op w u
  let is := memBody op t u
  memCheck op t m = none ∧ arrivalDue op w u m (activeOf u w is) = false ∧
  (blkTy t = true → ∀ j ∈ is.map (· / 32), activeIn u w j ≠ [] → ∃ x, blockLoad u m t j (activeIn u w j) = .ok x) ∧
  (blkTy t = false → ∀ k ∈ is, activeAt u w k = true →
    ∃ x, elemLoad u m t (position op m.stride (srcElem u.me.vec.regs (idxTy t) (lanesIn u) (viFld w)) (idxTy t) (fun _ => 0) k) = .ok x)
/-- Twice the bytes of an element in memory (R220): e2m1 takes half a byte, every other element whole bytes. -/
def halves (ty : Nat) : Nat := if ty = 16 then 1 else 2 * (elemW ty / 8)
/-- The bytes that hold an element: one for a half. -/
def bytesOf (ty : Nat) : Nat := if ty = 16 then 1 else elemW ty / 8
/-- The element position of body element k (R220, R227). -/
def posOf (op : VOp) (u : State) (w : VWord) (k : Nat) : Int :=
  if strideForm op then (k : Int) * (rd u (regOf (srcN (viFld w)))).toInt
  else if indexForm op then
    (BitVec.ofNat (elemW (idxTy w.vt.val)) (srcElem u.me.vec.regs (idxTy w.vt.val) (lanesIn u) (viFld w) k)).toInt
  else if op = .vcompressSt then (activeBelow u w k : Int)
  else k
/-- Twice the address of body element k (R220): the base register, and the offset and the position in elements. -/
def twiceAt (op : VOp) (u : State) (w : VWord) (k : Nat) : Int :=
  2 * (rd u (regOf w.gb)).toInt + ((BitVec.ofNat 9 w.f3.val).toInt + posOf op u w k) * (halves w.vt.val : Int)
/-- What an address names to the acting hart's vector accesses, under its `MTYPE` (R215). -/
def placeAt (u : State) (acc : Acc) (a : Int) : Except Flt Loc :=
  resolveAt u (vectorCtx u) u.me.vec.mtSpace.toNat u.me.vec.mtDir.toNat acc a
/-- The code of body element k in memory (R220, R223). -/
def codeAt (op : VOp) (u : State) (w : VWord) (k : Nat) : Nat :=
  match placeAt u .read (twiceAt op u w k / 2) with
  | .error _ => 0
  | .ok l =>
    let v := readLoc u l (bytesOf w.vt.val)
    if w.vt.val = 16 then (if twiceAt op u w k % 2 = 0 then v % 16 else v / 16) else v
/-- The body of a memory form, from its first element to its last (R124, R130, R220): whole blocks for a block type. -/
def memSpan (op : VOp) (u : State) (w : VWord) : Nat × Nat :=
  let n := if indexForm op then min (evlOf u w.vt.val) (cap (idxTy w.vt.val) (lanesIn u)) else evlOf u w.vt.val
  if blkTy w.vt.val then (u.me.vec.vstart.toNat / 32 * 32, n / 32 * 32) else (u.me.vec.vstart.toNat, n)
/-- The bits of a code of a block type in memory (spec/04_formats.md R84). -/
def storedBits (ty : Nat) : Nat := if ty = 19 then 6 else if ty = 20 then 4 else 8
/-- The address of the payload of block j, and of its scale (R87): eight payloads, and then eight scales, make a group. -/
def payloadAt (u : State) (w : VWord) (j : Nat) : Int × Int :=
  let p := 4 * storedBits w.vt.val
  let group : Nat := 8 * p + 16
  let a := (rd u (regOf w.gb)).toInt + (BitVec.ofNat 9 w.f3.val).toInt * (group : Int) + ((j / 8 * group : Nat) : Int)
  (a + ((j % 8 * p : Nat) : Int), a + ((8 * p + 2 * (j % 8) : Nat) : Int))
/-- Bit n of the payload of block j. -/
def payloadBit (u : State) (w : VWord) (j n : Nat) : Bool :=
  match placeAt u .read ((payloadAt u w j).1 + ((n / 8 : Nat) : Int)) with
  | .ok l => (readLoc u l 1).testBit (n % 8)
  | .error _ => false
/-- The code of body element k of a block type in memory. -/
def blockCodeOf (u : State) (w : VWord) (k : Nat) : Nat :=
  let p := storedBits w.vt.val
  ((List.range p).map (fun b => if payloadBit u w (k / 32) (k % 32 * p + b) then 2 ^ b else 0)).sum
/-- The scale of block j in memory. -/
def blockScaleOf (u : State) (w : VWord) (j : Nat) : Nat :=
  match placeAt u .read (payloadAt u w j).2 with
  | .ok l => readLoc u l 2 % 512
  | .error _ => 0
/-- Block j of a body has an active element. -/
def blockActive (u : State) (w : VWord) (j : Nat) : Bool := (List.range 32).any (fun q => activeAt u w (32 * j + q))
/-- The elements of vd from the first of a load's body up to `stop` are those of memory, masked as R128 says; a block with an
active element takes its scale; no other element and no other scale changes. -/
def LoadedTo (op : VOp) (u t : State) (w : VWord) (stop : Nat) : Prop :=
  let ty := w.vt.val
  let L := lanesIn u
  let inBody (k : Nat) := decide ((memSpan op u w).1 ≤ k) && decide (k < stop)
  (∀ k, k < cap ty L → elemAt t.me.vec.regs ty L w.vd.val k =
    if inBody k && activeAt u w k then (if blkTy ty then blockCodeOf u w k else codeAt op u w k) % 2 ^ codeW ty
    else if inBody k && maskZ w then 0
    else elemAt u.me.vec.regs ty L w.vd.val k) ∧
  (∀ j, j < cap ty L / 32 → scaleAt t.me.vec.regs w.vd.val j =
    if blkTy ty && inBody (32 * j) && blockActive u w j then blockScaleOf u w j else scaleAt u.me.vec.regs w.vd.val j)
/-- A load that completes: only vd changes, and its elements are those of memory (R223). -/
def LoadVdForm (op : VOp) (i : VWord → Instr) : Prop :=
  ∀ s h w, Ready op w s h → LoadsOk op w (switched s) → ∃ t, exec (i w) s = .next t ∧
    OnlyV (switched s) t (regOf w.vd.val) ∧ t.me.pc = s.me.pc + 8#64 ∧ t.me.vec.vstart = 0#17 ∧ t.me.fflags = s.me.fflags ∧
    (lanesIn s ≤ 128 → LoadedTo op (switched s) t w (memSpan op (switched s) w).2)
/-- A load that meets a fault at an active element, or in a block (R223, R224): the elements before it are loaded. It traps with
`VSTART` there; but a `vldff` past its first active element trims `VL` to there, sets FOF and completes. -/
def LoadStops (op : VOp) (i : VWord → Instr) : Prop :=
  ∀ s h w, Ready op w s h → lanesIn s ≤ 128 →
    let u := switched s
    let m := memAt op w u
    memCheck op w.vt.val m = none → arrivalDue op w u m (activeOf u w (memBody op w.vt.val u)) = false →
    ∀ k f, (memSpan op u w).1 ≤ k → k < (memSpan op u w).2 →
      (blkTy w.vt.val = false → activeAt u w k = true ∧ placeAt u .read (twiceAt op u w k / 2) = .error f ∧
        ∀ j, (memSpan op u w).1 ≤ j → j < k → activeAt u w j = true → ∃ l, placeAt u .read (twiceAt op u w j / 2) = .ok l) →
      (blkTy w.vt.val = true → k % 32 = 0 ∧ blockActive u w (k / 32) = true ∧
        blockLoad u m w.vt.val (k / 32) (activeIn u w (k / 32)) = .error f ∧
        ∀ j, (memSpan op u w).1 ≤ 32 * j → j < k / 32 → blockActive u w j = true →
          ∃ x, blockLoad u m w.vt.val j (activeIn u w j) = .ok x) →
      let earlier := (List.range' (memSpan op u w).1 (k - (memSpan op u w).1)).any (activeAt u w)
      ((op ≠ .vldff ∨ earlier = false) → ∃ t, exec (i w) s = .next (takeTrap t f.trap) ∧ OnlyV u t (regOf w.vd.val) ∧
        t.me.pc = s.me.pc ∧ t.me.fflags = s.me.fflags ∧ t.me.vec.vstart = BitVec.ofNat 17 k ∧ LoadedTo op u t w k) ∧
      (op = .vldff → earlier = true → ∃ t, exec (i w) s = .next t ∧ t.me.pc = s.me.pc + 8#64 ∧ t.me.fof = true ∧
        t.me.vec.vlLen = BitVec.ofNat 17 k ∧ t.me.vec.vstart = 0#17 ∧ t.mem = u.mem ∧ LoadedTo op u t w k)
/-- The write of body element k of a store at its place (R226): the whole of its bytes, but of e2m1 its own half, and zeros above
the six bits of e3m2 and e2m3. -/
def writtenAt (op : VOp) (u : State) (w : VWord) (k : Nat) (l : Loc) : MemWr :=
  let ty := w.vt.val
  let x := elemAt u.me.vec.regs ty (lanesIn u) w.vd.val k
  let sh := if twiceAt op u w k % 2 = 0 then 1 else 16
  if ty = 16 then { loc := l, n := 1, mask := 15 * sh, val := x % 16 * sh }
  else { loc := l, n := bytesOf ty, mask := 2 ^ (8 * bytesOf ty) - 1, val := x % 2 ^ codeW ty }
/-- The active elements of the body of a memory form, ascending. -/
def activeBody (op : VOp) (u : State) (w : VWord) : List Nat :=
  (List.range' (memSpan op u w).1 ((memSpan op u w).2 - (memSpan op u w).1)).filter (activeAt u w)
/-- The writes of one block of a store: every bit of its active elements in its payload, and its scale. -/
def BlockWrites (u : State) (w : VWord) (j : Nat) (ws : List MemWr) : Prop :=
  let p := storedBits w.vt.val
  (∀ q < 32, activeAt u w (32 * j + q) = true → ∀ b < p, ∃ x ∈ ws, x.n = 1 ∧
    placeAt u .write ((payloadAt u w j).1 + (((q * p + b) / 8 : Nat) : Int)) = .ok x.loc ∧
    x.mask.testBit ((q * p + b) % 8) = true ∧
    x.val.testBit ((q * p + b) % 8) = (elemAt u.me.vec.regs w.vt.val (lanesIn u) w.vd.val (32 * j + q)).testBit b) ∧
  (∃ x ∈ ws, x.n = 2 ∧ placeAt u .write (payloadAt u w j).2 = .ok x.loc ∧ x.mask = 0xFFFF ∧
    x.val = scaleAt u.me.vec.regs w.vd.val j)
/-- What the writes of a store that meets no fault are, in ascending order of its active elements (R226, R227). -/
def StoreWrites (op : VOp) (u : State) (w : VWord) : Prop :=
  (blkTy w.vt.val = false → ∃ ls : List Loc, ls.length = (activeBody op u w).length ∧
    (∀ p ∈ (activeBody op u w).zip ls, placeAt u .write (twiceAt op u w p.1 / 2) = .ok p.2) ∧
    (storeWrites op w u).1 = ((activeBody op u w).zip ls).map (fun p => writtenAt op u w p.1 p.2)) ∧
  (blkTy w.vt.val = true → ∃ ws : Nat → List MemWr,
    let js := (List.range (cap w.vt.val (lanesIn u) / 32)).filter (fun j =>
      decide ((memSpan op u w).1 ≤ 32 * j) && decide (32 * j < (memSpan op u w).2) && blockActive u w j)
    (storeWrites op w u).1 = js.flatMap ws ∧ ∀ j ∈ js, BlockWrites u w j (ws j))
/-- What a write leaves in memory: the bits of its mask, and no others. -/
def WriteLands : Prop :=
  ∀ (s : State) (x : MemWr) k, x.loc = .mem k → Memory.wf s.mem = true → x.mask < 2 ^ (8 * x.n) →
    (∀ b, b < 8 * x.n → x.val.testBit b = true → x.mask.testBit b = true) →
    ∀ j, j < x.n → ∀ b, b < 8 → (Memory.read (x.apply s).mem (k + j)).getLsbD b =
      if x.mask.testBit (8 * j + b) then x.val.testBit (8 * j + b) else (Memory.read s.mem (k + j)).getLsbD b
/-- A store that completes (R226): memory takes its writes, which are those of its active elements, and changes at no other byte; of
the acting hart only `VSTART`, which becomes 0, and the PC change. -/
def StoreVdForm (op : VOp) (i : VWord → Instr) : Prop :=
  ∀ s h w, Ready op w s h → memCheck op w.vt.val (memAt op w (switched s)) = none →
    (storeWrites op w (switched s)).2 = none → ∃ t, exec (i w) s = .next t ∧
      t = setPc (vfinish ((storeWrites op w (switched s)).1.foldl MemWr.apply (switched s)) s.me.vec 0#5) (s.me.pc + 8#64) ∧
      t.me = { (switched s).me with pc := s.me.pc + 8#64, vec := { s.me.vec with vstart := 0#17 } } ∧
      (lanesIn s ≤ 128 → StoreWrites op (switched s) w) ∧
      (Memory.wf (switched s).mem = true → ∀ j,
        (∀ x ∈ (storeWrites op w (switched s)).1, ∀ k, x.loc = .mem k → j < k ∨ k + x.n ≤ j) →
        Memory.read t.mem j = Memory.read (switched s).mem j)
/-- A scatter-reduce that completes (spec/12_atomics_engines.md R258): its updates, each one combination of what its place holds with
the element of vd, in ascending order of its active elements, and no other byte of memory. That an unordered one takes this order
too is the model's choice (log 1). -/
def ScatterForm (op : VOp) (i : VWord → Instr) (kind : Nat) : Prop :=
  (∀ ty a l m x, ty < 12 → let y := combineOf kind ty m (readLoc a.1 l (bytesOf ty)) x
    srdApply op ty a (l, m, x) = (writeLoc a.1 l (bytesOf ty) y.1, a.2 ||| y.2)) ∧
  ∀ s h w, Ready op w s h → memCheck op w.vt.val (memAt op w (switched s)) = none →
    (srdUpdates op w (switched s)).2 = none →
    let r := (srdUpdates op w (switched s)).1.foldl (srdApply op w.vt.val) (switched s, 0#5)
    ∃ t, exec (i w) s = .next t ∧ t = setPc (vfinish r.1 s.me.vec r.2) (s.me.pc + 8#64) ∧
      t.me.g = s.me.g ∧ t.me.vec.regs = s.me.vec.regs ∧
      (∃ ls : List Loc, ls.length = (activeBody op (switched s) w).length ∧
        (∀ p ∈ (activeBody op (switched s) w).zip ls,
          placeAt (switched s) .both (twiceAt op (switched s) w p.1 / 2) = .ok p.2) ∧
        (srdUpdates op w (switched s)).1 = ((activeBody op (switched s) w).zip ls).map (fun p =>
          (p.2, modeAt (switched s) w p.1, elemAt s.me.vec.regs w.vt.val (lanesIn s) w.vd.val p.1))) ∧
      (Memory.wf (switched s).mem = true → ∀ j,
        (∀ x ∈ (srdUpdates op w (switched s)).1, ∀ k, x.1 = .mem k → j < k ∨ k + elemBytes w.vt.val ≤ j) →
        Memory.read t.mem j = Memory.read (switched s).mem j)
/-- The active elements of a memory form's body below an element, ascending. -/
def activeTo (op : VOp) (u : State) (w : VWord) (k : Nat) : List Nat :=
  (List.range' (memSpan op u w).1 (k - (memSpan op u w).1)).filter (activeAt u w)
/-- A store that meets a fault at an active element, or in a block (R226, R227): the active elements before it are written, in
ascending order, and none from it on; the trap is precise, with `VSTART` there. -/
def StoreStops (op : VOp) (i : VWord → Instr) : Prop :=
  ∀ s h w, Ready op w s h → lanesIn s ≤ 128 →
    let u := switched s
    let ty := w.vt.val
    let block (j : Nat) := blockAccess u (memAt op w u) ty .write j
      ((activeIn u w j).map (fun q => (q, elemAt u.me.vec.regs ty (lanesIn u) w.vd.val (32 * j + q)))) (scaleAt u.me.vec.regs w.vd.val j)
    memCheck op ty (memAt op w u) = none →
    ∀ k f, (memSpan op u w).1 ≤ k → k < (memSpan op u w).2 →
      let stops (ws : List MemWr) := ∃ t, exec (i w) s = .next (takeTrap t f.trap) ∧
        t = { ws.foldl MemWr.apply u with me := { u.me with vec := { u.me.vec with vstart := BitVec.ofNat 17 k } } } ∧
        (Memory.wf u.mem = true → ∀ b, (∀ x ∈ ws, ∀ p, x.loc = .mem p → b < p ∨ p + x.n ≤ b) →
          Memory.read t.mem b = Memory.read u.mem b)
      (blkTy ty = false → activeAt u w k = true → placeAt u .write (twiceAt op u w k / 2) = .error f →
        ∀ ls : List Loc, ls.length = (activeTo op u w k).length →
          (∀ p ∈ (activeTo op u w k).zip ls, placeAt u .write (twiceAt op u w p.1 / 2) = .ok p.2) →
          stops (((activeTo op u w k).zip ls).map (fun p => writtenAt op u w p.1 p.2))) ∧
      (blkTy ty = true → k % 32 = 0 → blockActive u w (k / 32) = true → block (k / 32) = .error f →
        let js := (List.range (k / 32)).filter (fun j => decide ((memSpan op u w).1 ≤ 32 * j) && blockActive u w j)
        ∀ ws : Nat → List MemWr, (∀ j ∈ js, block j = .ok (ws j)) →
          stops (js.flatMap ws) ∧ ∀ j ∈ js, BlockWrites u w j (ws j))
/-- A scatter-reduce that meets a fault at an active element (spec/12_atomics_engines.md R258, R260): the active elements before it are
applied, in ascending order, with their flags, and none from it on; the trap is precise, with `VSTART` there. -/
def ScatterStops (op : VOp) (i : VWord → Instr) : Prop :=
  ∀ s h w, Ready op w s h → lanesIn s ≤ 128 →
    let u := switched s
    memCheck op w.vt.val (memAt op w u) = none →
    ∀ k f, (memSpan op u w).1 ≤ k → k < (memSpan op u w).2 → activeAt u w k = true →
      placeAt u .both (twiceAt op u w k / 2) = .error f →
      ∀ ls : List Loc, ls.length = (activeTo op u w k).length →
        (∀ p ∈ (activeTo op u w k).zip ls, placeAt u .both (twiceAt op u w p.1 / 2) = .ok p.2) →
        let r := (((activeTo op u w k).zip ls).map (fun p =>
          (p.2, modeAt u w p.1, elemAt u.me.vec.regs w.vt.val (lanesIn u) w.vd.val p.1))).foldl (srdApply op w.vt.val) (u, 0#5)
        ∃ t, exec (i w) s = .next (takeTrap t f.trap) ∧ t = { r.1 with me := { u.me with
            fflags := u.me.fflags ||| r.2, vec := { u.me.vec with vstart := BitVec.ofNat 17 k } } } ∧
          (Memory.wf u.mem = true → ∀ b, (∀ l ∈ ls, ∀ p, l = .mem p → b < p ∨ p + elemBytes w.vt.val ≤ b) →
            Memory.read t.mem b = Memory.read u.mem b)
/-- The trap that a memory form takes before it accesses any element, as cause and `XVAL` (R221, R222; spec/04_formats.md R87): `STRIDE`
with the stride, or 0, where half bytes or blocks meet a stride or places of their own; else `ALIGN` with the base, which must be a
multiple of the element, and for a block type of 16. -/
def memTrap (op : VOp) (u : State) (w : VWord) : Option (Nat × Word) :=
  let ty := w.vt.val
  let packed := ty = 16 ∨ blkTy ty = true
  let stride := rd u (regOf (srcN (viFld w)))
  let z : Nat := if blkTy ty then 32 * storedBits ty + 16 else bytesOf ty
  let base := (rd u (regOf w.gb)).toInt + (BitVec.ofNat 9 w.f3.val).toInt * (z : Int)
  let multiple : Nat := if blkTy ty then 16 else bytesOf ty
  if packed ∧ strideForm op = true ∧ stride ≠ 1#64 then some (cStride, stride)
  else if packed ∧ (indexForm op = true ∨ op = .vcompressSt) then some (cStride, 0#64)
  else if ty ≠ 16 ∧ base % multiple ≠ 0 then some (cAlign, BitVec.ofInt 64 base)
  else none
/-- A form takes that trap, with `VSTART` and every register as it was (R221, R222). -/
def TrapsFirst (op : VOp) (i : VWord → Instr) : Prop :=
  ∀ s h w, Ready op w s h → memCheck op w.vt.val (memAt op w (switched s)) = memTrap op (switched s) w ∧
    ∀ c x, memTrap op (switched s) w = some (c, x) → exec (i w) s = .next (takeTrap (switched s) (Trap.sync c x))
/-- The byte of tile memory at an offset of the TILE space. -/
def TileByte (u : State) (c : XCtx) (acc : Acc) (a : Int) (k : Nat) : Prop := resolveAt u c 1 0 acc a = .ok (.mem k)
/-- A byte of n from a place of tile memory is one that a copy of the acting hart has still to write (R225): a copy that is not final,
to a descriptor in TILE, has not come to an element there, and a scatter to any element. A byte that it may not write is looked for
where it may be read. -/
def Awaited (u : State) (p n : Nat) : Prop :=
  ∃ c ∈ u.cmds, u.me.id = .hart c.owner ∧ c.phase ≠ .final ∧ ∃ d, c.dst = some d ∧ d.space = 1 ∧
    ∃ m < d.count, (c.form = .gss ∨ c.next ≤ m) ∧
      ∃ k, (TileByte u (cmdCtx u c) .write (d.offset m) k ∨
          ((∀ k', ¬ TileByte u (cmdCtx u c) .write (d.offset m) k') ∧ TileByte u (cmdCtx u c) .read (d.offset m) k)) ∧
        k < p + n ∧ p < k + d.esz
/-- A load reads n bytes of tile memory from a place: of an active element, or of a block that has one. -/
def ReadsTile (op : VOp) (u : State) (w : VWord) (p n : Nat) : Prop :=
  (blkTy w.vt.val = false ∧ n = bytesOf w.vt.val ∧
    ∃ k ∈ activeBody op u w, TileByte u (vectorCtx u) .read (twiceAt op u w k / 2) p) ∨
  (blkTy w.vt.val = true ∧ ∃ j, (memSpan op u w).1 ≤ 32 * j ∧ 32 * j < (memSpan op u w).2 ∧ blockActive u w j = true ∧
    ((n = 2 ∧ TileByte u (vectorCtx u) .read (payloadAt u w j).2 p) ∨
      (n = 8 ∧ ∃ q : Nat, 8 * q < 4 * storedBits w.vt.val ∧
        TileByte u (vectorCtx u) .read ((payloadAt u w j).1 + ((8 * q : Nat) : Int)) p)))
/-- An arrival-chained load waits while it reads a byte that a copy of the hart has still to write (R225); without AC, or with another
SPACE, none does. -/
def ArrivalForm (op : VOp) (i : VWord → Instr) : Prop :=
  ∀ s h w, Ready op w s h → lanesIn s ≤ 128 →
    let u := switched s
    let due := arrivalDue op w u (memAt op w u) (activeOf u w (memBody op w.vt.val u))
    (due = true ↔ w.ac = 1 ∧ u.me.vec.mtSpace = 1#2 ∧ ∃ p n, ReadsTile op u w p n ∧ Awaited u p n) ∧
    (memTrap op u w = none → due = true → exec (i w) s = .next u)
/-- A form that changes nothing but the accumulators, `FFLAGS`, `VSTART`, which becomes 0, and the PC. -/
def AccForm (op : VOp) (i : VWord → Instr) : Prop :=
  ∀ s h w, Ready op w s h → ∃ t, exec (i w) s = .next t ∧
    t = { switched s with me := { (switched s).me with
      pc := s.me.pc + 8#64, fflags := t.me.fflags
      vec := { s.me.vec with acc := t.me.vec.acc, pacc := t.me.vec.pacc, vstart := 0#17 } } } ∧
    (∀ tile row, tile < 8 → row < 8 → tile ≠ w.vd.val % 8 → accRow t.me.vec.acc tile row = accRow s.me.vec.acc tile row)

/-- A product of two values is an infinity of a sign: one is infinite, the other no zero, and neither is no number
(spec/04_formats.md R98). -/
def productInf (sg : Bool) (a b : FVal) : Bool :=
  !a.isNan && !b.isNan && (!a.finite || !b.finite) && !(a.finite && a.q == 0) && !(b.finite && b.q == 0) &&
    ((a.isNeg != b.isNeg) == sg)
/-- A product that is none: an operand is no number, or zero meets an infinity (R98). -/
def productBad (a b : FVal) : Bool :=
  a.isNan || b.isNan || ((!a.finite && b.finite && b.q == 0) || (!b.finite && a.finite && a.q == 0))
/-- The factor of a block's two scales; none where either is NaN (R98). -/
def scaleFactor (ty sa sb : Nat) : Option ℚ :=
  if blkTy ty = false then some 1 else if sa = 511 ∨ sb = 511 then none else some (scaleVal sa * scaleVal sb)
/-- What a block of 32 products adds to an accumulator column (R98): s. -/
def BlockTerm (ty : Nat) (a b : Nat → FVal) (sa sb : Nat) (s : FVal) : Prop :=
  let bad := (List.range 32).any (fun q => productBad (a q) (b q))
  let inf (sg : Bool) := (List.range 32).any (fun q => productInf sg (a q) (b q))
  (bad = true ∨ (inf false = true ∧ inf true = true) ∨ scaleFactor ty sa sb = none → s = .nan true) ∧
  (∀ f, bad = false → ¬ (inf false = true ∧ inf true = true) → scaleFactor ty sa sb = some f →
    (∀ sg, inf sg = true → s = .inf sg) ∧
    (inf false = false → inf true = false → s.finite = true ∧
      s.q = ((List.range 32).map (fun q => (a q).q * (b q).q)).sum * f ∧
      (s.q = 0 → s.isNeg = (List.range 32).all (fun q => (a q).q * (b q).q == 0 && (a q).isNeg != (b q).isNeg))))
/-- The value of a code of a matrix operand. -/
def factorOf (ty c : Nat) : FVal := if blkTy ty then blkVal ty c else unpack (fmtOf ty) c
/-- The depth of a matrix type (spec/07_matrix.md R153). -/
def depthOf (ty : Nat) : Nat := if ty = 20 then 128 else if blkTy ty then 64 else 32
/-- An accumulator column after a row of A and a column of B (R156): from its value, the blocks in ascending order, each added and
rounded once by RNE. `a` and `b` are the codes, `sa` and `sb` the scales of the blocks. -/
def ColumnAfter (ty : Nat) (a b sa sb : Nat → Nat) (start : Nat) (r : FRes) : Prop :=
  ∃ s : Nat → FVal,
    (∀ j < depthOf ty / 32, BlockTerm ty (fun q => factorOf ty (a (32 * j + q))) (fun q => factorOf ty (b (32 * j + q))) (sa j) (sb j)
      (s j)) ∧
    r = (List.range (depthOf ty / 32)).foldl (fun (x : FRes) j =>
      let y := addV (fmtOf 9) rne (unpack (fmtOf 9) x.1) (s j)
      (y.1, x.2 ||| y.2)) (start, 0#5)
/-- `vmma` with g rows (R153, R154, R156): every column that the mask admits of the rows from `VSTART` on. -/
def MmaForm (op : VOp) (i : VWord → Instr) (g : Nat) : Prop :=
  ∀ s h w, Ready op w s h → lanesIn s ≤ 128 →
    let u := switched s
    let ty := w.vt.val
    let L := lanesIn u
    let K := depthOf ty
    let c := evlOf u ty / K
    let areg := srcN w.f1
    let wreg := srcN w.f2
    let first := u.me.vec.vstart.toNat / K
    let v := u.me.vec.regs
    let old (r n : Nat) := accCol (accRow u.me.vec.acc w.vd.val r) n
    ∃ (t : State) (y : Nat → Nat → FRes), exec (i w) s = .next t ∧ t.me.vec.vstart = 0#17 ∧
      (∀ r n, first ≤ r → r < g → n < 8 * c → activeAt u w n = true →
        let at_ (k : Nat) := (n - n / c * c) * K + k
        ColumnAfter ty (fun k => elemAt v ty L areg (r * K + k)) (fun k => elemAt v ty L (wreg + n / c) (at_ k))
          (fun b => scaleAt v areg (r * K / 32 + b)) (fun b => scaleAt v (wreg + n / c) (at_ (32 * b) / 32)) (old r n) (y r n)) ∧
      (∀ r n, r < 8 → n < 4096 → accCol (accRow t.me.vec.acc w.vd.val r) n =
        if first ≤ r ∧ r < g ∧ n < 8 * c then
          (if activeAt u w n then (y r n).1 else if maskZ w then 0 else old r n)
        else old r n) ∧
      (∀ b, b < 5 → t.me.fflags.getLsbD b = (u.me.fflags.getLsbD b || (List.range' first (g - first)).any (fun r =>
        (List.range (8 * c)).any (fun n => activeAt u w n && (y r n).2.getLsbD b))))

/-- A word that writes g register d with x, may change the vector state to v, and changes nothing else but the PC. -/
def GWord (u t : State) (d : Nat) (x : Word) (v : VecState) : Prop :=
  t = { u with me := { u.me with g := t.me.g, pg := t.me.pg, pc := u.me.pc + 8#64, vec := { v with vstart := 0#17 } } } ∧
  ∀ r : Reg, getG t.me r = if r = 0 then 0#64 else if r = regOf d then x else getG u.me r
/-- An engine command as a word issues it (spec/12_atomics_engines.md R265, R266): issue waits while the ticket that would leave the
16 most recent is outstanding; else the command is held with the next ticket, which rd takes. -/
def IssueForm (op : VOp) (i : VWord → Instr) (form : CmdForm) : Prop :=
  ∀ s h w, Ready op w s h →
    let u := switched s
    let k := s.me.vec.tickets + 1
    (issueFull u h = true → exec (i w) s = .next u) ∧
    (issueFull u h = false → ∃ t c, exec (i w) s = .next t ∧
      GWord { u with cmds := u.cmds.filter (fun x => !(x.owner == h && decide (x.ticket + 16 ≤ k))) ++ [c] } t w.gd
        (BitVec.ofNat 64 k) { s.me.vec with tickets := k } ∧
      c.owner = h ∧ c.ticket = k ∧ c.form = form ∧ c.phase = .issued ∧ c.mode = s.me.mode ∧ c.task = s.me.task ∧
      c.ga = getG s.me (regOf w.ga) ∧ c.gb = getG s.me (regOf w.gbG) ∧
      (∀ n, n < 16 → (w.f2.val % 16 = n → c.dst = s.me.vec.descs.toList.getD n none) ∧
        (w.f2.val / 16 % 16 = n → c.src = s.me.vec.descs.toList.getD n none)))
/-- A doubleword of an image, as a number. -/
def wordOf (l : List Word) (j : Nat) : Nat := (l.getD j 0#64).toNat
/-- The descriptor that an image describes (R262). -/
def Describes (l : List Word) (d : Desc) : Prop :=
  d.base = wordOf l 0 % 2 ^ 55 ∧ d.dir = wordOf l 1 / 128 % 4 ∧ d.space = wordOf l 1 / 32 % 4 ∧ d.esz = 2 ^ (wordOf l 1 % 4) ∧
  d.dims = (List.range (wordOf l 1 / 4 % 8)).map (fun j =>
    (wordOf l (2 + j) % 2 ^ 32, (BitVec.ofNat 32 (wordOf l (2 + j) / 2 ^ 32)).toInt))
/-- The bounds lo and hi of a footprint (R264). -/
def boundsOf (d : Desc) : Int × Int :=
  let reach (f : Int → Int) : Int := (d.dims.map (fun p => f (((p.1 : Int) - 1) * p.2))).sum
  (d.base + d.esz * reach (min 0), d.base + d.esz * reach (max 0) + d.esz - 1)
/-- The first condition of R264 that an image fails, or 0. -/
def madeCode (l : List Word) (d : Desc) (gb gc : Nat) : Nat :=
  let nd := wordOf l 1 / 4 % 8
  let limit : Int := if d.space = 0 then 0x7FFF0000000000 else 0x3000000
  if ¬ (wordOf l 0 < 2 ^ 55 ∧ wordOf l 1 < 2 ^ 9 ∧ wordOf l 7 = 0 ∧ 1 ≤ nd ∧ nd ≤ 5 ∧ ∀ j < 5, nd ≤ j → wordOf l (2 + j) = 0) then 1
  else if (∃ p ∈ d.dims, p.1 = 0) ∨ 2 ^ 40 < (d.dims.map (fun p => p.1)).prod then 2
  else if d.base % d.esz ≠ 0 then 3
  else if d.space = 3 ∨ (d.space = 2 ∧ Config.hasFeature 101 = false) then 4
  else if (boundsOf d).1 < 0 ∨ limit ≤ (boundsOf d).2 ∨ (boundsOf d).1 < gb ∨ (gb : Int) + gc ≤ (boundsOf d).2 ∨ gc = 0 then 5
  else 0
/-- The linear index of an element (R262). -/
def linearOf : List Nat → List (Nat × Int) → Nat
  | i :: l, p :: ps => i + p.1 * linearOf l ps
  | _, _ => 0
/-- The virtual addresses of a footprint (R215, R264). -/
def spanOf (d : Desc) : Int × Int :=
  let at_ : Int := if d.space = 0 then 0 else if d.space = 1 then 0x7FFF0000000000 else 0x7FFF0020000000 + d.dir * 0x4000000
  (at_ + (boundsOf d).1, at_ + (boundsOf d).2)
/-- Two ranges have an address in common. -/
def meet (a b : Int × Int) : Bool := decide (a.1 ≤ b.2 ∧ b.1 ≤ a.2)
/-- The status word of a ticket that is held (R272): ELEMENTS, ENGINE and CODE, PENDING until the command is final. -/
def statusOf (c : Command) : Word :=
  BitVec.ofNat 64 (min c.written 0xFFFFFFFF * 2 ^ 32 + (if c.form = .gsg ∨ c.form = .gss then 256 else 0) +
    (if c.phase = .final then c.code else 2))
/-- A group image keeps its ranges and zero fields (spec/15_links_collectives.md R346). -/
def GroupImage (l : List Word) : Prop :=
  let m := wordOf l 0 / 2 ^ 32
  2 ≤ m ∧ m ≤ 65536 ∧ wordOf l 1 / 2 ^ 32 < m ∧ wordOf l 1 % 2 ^ 32 < m ∧ wordOf l 3 % 8 = 0 ∧ 1 ≤ wordOf l 4 ∧ wordOf l 4 < 2 ^ 16 ∧
  wordOf l 5 = 0 ∧ wordOf l 6 = 0 ∧ wordOf l 7 = 0
/-- The shapes that a form requires of m members (spec/15_links_collectives.md R348, R351); that a form which only moves elements has
the same element size in both is the model's reading (log 18). -/
def GroupShape (form ty op m : Nat) (d s : Desc) : Prop :=
  let folds := op ≤ 5 ∧ ¬ (3 ≤ op ∧ fltTy ty = true) ∧ 8 * d.esz = elemW ty ∧ 8 * s.esz = elemW ty
  (form = 0 → folds ∧ d.count = s.count) ∧ (form = 1 → d.esz = s.esz ∧ d.count = s.count) ∧
  (form = 2 → d.esz = s.esz ∧ d.count = m * s.count) ∧ (form = 3 → folds ∧ s.count = m * d.count)
/-- The code of a collective at its issue (spec/15_links_collectives.md R350): BADGROUP, BADDESC, SHAPE, OVERLAP, in this order, else
PENDING. A descriptor that meets itself may do so in `clred` and `clbcast` alone (R351). -/
def IssuedWith (l : List Word) (tableOk : Prop) (same : Bool) (form ty op : Nat) (d s : Option Desc) (code : Nat) : Prop :=
  (¬ (GroupImage l ∧ tableOk) → code = 13) ∧
  (GroupImage l → tableOk → d = none ∨ s = none → code = 5) ∧
  ∀ x y, GroupImage l → tableOk → d = some x → s = some y →
    (¬ GroupShape form ty op (wordOf l 0 / 2 ^ 32) x y → code = 4) ∧
    (GroupShape form ty op (wordOf l 0 / 2 ^ 32) x y →
      code = if ¬ (same = true ∧ (form = 0 ∨ form = 1)) ∧ meet (spanOf x) (spanOf y) = true then 3 else 2)
/-- A collective as a word issues it (spec/15_links_collectives.md R350): the traps of its image, a wait while four are
outstanding, else the next ticket; and the code of one that is refused. -/
def CollIssueForm (op : VOp) (i : VWord → Instr) (form : Nat) : Prop :=
  ∀ s h w, Ready op w s h →
    let u := switched s
    let ga := getG s.me (regOf w.ga)
    let k := s.me.vec.clTickets + 1
    let held := (u.colls.filter (fun c => c.owner == h && c.code == 2)).length
    (ga.toNat % 64 ≠ 0 → exec (i w) s = .next (takeTrap u (Trap.sync cAlign ga))) ∧
    (ga.toNat % 64 = 0 → ∀ f, readDwords u (vectorCtx u) ga.toNat 8 = .error f → exec (i w) s = .next (takeTrap u f.trap)) ∧
    (ga.toNat % 64 = 0 → ∀ l, readDwords u (vectorCtx u) ga.toNat 8 = .ok l → 4 ≤ held → exec (i w) s = .next u) ∧
    (ga.toNat % 64 = 0 → ∀ l, readDwords u (vectorCtx u) ga.toNat 8 = .ok l → held < 4 → ∃ t, exec (i w) s = .next t ∧
      GWord { u with colls := t.colls, early := t.early, groupSeq := t.groupSeq, sent := t.sent } t w.gd (BitVec.ofNat 64 k)
        { s.me.vec with clTickets := k } ∧
      (u.early = [] → t.sent = u.sent ∧ ∃ c, t.colls = u.colls ++ [c] ∧
        c.owner = h ∧ c.cseq = tget 0 (groupKey h c.group) u.groupSeq % 2 ^ 32 ∧ c.ticket = k ∧ c.form = form ∧ c.ty = w.vt.val ∧ c.group = (vec8 l)[0].toNat % 2 ^ 32 ∧
        c.rank = (vec8 l)[1].toNat / 2 ^ 32 ∧ c.root = (vec8 l)[1].toNat % 2 ^ 32 ∧ c.seed = (vec8 l)[2] ∧
        tget 0 (groupKey h c.group) t.groupSeq = (c.cseq + 1) % 2 ^ 32 ∧
        (form = 0 ∨ form = 3 → c.op = (getG s.me (regOf w.gbG)).toNat) ∧
        (∀ n, n < 16 → (w.f2.val % 16 = n → c.dst = s.me.vec.descs.toList.getD n none) ∧
          (w.f2.val / 16 % 16 = n → c.src = s.me.vec.descs.toList.getD n none)) ∧
        let table := readDwords u (vectorCtx u) (wordOf l 3) (wordOf l 0 / 2 ^ 32)
        IssuedWith l (∃ es, table = .ok es ∧ ∀ e ∈ es, e.toNat < 2 ^ 52) (w.f2.val % 16 == w.f2.val / 16 % 16) form w.vt.val c.op
          c.dst c.src c.code ∧
        (GroupImage l → ∀ es, table = .ok es → c.members = es.map (fun e =>
          { station := e.toNat % 2 ^ 48, port := e.toNat / 2 ^ 48 % 16 }))))
/-- An inline Thresher form (spec/09_thresher.md R194): what stops it traps; else its output takes the low elements of vd, `VL` is
their number, its flags are added, and its work is charged. -/
def ThForm (op : VOp) (i : VWord → Instr) : Prop :=
  ∀ s h w, Ready op w s h → lanesIn s ≤ 128 →
    let u := switched s
    let L := lanesIn u
    let is := List.range (evlOf u 7)
    let A := is.map (elemAt u.me.vec.regs 7 L (srcN w.f1))
    let B := match thSecond op with
      | some t => is.map (elemAt u.me.vec.regs t L (srcN w.f2))
      | none => []
    let r := thValue op u (thAt u) (elemAt u.me.vec.regs 6 L (thParamReg op w)) A B
    (∀ e, r = .error e → exec (i w) s = .next (takeTrap u e.trap)) ∧
    (∀ out fl wu, r = .ok (out, fl, wu) → cap 7 L < out.length →
      exec (i w) s = .next (takeTrap u (Trap.sync cThdata (BitVec.ofNat 64 (cap 7 L * 16 + 11))))) ∧
    (∀ out fl wu, r = .ok (out, fl, wu) → out.length ≤ cap 7 L → ∃ t, exec (i w) s = .next t ∧
      (∀ k, k < cap 7 L → elemAt t.me.vec.regs 7 L (regOf w.vd.val).val k =
        if k < out.length then out.getD k 0 % 2 ^ 64 else elemAt u.me.vec.regs 7 L (regOf w.vd.val).val k) ∧
      t.me.vec.vlLen = BitVec.ofNat 17 out.length ∧ t.me.vec.vstart = 0#17 ∧ t.me.fflags = s.me.fflags ||| fl ∧
      t.me.pc = s.me.pc + 8#64 ∧ t.me.g = s.me.g ∧ t.mem = u.mem ∧ t.entries = (charge u s.me.task (128 * wu)).entries)

/-- The elements of a stream that are no fillers (spec/09_thresher.md R190). -/
def noFillers (A : List Nat) : List Nat := A.filter (fun e => decide (e ≠ 2 ^ 64 - 1))
/-- A stream of postings that nothing is wrong with (R190, R191): its postings are well formed, and their keys do not fall. -/
def GoodStream (key : Nat → Nat) (A : List Nat) : Prop :=
  (∀ e ∈ noFillers A, e / 2 ^ 60 % 16 = 0) ∧ (noFillers A).Pairwise (fun a b => key a ≤ key b)
/-- The document of a posting or a scored element, the term and the (document, term) key of a posting (R190, R191). -/
def docIn (e : Nat) : Nat := e % 2 ^ 32
/-- The term of a posting. -/
def termIn (e : Nat) : Nat := e / 2 ^ 56 % 16
/-- The key of a posting for `thand` and `thor`. -/
def keyIn (e : Nat) : Nat := docIn e * 16 + termIn e
/-- The groups of a stream: its maximal runs of one document. -/
def groupsOf (A : List Nat) : List (List Nat) := (noFillers A).splitBy (fun a b => docIn a == docIn b)
/-- A value with its infinities, as an extended real; a NaN is no number, and is asked of apart. -/
noncomputable def FVal.ext : FVal → EReal
  | .inf s => if s then ⊥ else ⊤
  | a => ((a.q : ℝ) : EReal)
/-- The f32 value of a parameter. -/
def param (P : Nat → Nat) (j : Nat) : FVal := unpack (fmtOf 9) (P j)
/-- A group of `thwand` whose sum is no number, or whose threshold is none (R197). -/
def WandInvalid (P : Nat → Nat) (g : List Nat) : Prop :=
  (param P 16).isNan = true ∨ (∃ e ∈ g, (param P (termIn e)).isNan = true) ∨
  ((∃ e ∈ g, param P (termIn e) = .inf false) ∧ ∃ e ∈ g, param P (termIn e) = .inf true)
/-- A group that `thwand` emits (R197): its exact weight reaches the threshold. -/
def WandKept (P : Nat → Nat) (g : List Nat) : Prop :=
  ¬ WandInvalid P g ∧ (param P 16).ext ≤ (g.map (fun e => (param P (termIn e)).ext)).sum
/-- One f32 operation of `thscore` and `thfuse` (R198, R199): rounded by RNE. -/
def add32 (a b : Nat) : FRes := addV (fmtOf 9) rne (unpack (fmtOf 9) a) (unpack (fmtOf 9) b)
/-- A product. -/
def mul32 (a b : Nat) : FRes := mulV (fmtOf 9) rne (unpack (fmtOf 9) a) (unpack (fmtOf 9) b)
/-- A quotient. -/
def div32 (a b : Nat) : FRes := divV (fmtOf 9) rne (unpack (fmtOf 9) a) (unpack (fmtOf 9) b)
/-- A whole number as f32. -/
def int32 (n : Nat) : FRes := roundTo (fmtOf 9) rne false n 0 false
/-- k1 + 1 and 1 - b, with their flags (R198). -/
def scoreK (P : Nat → Nat) : FRes := add32 (P 16) 0x3F800000
/-- 1 - b, as the sum 1 + (-b). -/
def scoreU3 (P : Nat → Nat) : FRes := addV (fmtOf 9) rne (unpack (fmtOf 9) 0x3F800000) (param P 17).neg
/-- The score of a group's postings in stream order (R198), from a running score. -/
def scored (P : Nat → Nat) (d32 : Nat) : List Nat → FRes → FRes
  | [], acc => acc
  | e :: l, acc =>
    let f := int32 (e / 2 ^ 32 % 2 ^ 24)
    let u1 := mul32 (P 17) d32
    let u2 := mul32 u1.1 (P 18)
    let u4 := add32 (scoreU3 P).1 u2.1
    let u5 := mul32 (P 16) u4.1
    let den := add32 f.1 u5.1
    let num := mul32 f.1 (scoreK P).1
    let q := div32 num.1 den.1
    let x := mul32 (P (termIn e)) q.1
    let y := add32 acc.1 x.1
    scored P d32 l (y.1, acc.2 ||| u1.2 ||| u2.2 ||| u4.2 ||| u5.2 ||| den.2 ||| num.2 ||| q.2 ||| x.2 ||| y.2)
/-- A score ranks below another (R200): every NaN below every number, and the numbers by their values. -/
def scoreBelow (x y : FVal) : Bool :=
  match x, y with
  | .nan _, .nan _ => false
  | .nan _, _ => true
  | _, .nan _ => false
  | .inf s, .inf t => s && !t
  | .inf s, _ => s
  | _, .inf t => !t
  | a, b => decide (a.q < b.q)
/-- A scored element does not rank after another: by its score, then by its document (R200). -/
def ranksFirst (a b : Nat) : Bool :=
  let x := unpack (fmtOf 9) (a / 2 ^ 32)
  let y := unpack (fmtOf 9) (b / 2 ^ 32)
  scoreBelow y x || (!scoreBelow x y && decide (docIn a ≤ docIn b))
/-- The blocks of a list from an address (R188, R195): each as read, well formed, and after the one before it; the last is the only
one of a SINGLE reference, or has END set. -/
def BlocksFrom (u : State) (single : Bool) : Nat → Option Nat → List PostBlock → Prop
  | _, _, [] => False
  | va, prev, b :: l => readBlock u (thAt u) va = .ok b ∧ blockCode b prev = none ∧
      if single || b.ends then l = [] else BlocksFrom u single (va + 16 * b.len16) (some b.last) l
/-- The high part of entry i among exceptions (R187): of the one whose position is i. -/
def HighPart (ps hs : List Nat) (i h : Nat) : Prop :=
  (∀ e, e < ps.length → ps.getD e 0 = i → h = hs.getD e 0) ∧ ((∀ e, e < ps.length → ps.getD e 0 ≠ i) → h = 0)
/-- How a well-formed block decodes (R187). -/
def BlockDecodes (b : PostBlock) : Prop :=
  b.docs.length = b.n ∧ b.freqs.length = b.n ∧ b.docs.getD 0 0 = b.first ∧
  (∀ i, i + 1 < b.n → ∃ h, HighPart (b.positions 2 b.ed) (b.highs 3 b.ed) (i + 1) h ∧
    b.docs.getD (i + 1) 0 = b.docs.getD i 0 + (b.field 0 (b.off 1 - b.off 0) b.bd i + h * 2 ^ b.bd) + 1) ∧
  (∀ i, i < b.n → ∃ h, HighPart (b.positions 4 b.ef) (b.highs 5 b.ef) i h ∧
    b.freqs.getD i 0 = b.field 1 (b.off 2 - b.off 1) b.bf i + h * 2 ^ b.bf + 1)
/-- The postings of a block under a term (R195). -/
def postings (term : Nat) (b : PostBlock) : List Nat :=
  (b.docs.zip b.freqs).map (fun p => term * 2 ^ 56 + min p.2 0xFFFFFF * 2 ^ 32 + p.1)
/-- What the Thresher forms yield (R193, R195-R200): of the streams that nothing is wrong with, and what else they report. -/
def ThresherYields : Prop :=
  ∀ (u : State) (P : Nat → Nat) (A B : List Nat),
    let v (op : VOp) := thValue op u (thAt u) P A B
    let units (n : Nat) := (n + 127) / 128
    (GoodStream keyIn A → GoodStream keyIn B →
      v .thor = .ok ((noFillers A).merge (noFillers B) (fun a b => decide (keyIn a ≤ keyIn b)), 0#5,
        units (A.length + B.length)) ∧
      v .thand = .ok (((noFillers A).merge (noFillers B) (fun a b => decide (keyIn a ≤ keyIn b))).filter (fun e =>
        (noFillers A).any (fun a => docIn a == docIn e) && (noFillers B).any (fun b => docIn b == docIn e)), 0#5,
        units (A.length + B.length))) ∧
    (¬ (GoodStream keyIn A ∧ GoodStream keyIn B) →
      ∀ op ∈ [VOp.thor, .thand], ∃ code ∈ [8, 9, 12], ∃ i, v op = .error (.data (i * 16 + code))) ∧
    (GoodStream docIn A → ∃ keep : List Nat → Bool, ∃ fl,
      (∀ g ∈ groupsOf A, keep g = true ↔ WandKept P g) ∧
      ((∃ g ∈ groupsOf A, WandInvalid P g) → fl = fNV) ∧ ((∀ g ∈ groupsOf A, ¬ WandInvalid P g) → fl = 0#5) ∧
      v .thwand = .ok (((groupsOf A).filter keep).flatten, fl, units A.length)) ∧
    (¬ GoodStream docIn A → ∃ code ∈ [8, 12], ∃ i, v .thwand = .error (.data (i * 16 + code))) ∧
    (P 20 % 4 = 0 → P 21 < 2 ^ 23 → GoodStream docIn A → ∀ len : Nat → Nat,
      (∀ e ∈ noFillers A, (P 20 + P 21 * 2 ^ 32 = 0 → len (docIn e) = 0) ∧
        (P 20 + P 21 * 2 ^ 32 ≠ 0 → thRead u (thAt u) (P 20 + P 21 * 2 ^ 32 + 4 * docIn e) 4 = .ok (len (docIn e)))) →
      let of (g : List Nat) : FRes := let d := int32 (len (docIn (g.headD 0))); scored P d.1 g (0, d.2)
      ∃ fl, v .thscore = .ok ((groupsOf A).map (fun g => (of g).1 * 2 ^ 32 + docIn (g.headD 0)), fl, units A.length) ∧
        ∀ j, j < 5 → fl.getLsbD j = ((scoreK P).2.getLsbD j || (scoreU3 P).2.getLsbD j ||
          (groupsOf A).any (fun g => (of g).2.getLsbD j))) ∧
    (P 20 % 4 ≠ 0 → v .thscore = .error (.data (20 * 16 + 10))) ∧
    (P 20 % 4 = 0 → 2 ^ 23 ≤ P 21 → v .thscore = .error (.data (21 * 16 + 10))) ∧
    ((∀ e ∈ noFillers A, docIn e ≠ 2 ^ 32 - 1) →
      let of (p : Nat × Nat) : FRes := if p.1 = 2 ^ 64 - 1 then (p.1, 0#5) else
        let x := mul32 p.2 (P 1)
        let y := fmaV (fmtOf 9) rne false (unpack (fmtOf 9) (p.1 / 2 ^ 32)) (param P 0) (unpack (fmtOf 9) x.1)
        (y.1 * 2 ^ 32 + docIn p.1, x.2 ||| y.2)
      ∃ fl, v .thfuse = .ok ((A.zip B).map (fun p => (of p).1), fl, units (A.length + B.length)) ∧
        ∀ j, j < 5 → fl.getLsbD j = (A.zip B).any (fun p => (of p).2.getLsbD j)) ∧
    (1 ≤ P 0 → P 0 ≤ 1024 → (∀ e ∈ noFillers A, docIn e ≠ 2 ^ 32 - 1) →
      v .thtopk = .ok (((noFillers A).mergeSort ranksFirst).take (P 0), 0#5, units A.length)) ∧
    (P 0 = 0 ∨ 1024 < P 0 → v .thtopk = .error (.data 10)) ∧
    (∀ blocks : Nat → List PostBlock, (∀ r ∈ noFillers A, r / 2 ^ 55 % 256 = 0 ∧
        BlocksFrom u (decide (2 ^ 63 ≤ r)) (r / 16 % 2 ^ 51 * 16) none (blocks r)) →
      v .thdec = .ok ((noFillers A).flatMap (fun r => (blocks r).flatMap (postings (r % 16))), 0#5,
        ((noFillers A).map (fun r => (blocks r).length)).sum)) ∧
    (∀ b prev, blockCode b prev = none → BlockDecodes b)

/-- A node of a block, by its form and its word. -/
abbrev Node := VOp × VWord
/-- The memory forms that read data, and those that write it. -/
def loads : List VOp := [.vld, .vldSt, .vldIx, .vldff]
/-- The stores and scatter-reduces. -/
def stores : List VOp :=
  [.vst, .vstSt, .vstIx, .vcompressSt, .vsrdoAdd, .vsrduAdd, .vsrduMin, .vsrduMax, .vsrduAnd, .vsrduOr, .vsrduXor]
/-- The compares, and the mask forms of major 4. -/
def compares : List VOp := [.vceq, .vcne, .vclt, .vcle, .vcgt, .vcge, .vcun]
/-- The mask forms. -/
def maskForms : List VOp := [.mand, .mor, .mxor, .mandn, .mnot, .mmv, .mset, .mclr]
/-- The Thresher forms. -/
def thForms : List VOp := [.thdec, .thand, .thor, .thwand, .thscore, .thfuse, .thtopk]
/-- The rows of a matrix form, G (spec/07_matrix.md R153); of another, none. -/
def rowsOfForm (op : VOp) : Nat :=
  match op with
  | .vmmaX1 => 1 | .vmmaX2 => 2 | .vmmaX4 => 4 | .vmmaX8 => 8
  | _ => 0
/-- The class of a node (R282); where `vpcnt`, the mask forms and `vwload` stand is the model's reading (log 23). -/
def classOfNode (n : Node) : NodeClass :=
  if n.1 ∈ stores ++ compares ++ [.lnkout, .ereq, .vaccwr] then .exit
  else if n.1 ∈ [VOp.vld, .vldSt, .vldff, .vaccrd, .lnkin, .eresp, .vpcnt, .vpcntInc] ∨ (n.1 = .vldIx ∧ srcQ (viFld n.2) = false) then .source
  else if n.1 ∈ maskForms ++ [.vaccz, .vwload] then .clear
  else .inner
/-- A node yields units: a source or an inner node (R282). -/
def yields (n : Node) : Bool := classOfNode n == .source || classOfNode n == .inner
/-- A node writes queue q, or reads it (R282). -/
def writesQ (n : Node) (q : Nat) : Bool := yields n && n.2.vd.val == 32 + q
/-- A node reads queue q. -/
def readsQ (n : Node) (q : Nat) : Bool := (nodeReads n.1 n.2).any (fun p => p.1 == q)
/-- The queues that a block names. -/
def namedQueues (nodes : List Node) : Nat :=
  ((List.range 16).filter (fun q => nodes.any (fun n => writesQ n q || readsQ n q))).length
/-- The rows of a block's reserve (R288). -/
def rowsFor (nodes : List Node) : Nat :=
  let count (p : VOp → Bool) := nodes.countP (fun n => p n.1)
  ceilDiv (32768 * namedQueues nodes + 2048 * count (fun op => op == .delay) + 280576 * count (fun op => rowsOfForm op != 0) +
    8192 * count (fun op => thForms.contains op) + 4096) 8192
/-- The chains that the other harts of the core have installed. -/
def chainsBeside (s : State) (h : HartId) : List Chain :=
  (agents s).filterMap (fun a => if a.id.hart?.any (fun k => k != h && hartCore k == hartCore h) then a.vec.chain else none)
/-- Rows that a reserve may take, by the lowest: in the grant of the hart's task on its core, and in no other chain's (R288). -/
def FreeRows (s : State) (h : HartId) (rows lo : Nat) : Prop :=
  ∃ g, hartGang s s.me.task h.core.val = some g ∧ g.row ≤ lo ∧ lo + rows ≤ g.row + g.rows ∧
    ∀ c ∈ chainsBeside s h, c.rowLo + c.rows ≤ lo ∨ lo + rows ≤ c.rowLo
/-- The first writer of a queue, and how many nodes stand before it. -/
def firstWriter (nodes : List Node) (q : Nat) : Option (Node × Nat) := nodes.zipIdx.find? (fun m => writesQ m.1 q)
/-- A node shares what a function names of it with an earlier node. -/
def again (key : Node → Option Nat) (before : List Node) (n : Node) : Bool := (key n).isSome && before.any (fun m => key m == key n)
/-- A node at which a condition of R283 is broken, after the nodes before it in the block. -/
def nodeBreach (s : State) (h : HartId) (nodes before : List Node) (n : Node) (code : Nat) : Bool :=
  match code with
  | 2 => decide (n.1 = .stop)
  | 3 => decide (yields n = true ∧ n.2.vd.val < 32)
  | 4 => decide (∃ q ∈ List.range 16,
      (readsQ n q = true ∧ (∀ m ∈ nodes, writesQ m q = false) ∧ ∀ m ∈ before, readsQ m q = false) ∨
      (writesQ n q = true ∧ before.countP (fun m => writesQ m q) = 1) ∨
      (writesQ n q = true ∧ ∀ m ∈ nodes, readsQ m q = false) ∨
      (readsQ n q = true ∧ before.countP (fun m => readsQ m q) = 8))
  | 5 => decide (∃ p ∈ nodeReads n.1 n.2, (firstWriter nodes p.1).any (fun m => unitW (outTy m.1.1 m.1.2) != unitW p.2) = true)
  | 6 => decide (∃ p ∈ nodeReads n.1 n.2, (firstWriter nodes p.1).any (fun m => m.1.1 != .delay && decide (before.length ≤ m.2)) = true)
  | 7 => decide ((classOfNode n = .exit ∨ classOfNode n = .inner) ∧ nodeReads n.1 n.2 = [])
  | 8 => decide ((n.1 ∈ loads ++ stores ∧ 16 ≤ before.countP (fun m => (loads ++ stores).contains m.1)) ∨
    (n.1 ∈ thForms ∧ 8 ≤ before.countP (fun m => thForms.contains m.1)) ∨
    (rowsOfForm n.1 ≠ 0 ∧ 4 < ((before ++ [n]).map (fun m => min (rowsOfForm m.1) 4)).sum) ∨
    again (fun m => if m.1 ∈ compares ++ maskForms then some (m.2.vd.val % 8) else none) before n = true ∨
    again (fun m => if m.1 = .vaccwr then some (m.2.vd.val % 8) else none) before n = true ∨
    again (fun m => if m.1 = .ereq then some (m.2.f2.val % 32) else none) before n = true ∨
    again (fun m => if m.1 = .eresp then some (m.2.f2.val % 32) else none) before n = true ∨
    (n.1 = .eresp ∧ ∀ m ∈ nodes, m.1 = .ereq → m.2.f2.val % 32 ≠ n.2.f2.val % 32))
  | 9 => decide ((n.1 = .lnkin ∨ n.1 = .lnkout) ∧
      (neighbour (hartCore h) (linkDir n.2) = none ∨ (∃ m ∈ before, m.1 = n.1 ∧ linkDir m.2 = linkDir n.2) ∨
        ∃ c ∈ chainsBeside s h, ∃ m ∈ c.nodes, m.1 = n.1 ∧ linkDir m.2 = linkDir n.2))
  | _ => false
/-- A breach of R283: its code, and the node it is reported at, or 0 for the block as a whole. -/
def Breach (s : State) (h : HartId) (nodes : List Node) (last : Word) (code i : Nat) : Prop :=
  (i = 0 ∧ ((code = 2 ∧ last ≠ 0xE1000000#64) ∨ (code = 7 ∧ ∀ n ∈ nodes, classOfNode n ≠ .source) ∨
    (code = 10 ∧ ∀ lo, ¬ FreeRows s h (rowsFor nodes) lo))) ∨
  ∃ j n, i = j + 1 ∧ nodes[j]? = some n ∧ nodeBreach s h nodes (nodes.take j) n code = true
/-- The header of a block keeps R281. -/
def HeaderKept (x : Nat) : Prop := x < 2 ^ 24 ∧ x / 2 ^ 15 % 2 = 0 ∧ x / 2 ^ 7 % 2 = 0 ∧ 1 ≤ x % 128 ∧ x % 128 ≤ 64
/-- `chain` (R285-R288, R308): the traps of the block, of its header, of its node words (R53) and of R283 in their order, and what it
installs. -/
def ChainInstalls (s : State) (h : HartId) (w : VWord) : Prop :=
  let u := switched s
  let ga := getG s.me (regOf w.ga)
  let traps (t : Trap) : Prop := exec (.chain w) s = .next (takeTrap u t)
  let refused (code i : Nat) : Prop := traps (Trap.sync cChfetch (BitVec.ofNat 64 (code + 256 * i)))
  (ga.toNat % 8 ≠ 0 → traps (Trap.sync cAlign ga)) ∧
  (ga.toNat % 8 = 0 → ∀ f, readIn u (vectorCtx u) ga.toNat 8 = .error f → traps f.trap) ∧
  ∀ x, ga.toNat % 8 = 0 → readIn u (vectorCtx u) ga.toNat 8 = .ok x →
    (¬ HeaderKept x → refused 1 0) ∧
    (HeaderKept x → ∀ f, readDwords u (vectorCtx u) (ga.toNat + 8) (x % 128 + 1) = .error f → traps f.trap) ∧
    ∀ l, HeaderKept x → readDwords u (vectorCtx u) (ga.toNat + 8) (x % 128 + 1) = .ok l →
      (∀ before y after, l.dropLast = before ++ y :: after → (∀ z ∈ before, ∃ n, decodeBlockWord z.toNat = .ok n) →
        (decodeBlockWord y.toNat = .error .illegal →
          traps (Trap.sync cIllegal (if y.toNat / 2 ^ 30 % 4 = 3 then y else BitVec.ofNat 64 (y.toNat % 2 ^ 32)))) ∧
        (∀ k, decodeBlockWord y.toNat = .error (.feature k) → traps (Trap.sync cFeature (BitVec.ofNat 64 k)))) ∧
      ∀ nodes : List Node, l.dropLast.map (fun y => decodeBlockWord y.toNat) = nodes.map .ok →
        (∀ code i, Breach u h nodes (l.getLastD 0#64) code i →
          (∀ c j, Breach u h nodes (l.getLastD 0#64) c j → code < c ∨ (code = c ∧ i ≤ j)) → refused code i) ∧
        ((∀ code i, ¬ Breach u h nodes (l.getLastD 0#64) code i) → ∃ t c lo, exec (.chain w) s = .next t ∧
          FreeRows u h (rowsFor nodes) lo ∧ (∀ j, FreeRows u h (rowsFor nodes) j → j ≤ lo) ∧
          t.me.vec.chain = some c ∧ c.nodes = nodes ∧ c.words = l.dropLast ∧ c.rowLo = lo ∧ c.rows = rowsFor nodes ∧
          c.cid = x / 2 ^ 16 % 256 ∧ c.infl = x / 2 ^ 12 % 8 ∧ c.sgran = x / 2 ^ 8 % 16 ∧
          t.me.vec.chbase = some (ga.extractLsb' 3 52) ∧ t.me.vec.rRun = false ∧ t.me.vec.rFail = false ∧ t.me.vec.rPend = false ∧
          t.me.vec.rElem = 0#41 ∧ t.me.vec.exits = 0 ∧ t.me.vec.vstart = 0#17 ∧ t.me.vec.regs = s.me.vec.regs ∧ t.me.g = s.me.g ∧
          t.me.pc = s.me.pc + 8#64 ∧
          ∀ j, tileKey (hartCore h) + lo * 8192 ≤ j → j < tileKey (hartCore h) + (lo + rowsFor nodes) * 8192 → Memory.read t.mem j = 0#8)
/-- The strip length of a run that starts (R291). -/
def stripSize (v : VecState) (ch : Chain) : Nat := v.vlLen.toNat - v.vlLen.toNat % 2 ^ ch.sgran
/-- The start check of R291 that a run of n units fails, with its node, or none: LENGTH, STRIP, ROW, OVERFLOW, WIDTH. That several are
told apart in this order is the model's choice (log 50). -/
def startFails (v : VecState) (L : Nat) (ch : Chain) (n : Nat) : Option (Nat × Nat) :=
  let size := stripSize v ch
  let first (code : Nat) (p : Node → Bool) : Option (Nat × Nat) := (ch.nodes.findIdx? p).map (fun j => (code, j + 1))
  let matrix (x : Node) : Bool := rowsOfForm x.1 != 0
  let depth (x : Node) : Nat := depthOf x.2.vt.val
  let columns (x : Node) : Nat := 8 * (min v.vlLen.toNat (cap x.2.vt.val L) / depth x)
  let block (x : Node) : Bool := blkTy x.2.vt.val || ([VOp.vcvt, .vpack, .vunpack].contains x.1 && blkTy x.2.f2.val)
  let badStream (x : Node) : Bool := [VOp.ereq, .eresp].contains x.1 && x.2.f2.val % 4 == 1 &&
    (match v.descs.toList.getD (x.2.f2.val / 4 % 8) none with
     | none => true
     | some d => x.1 == .eresp && 8 * d.esz != unitW x.2.vt.val)
  (if 2 ^ 41 ≤ n then some (5, 0) else none).or <|
  (if 0 < n ∧ size = 0 then some (6, 0) else none).or <|
  (first 6 (fun x => yields x && decide (32 ≤ x.2.vd.val) && decide (2 ^ 18 / unitW (outTy x.1 x.2) < size))).or <|
  (if size % 32 = 0 then none else first 6 block).or <|
  (first 4 (fun x => matrix x && size % depth x != 0)).or <|
  (first 7 (fun x => matrix x && decide (2 ^ 18 / 32 < size / depth x * columns x))).or (first 8 badStream)
/-- What the writes of a strip and its scatter-reduces, in the order of its nodes, leave, with the flags of the latter. -/
def memoryAfter (s : State) (effs : List Effect) : State × BitVec 5 :=
  effs.foldl (fun a x => match x with
    | .mem w => (w.apply a.1, a.2)
    | .srd op ty loc mode bits v => srdApply op ty a (loc, { mode := mode, bits := bits }, v)
    | _ => a) (s, 0#5)
/-- The last bit that a strip writes at a place of a mask, if it writes one. -/
def maskWritten (effs : List Effect) (d i : Nat) : Option Bool :=
  (effs.filterMap (fun x => match x with
    | .mask d' i' b => if d' % 8 = d % 8 ∧ i' = i then some b else none
    | _ => none)).getLast?
/-- The last value that a strip writes in a column of a row of a tile; zero where it only clears the tile. -/
def accWritten (effs : List Effect) (tile row n : Nat) : Option Nat :=
  match (effs.filterMap (fun x => match x with
    | .acc tile' row' col v => if (8 * tile' + row') % 64 = 8 * tile + row ∧ col = n then some (v % 2 ^ 32) else none
    | _ => none)).getLast? with
  | some v => some v
  | none => if effs.any (fun x => match x with
      | .accz tile' => tile' % 8 == tile
      | _ => false) then some 0 else none
/-- A strip that reaches its commit (spec/13_chains.md R293), and does not re-form instead: memory takes its writes, masks and
accumulators its bits and columns, and FFLAGS its flags; ELEM advances to the end of the strip; the run ends with its last
strip, and else goes on with the next; the hart's registers, PC and `VSTART` stay. -/
def CommitForm (i : HartId → Instr) (broken : Bool) : Prop :=
  ∀ s h e, stripOf s h = some e → e.r.broken = broken → reForms e = false → firstStop (evalStrip e).2 = none →
    let a := hartOf s h
    let ended := e.last && (evalStrip e).2.all (fun o => o.ended)
    let effs := (evalStrip e).2.flatMap (fun o => o.effs)
    ∃ t, exec (i h) s = .next t ∧
      t.mem = (memoryAfter e.s effs).1.mem ∧
      (∀ d j, d % 8 ≠ 0 → j < 65536 →
        maskBitOf (hartOf t h).vec.masks d j = (maskWritten effs d j).getD (maskBitOf a.vec.masks d j)) ∧
      (∀ tile row n, tile < 8 → row < 8 → n < 4096 → accCol (accRow (hartOf t h).vec.acc tile row) n =
        (accWritten effs tile row n).getD (accCol (accRow a.vec.acc tile row) n)) ∧
      (hartOf t h).fflags = a.fflags ||| (evalStrip e).2.foldl (fun f o => f ||| o.flags) (memoryAfter e.s effs).2 ∧
      (hartOf t h).vec.rElem = BitVec.ofNat 41 (min ((e.r.strip + 1) * e.r.size) e.r.n) ∧
      (hartOf t h).vec.rRun = !ended ∧ (hartOf t h).vec.rTemp = (broken && !ended) ∧
      (ended = true → (hartOf t h).vec.run = none) ∧
      (ended = false → ∃ r, (hartOf t h).vec.run = some r ∧ r.strip = e.r.strip + 1 ∧ r.n = e.r.n ∧ r.streams = (evalStrip e).1) ∧
      (hartOf t h).pc = a.pc ∧ (hartOf t h).g = a.g ∧ (hartOf t h).vec.regs = a.vec.regs ∧
      (hartOf t h).vec.vstart = a.vec.vstart ∧ (hartOf t h).mode = a.mode ∧ t.me.id = s.me.id
/-- One element that a command moves, the m-th (spec/12_atomics_engines.md R268-R271), from the state a to the state b: the place of a
destination element takes the source element that its form names, or zero, and nothing else changes; or nothing changes. -/
def ElementMoved (c : Command) (d sr : Desc) (counts : List Nat) (m : Nat) (a b : State) : Prop :=
  let taken (offset : Int) (v : Nat) : Prop :=
    ∃ l, resolveAt a (cmdCtx a c) sr.space sr.dir .read offset = .ok l ∧ v = readLoc a l sr.esz
  let stored (i v : Nat) : Prop :=
    ∃ l, resolveAt a (cmdCtx a c) d.space d.dir .write (d.offset i) = .ok l ∧ b = writeLoc a l d.esz v
  let index (x : Nat) : Prop := readIn a (cmdCtx a c) (c.ga.toNat + 4 * m) 4 = .ok x
  match c.form with
  | .cpy => ∃ v, taken (sr.offset m) v ∧ stored m v
  | .cpyt => ∃ (ks : List Nat) (v : Nat), ks.length = d.dims.length ∧
      (∀ j, j < d.dims.length → ks.getD (c.ga.toNat / 8 ^ j % 8) 0 = (splitIndex d.dims m).getD j 0) ∧ taken (sr.at_ ks) v ∧ stored m v
  | .gsg => ∃ x, index x ∧ ((x < sr.count ∧ ∃ v, taken (sr.offset x) v ∧ stored m v) ∨ (sr.count ≤ x ∧ stored m 0))
  | .gss => ∃ x, index x ∧ ((x < d.count ∧ ∃ v, taken (sr.offset m) v ∧ stored x v) ∨ (d.count ≤ x ∧ b = a))
  | .winnow => ∃ g q v, q < counts.getD g 0 ∧ m = (counts.take g).sum + q ∧
      taken (sr.offset (g * (sr.count / max 1 (segments sr)) + q)) v ∧ stored m v
/-- The code of the first check of R267 that a command fails, in their order: BADDESC, SHAPE (R268-R271), ALIGN, OVERLAP. -/
def refusedWith (c : Command) : Option Nat :=
  match c.dst, c.src with
  | some d, some s =>
    let n := d.dims.length
    let place (j : Nat) := c.ga.toNat / 8 ^ j % 8
    let size (x : Desc) (j : Nat) := (x.dims.getD j (0, 0)).1
    let segs := if s.dims.length ≤ 1 then 1 else size s (s.dims.length - 1)
    let array (k : Nat) : Int × Int := (c.ga.toNat, c.ga.toNat + 4 * k - 1)
    let reads := spanOf s :: match c.form with
      | .gsg => [array d.count]
      | .gss => [array s.count]
      | .winnow => [array segs]
      | _ => []
    let writes := spanOf d :: if c.form = .winnow then [((c.gb.toNat : Int), (c.gb.toNat : Int) + 7)] else []
    if d.space = 2 then some 5
    else if ¬ (d.esz = s.esz ∧ (c.form = .cpy → d.count = s.count) ∧
        (c.form = .cpyt → c.ga.toNat < 2 ^ 15 ∧ s.dims.length = n ∧ (∀ i < n, ∃ j < min n 5, place j = i) ∧
          (∀ j < 5, n ≤ j → place j = j) ∧ ∀ j < n, size d j = size s (place j))) then some 4
    else if (c.form ≠ .cpy ∧ c.form ≠ .cpyt ∧ c.ga.toNat % 4 ≠ 0) ∨ (c.form = .winnow ∧ c.gb.toNat % 8 ≠ 0) then some 8
    else if (∃ a ∈ writes, ∃ b ∈ reads, meet a b = true) ∨ ¬ writes.Pairwise (fun a b => meet a b = false) then some 3
    else none
  | _, _ => some 5
/-- The fault at which a command stands at its m-th element, in a state: that of its index, else of what it reads, else of what it
writes (R276). -/
def ElementFaults (c : Command) (d sr : Desc) (counts : List Nat) (m : Nat) (a : State) (f : Flt) : Prop :=
  let src (offset : Int) : Except Flt Loc := resolveAt a (cmdCtx a c) sr.space sr.dir .read offset
  let dst (i : Nat) : Except Flt Loc := resolveAt a (cmdCtx a c) d.space d.dir .write (d.offset i)
  let moving (offset : Int) (i : Nat) : Prop := src offset = .error f ∨ ((∃ l, src offset = .ok l) ∧ dst i = .error f)
  let index := readIn a (cmdCtx a c) (c.ga.toNat + 4 * m) 4
  match c.form with
  | .cpy => moving (sr.offset m) m
  | .cpyt => ∃ ks : List Nat, ks.length = d.dims.length ∧
      (∀ j, j < d.dims.length → ks.getD (c.ga.toNat / 8 ^ j % 8) 0 = (splitIndex d.dims m).getD j 0) ∧ moving (sr.at_ ks) m
  | .gsg => index = .error f ∨ ∃ x, index = .ok x ∧ ((x < sr.count ∧ moving (sr.offset x) m) ∨ (sr.count ≤ x ∧ dst m = .error f))
  | .gss => index = .error f ∨ ∃ x, index = .ok x ∧ x < d.count ∧ moving (sr.offset m) x
  | .winnow => ∃ g q, q < counts.getD g 0 ∧ m = (counts.take g).sum + q ∧
      moving (sr.offset (g * (sr.count / max 1 (segments sr)) + q)) m
/-- A fault that stalls a command, and does not end it (R276). -/
def StallsCommand (f : Flt) : Prop := f.cause = cPfault ∨ (f.cause = cProt ∧ f.perm = true)
/-- The elements that a command has to move. -/
def elementsOf (c : Command) (d sr : Desc) (counts : List Nat) : Nat :=
  match c.form with
  | .gss => sr.count
  | .winnow => counts.sum
  | _ => d.count
/-- The counts of a `winnow`'s segments, as it has read them, or as they stand where it has not (R271). -/
def CountsAre (s : State) (c : Command) (sr : Desc) (counts : List Nat) : Prop :=
  c.counts = some counts ∨ (c.counts = none ∧ counts.length = segments sr ∧
    ∀ g, g < counts.length → readIn s (cmdCtx s c) (c.ga.toNat + 4 * g) 4 = .ok (counts.getD g 0))
/-- A command that moves k elements from the one where it stands, from the state s to the state b. -/
def Moved (s : State) (c : Command) (d sr : Desc) (counts : List Nat) (k : Nat) (b : State) : Prop :=
  c.next + k ≤ elementsOf c d sr counts ∧
  (c.form = .winnow → CountsAre s c sr counts ∧ (∀ x ∈ counts, x ≤ sr.count / max 1 (segments sr)) ∧ counts.sum ≤ d.count) ∧
  ∃ u : Nat → State, u 0 = s ∧ (∀ j, j < k → ElementMoved c d sr counts (c.next + j) (u j) (u (j + 1))) ∧ u k = b
/-- What a command does that meets a fault at an element (R276): the elements before it are moved; a fault that stalls it posts a record,
in the ring of its tenancy's fault queue if there is one, and any other ends it, with POISON or FAULT, and posts none. -/
def CommandStops (s : State) (h : HartId) (n : Nat) (c : Command) : Prop :=
  ∀ d sr counts k b f, c.dst = some d → c.src = some sr → refusedWith c = none → Moved s c d sr counts k b →
    c.next + k < elementsOf c d sr counts → ElementFaults c d sr counts (c.next + k) b f →
    (StallsCommand f → exec (.commandEnd h n) s = .next s ∧ ∃ t x token, exec (.engineStall h n) s = .next t ∧
      commandOf t h n = some x ∧ x.phase = .stalled token ∧ x.next = c.next + k ∧
      ((tenOf s (hartOf s h).ten.toNat).fqlog2 = 0#5 → t.mem = b.mem) ∧ ∃ r ∈ t.records, r.token = token ∧ r.subject = .command h n ∧ r.answered = none) ∧
    (¬ StallsCommand f → exec (.engineStall h n) s = .next s ∧ ∃ t x, exec (.commandEnd h n) s = .next t ∧
      commandOf t h n = some x ∧ x.phase = .final ∧ x.code = (if f.cause = cPoison then 7 else 6) ∧ x.next = c.next + k ∧
      (c.form ≠ .gss → x.written = c.written + k) ∧ t.mem = b.mem ∧ t.records = s.records)
/-- Where a command pauses (R277): after the first element that makes up 256 bytes written, or a multiple of them, and at none before;
of a form that writes at each element. -/
def PausesAt (s : State) (h : HartId) (n : Nat) (c : Command) : Prop :=
  ∀ d sr counts k b, c.dst = some d → c.src = some sr → refusedWith c = none → c.form ≠ .gss → Moved s c d sr counts k b →
    0 < k → (c.written + k) * d.esz % 256 = 0 → (∀ j, 0 < j → j < k → (c.written + j) * d.esz % 256 ≠ 0) →
    ∃ t x, exec (.checkpointPause h n) s = .next t ∧ commandOf t h n = some x ∧ x.next = c.next + k ∧ x.written = c.written + k ∧
      x.phase = (if taskPaused s h c.task then .paused else .running) ∧ t.mem = b.mem
/-- What a command leaves that moves its elements from the one where it stands to the last (R268-R271, R273): each element as its
form says, in ascending order; then, of a `winnow`, the total at gb; DONE, or CLIPPED where an index was out of range; and every byte
of memory that is in no element of the destination that it writes, nor in that total, reads as before. -/
def CommandMoves (i : Instr) (s : State) (c : Command) (d sr : Desc) (code : Nat) : Prop :=
  ∀ counts, (c.form = .winnow → CountsAre s c sr counts) →
    let total := elementsOf c d sr counts
    let k := total - c.next
    c.next ≤ total → ∃ (u : Nat → State) (v t : State), exec i s = .next t ∧ u 0 = s ∧
      (∀ j, j < k → ElementMoved c d sr counts (c.next + j) (u j) (u (j + 1))) ∧
      (if c.form = .winnow then writeIn (u k) (cmdCtx (u k) c) c.gb.toNat 8 total = .ok v else v = u k) ∧
      t = { v with entries := t.entries, cmds := t.cmds } ∧
      (code = 1 ↔ c.clipped = true ∨ ∃ j x, j < k ∧ readIn (u j) (cmdCtx (u j) c) (c.ga.toNat + 4 * (c.next + j)) 4 = .ok x ∧
        ((c.form = .gsg ∧ sr.count ≤ x) ∨ (c.form = .gss ∧ d.count ≤ x))) ∧
      (Memory.wf s.mem = true → ∀ p,
        let clear (l : Loc) (n : Nat) : Prop := match l with
          | .mem q => p < q ∨ q + n ≤ p
          | .poisonMap _ => True
          | .mgmt _ => False
        (∀ j e l, j ≤ k → e < (if c.form = .winnow then total else d.count) →
          resolveAt (u j) (cmdCtx (u j) c) d.space d.dir .write (d.offset e) = .ok l → clear l d.esz) →
        (c.form = .winnow → ∀ l, resolve (u k) (cmdCtx (u k) c) .write c.gb.toNat = .ok l → clear l 8) →
        Memory.read t.mem p = Memory.read s.mem p)
/-- The state in which a collective has sent a frame of a kind to a rank (spec/15_links_collectives.md R353), by the port and to
the station of that rank's member entry: `sendFrame` sends it inside the package, or on the wire. -/
def sendTo (s : State) (c : Coll) (kind rank chunk code : Nat) (last : Bool) (payload : List Byte) : State :=
  sendFrame s (c.members.getD rank { station := 0, port := 0 }).port (c.members.getD rank { station := 0, port := 0 }).station
    { ver := 1, kind := kind, ty := c.ty, form := c.form, rm := c.rm, op := c.op, last := last, group := c.group, cseq := c.cseq,
      src := c.rank, dst := rank, chunk := chunk, code := code, payload := payload }
/-- The state in which a collective that ends with a code has sent its aborts (R355): one to every other rank, in rank order. -/
def abortsTo (s : State) (c : Coll) (code : Nat) : State :=
  ((List.range c.members.length).filter (fun r => r != c.rank)).foldl (fun s r => sendTo s c 2 r 0 code false []) s
/-- An event that ends a collective with a code, and sends nothing but its aborts. -/
def EndsWith (i : Instr) (s : State) (c : Coll) (code : Nat) : Prop :=
  ∃ t, exec i s = .next t ∧ t = { abortsTo s c code with colls := t.colls } ∧
    (collOf t c.owner c.ticket).map (fun x => x.code) = some code
/-- An event at the management port that leaves the state u but for a REPLY (spec/16_isolation.md R384): its tag, its status and
its data; the OFFSET of a REPLY has no stated value (log 30). -/
def Replies (i : Instr) (s u : State) (tag status : Nat) (data : List Byte) : Prop :=
  ∃ t offset, exec i s = .next t ∧
    t = { u with sent := u.sent ++ [.mgmt (replyBytes offset tag status data)], tick := t.tick }
/-- A chunk of a member's own piece. -/
def chunkBytes (c : Coll) (k : Nat) : List Byte := (c.local_.drop (4096 * k)).take (chunkLen c k)
/-- An OBJCMD event on a control core that is not in U mode (spec/16_isolation.md R370): STATUS and the words of the object are the
command's, and CMD holds its number. -/
def CommandForm (i : Fin 32 → Instr) (cmd : Nat) (want : State → Bool) : Prop :=
  ∀ s cc, let u := switchTo s (.cc cc)
    u.me.mode ≠ .u → want u = true → ∃ t, exec (i cc) s = .next t ∧ t.me.id = s.me.id ∧
      (agentOf t (.cc cc)).cc.status = BitVec.ofNat 8 (command u cmd).2.1 ∧
      (agentOf t (.cc cc)).cc.cmd = BitVec.ofNat 8 cmd ∧ (agentOf t (.cc cc)).cc.objd = (command u cmd).2.2 ∧
      t.mem = (command u cmd).1.mem ∧ t.tenancies = (command u cmd).1.tenancies ∧ t.entries = (command u cmd).1.entries ∧
      t.queues = (command u cmd).1.queues ∧ t.records = (command u cmd).1.records

/-- A node word by its fields, in the order of spec/02_encoding.md R36. -/
def node8 (vd : Fin 64) (vs1 vs2 vs3 : Fin 512) (vm : Fin 16) (vt : Fin 32) (rm : Fin 8) (x : Fin 2) : VWord :=
  { vd := vd, f1 := vs1, f2 := vs2, f3 := vs3, vm := vm, vt := vt, rm := rm, x := x }
/-- The agent that acts may fetch: a control core after boot, or a running hart that nothing stops and that no `OVERRUN` waits
for (spec/17_traps.md R390). -/
def MayFetch (s : State) : Prop :=
  (isHart s.me = true → s.me.stopped = false ∧ s.me.halted = false ∧ s.me.held = false ∧ s.me.status = .running ∧
    (s.me.overrun = false ∨ s.me.mode ≠ .u))

/-- Each form of major 0x01 but `vsel`, with the function of its operands (R132). -/
def EachIntForm (P : VOp → (VWord → Instr) → ((n : Nat) → Bool → BitVec n → BitVec n → BitVec n → BitVec n) → Prop) : Prop :=
  P .vadd .vadd (fun _ _ a b _ => a + b) ∧
  P .vsub .vsub (fun _ _ a b _ => a - b) ∧
  P .vrsub .vrsub (fun _ _ a b _ => b - a) ∧
  P .vmul .vmul (fun _ _ a b _ => a * b) ∧
  P .vmulh .vmulh (fun n sg a b _ => BitVec.ofInt n (intVal sg a * intVal sg b / 2 ^ n)) ∧
  P .vdiv .vdiv (fun _ sg a b _ => if sg then quoS a b else quoU a b) ∧
  P .vrem .vrem (fun _ sg a b _ => if sg then remS a b else remU a b) ∧
  P .vand .vand (fun _ _ a b _ => a &&& b) ∧
  P .vor .vor (fun _ _ a b _ => a ||| b) ∧
  P .vxor .vxor (fun _ _ a b _ => a ^^^ b) ∧
  P .vsll .vsll (fun n _ a b _ => a <<< (b.toNat % n)) ∧
  P .vsrl .vsrl (fun n _ a b _ => a >>> (b.toNat % n)) ∧
  P .vsra .vsra (fun n _ a b _ => BitVec.ofInt n (a.toInt / 2 ^ (b.toNat % n))) ∧
  P .vmin .vmin (fun _ sg a b _ => if intVal sg a ≤ intVal sg b then a else b) ∧
  P .vmax .vmax (fun _ sg a b _ => if intVal sg a ≤ intVal sg b then b else a) ∧
  P .vsadd .vsadd (fun n sg a b _ => clampTo n sg (intVal sg a + intVal sg b)) ∧
  P .vssub .vssub (fun n sg a b _ => clampTo n sg (intVal sg a - intVal sg b)) ∧
  P .vabs .vabs (fun n sg a _ _ => if sg then BitVec.ofInt n |a.toInt| else a) ∧
  P .vneg .vneg (fun _ _ a _ _ => 0 - a) ∧
  P .vnot .vnot (fun _ _ a _ _ => ~~~a) ∧
  P .vmv .vmv (fun _ _ a _ _ => a) ∧
  P .vclz .vclz (fun n _ a _ _ => if a = 0#n then BitVec.ofNat n n else BitVec.ofNat n (n - 1 - a.toNat.log2)) ∧
  P .vpopc .vpopc (fun n _ a _ _ => BitVec.ofNat n ((List.range n).filter (fun j => a.getLsbD j)).length) ∧
  P .vmacc .vmacc (fun _ _ a b c => a * b + c)
/-- Each form of major 0x02, with the function of its operands, rounded once by the mode of its element (R133, R95). -/
def EachFloatForm (P : VOp → (VWord → Instr) → (Fmt → RMode → Nat → Nat → Nat → FRes) → Prop) : Prop :=
  P .vfadd .vfadd (fun F m a b _ => addV F m (unpack F a) (unpack F b)) ∧
  P .vfsub .vfsub (fun F m a b _ => addV F m (unpack F a) (unpack F b).neg) ∧
  P .vfmul .vfmul (fun F m a b _ => mulV F m (unpack F a) (unpack F b)) ∧
  P .vfdiv .vfdiv (fun F m a b _ => divV F m (unpack F a) (unpack F b)) ∧
  P .vfsqrt .vfsqrt (fun F m a _ _ => sqrtV F m (unpack F a)) ∧
  P .vfmin .vfmin (fun F _ a b _ => chosen F false a b) ∧
  P .vfmax .vfmax (fun F _ a b _ => chosen F true a b) ∧
  P .vfabs .vfabs (fun F _ a _ _ => (resign F a 0, 0#5)) ∧
  P .vfneg .vfneg (fun F _ a _ _ => (resign F a (1 + topBit F a), 0#5)) ∧
  P .vfsgnj .vfsgnj (fun F _ a b _ => (resign F a (topBit F b), 0#5)) ∧
  P .vfsgnjn .vfsgnjn (fun F _ a b _ => (resign F a (1 + topBit F b), 0#5)) ∧
  P .vfsgnjx .vfsgnjx (fun F _ a b _ => (resign F a (topBit F a + topBit F b), 0#5)) ∧
  P .vfclass .vfclass (fun F _ a _ _ => (classOf F.eb F.f a, 0#5)) ∧
  P .vfma .vfma (fun F m a b c => fmaV F m false (unpack F a) (unpack F b) (unpack F c)) ∧
  P .vfms .vfms (fun F m a b c => fmaV F m false (unpack F a) (unpack F b) (unpack F c).neg) ∧
  P .vfnma .vfnma (fun F m a b c => fmaV F m true (unpack F a) (unpack F b) (unpack F c).neg) ∧
  P .vfnms .vfnms (fun F m a b c => fmaV F m true (unpack F a) (unpack F b) (unpack F c))

/-- A word that `chain` installs as a node (spec/13_chains.md R283). -/
def InstallsAsNode (op : VOp) (w : VWord) : Prop :=
  vcheck3 .chain w op = true ∧ lowestAbsent (vfeatures w op) = none ∧ vcheck5 .chain w op = true
/-- Units of queue q at the end of a strip. -/
def unitsOn (e : StripEnv) (q : Nat) : List Nat := (streamOf (evalStrip e).1 q).units
/-- The operand of a source field for position i of a strip, after a number of units (spec/06_vector_arith.md R152): the next unit of
its queue, or the element of its register as `run` captured it (R129). -/
def operandAt (e : StripEnv) (t : Nat) (f : Fin 512) (taken i : Nat) : Nat :=
  if srcQ f then (unitsOn e (srcN f)).getD (taken + i) 0 % 2 ^ codeW t
  else if srcIndex f i < cap t e.r.lanes then srcElem e.r.v t e.r.lanes f i
  else Config.beyondCapacity (srcIndex f i) % 2 ^ elemW t
/-- The b operand, a g register's low bits with X = 1. -/
def bOperandAt (e : StripEnv) (w : VWord) (taken i : Nat) : Nat :=
  if w.x.val = 1 then (if srcN w.f2 % 32 = 0 then 0 else e.r.g[regOf (srcN w.f2)].toNat % 2 ^ codeW w.vt.val)
  else operandAt e w.vt.val w.f2 taken i
/-- Units that an inner node of block entry j takes in a strip, from those it had taken (spec/13_chains.md R293): all that its queues
hold in step, where no later node but a `delay` or an `eresp` writes one of them. -/
def TakesAll (e : StripEnv) (j : Nat) (n : Node) (taken k : Nat) : Prop :=
  (∀ q, readsQ n q = true → k ≤ (unitsOn e q).length - taken) ∧
  ((∃ q, readsQ n q = true) →
    (∀ i m q, e.ch.nodes[i]? = some m → j ≤ i → readsQ n q = true → writesQ m q = true → m.1 = .delay ∨ m.1 = .eresp) →
    ∃ q, readsQ n q = true ∧ k = (unitsOn e q).length - taken)
/-- A form with a value for each position, as a node of a strip (spec/06_vector_arith.md R152): an active position gives the unit that the
form gives inline, by the rounding mode and the mask that `run` captured, and one that is masked off gives 0; FFLAGS takes the flags of the
active ones. -/
def NodeForm (op : VOp) (f : StripEnv → VWord → Nat → Nat → Nat → Nat → Nat → FRes) : Prop :=
  ∀ (e : StripEnv) (w : VWord) (ns : NodeState) (j : Nat), e.ch.nodes[j]? = some (op, w) → e.r.nodes[j]? = some ns →
    InstallsAsNode op w → e.r.bad = [] →
    let y (i : Nat) : FRes := f e w (ns.used + i) i (operandAt e w.vt.val w.f1 ns.used i) (bOperandAt e w ns.used i)
      (operandAt e w.vt.val w.f3 ns.used i)
    let act (i : Nat) : Bool := op == .vsel || maskBitOf e.r.masks (maskReg w) i
    ∃ o k, (evalStrip e).2[j]? = some o ∧ o.next.used = ns.used + k ∧ TakesAll e j (op, w) ns.used k ∧
      o.outs = (List.range k).map (fun i => if act i then (y i).1 else 0) ∧ o.effs = [] ∧
      ∀ b, b < 5 → o.flags.getLsbD b = (List.range k).any (fun i => act i && (y i).2.getLsbD b)
/-- The integer forms as nodes: what `IntForm` gives inline. -/
def IntNode (op : VOp) (_ : VWord → Instr) (f : (n : Nat) → Bool → BitVec n → BitVec n → BitVec n → BitVec n) : Prop :=
  NodeForm op (fun _ w _ _ a b c =>
    let n := elemW w.vt.val
    ((f n (signedTy w.vt.val) (BitVec.ofNat n a) (BitVec.ofNat n b) (BitVec.ofNat n c)).toNat, 0#5))
/-- The floating-point forms as nodes: what `FloatForm` gives inline, by the mode of the stream's element. -/
def FloatNode (op : VOp) (_ : VWord → Instr) (f : Fmt → RMode → Nat → Nat → Nat → FRes) : Prop :=
  NodeForm op (fun e w n _ a b c => f (fmtOf w.vt.val) (vmode w.rm e.r.rmode e.r.srseed n) a b c)
/-- What a fault of an access does to a strip (spec/13_chains.md R301): PFAULT, and PROT for a permission that the leaf lacks, stall. -/
def StripFaultOf (f : Flt) (r : RFault) : Prop :=
  r.cause = f.cause ∧ r.xval = BitVec.ofNat 64 f.va ∧ (r.stall = true ↔ f.cause = cPfault ∨ (f.cause = cProt ∧ f.perm = true))
/-- A `vld` of elements as a node (spec/10_memory.md R229): a masked-off position gives 0 and reads nothing, an active one the element at
its place in the stream; at the first that faults the node faults. -/
def LoadNode : Prop :=
  ∀ (e : StripEnv) (w : VWord) (ns : NodeState) (j : Nat), e.ch.nodes[j]? = some (.vld, w) → e.r.nodes[j]? = some ns →
    InstallsAsNode .vld w → e.r.bad = [] → blkTy w.vt.val = false → memCheck .vld w.vt.val (portAt e .vld w) = none →
    let m : MemAt := { base := if w.gb % 32 = 0 then 0 else e.r.g[regOf w.gb].toInt, off := off9 w, stride := 1, space := e.r.space,
                       dir := e.r.dir, ctx := e.ctx }
    let act (i : Nat) : Bool := maskBitOf e.r.masks (maskReg w) i
    let read (i : Nat) : Except Flt Nat := elemLoad e.s m w.vt.val ((ns.used + i : Nat) : Int)
    (∀ x : Nat → Nat, (∀ i, i < e.len → act i = true → read i = .ok (x i)) → ∃ o, (evalStrip e).2[j]? = some o ∧
      o.outs = (List.range e.len).map (fun i => if act i then x i else 0) ∧ o.next.used = ns.used + e.len ∧ o.ended = e.last) ∧
    (∀ k f, k < e.len → act k = true → read k = .error f → (∀ i, i < k → act i = true → ∃ x, read i = .ok x) →
      reserveFault e = none → ∃ o r, (evalStrip e).2[j]? = some o ∧ o.fault = some r ∧ StripFaultOf f r)
/-- Only a fault of those causes stalls a strip. -/
def StallsOnly : Prop :=
  ∀ (e : StripEnv) o f, o ∈ (evalStrip e).2 → o.fault = some f → f.stall = true → f.cause = cPfault ∨ f.cause = cProt
/-- A hart can run its chain spatially (spec/13_chains.md R306; spec/07_matrix.md R164; spec/09_thresher.md R203): the lanes captured at
`run` and whole sheaves for every matrix node are among those it has, and no engine and no link port of the block is withheld. -/
def CanRunSpatially (s : State) (h : HartId) (captured : Nat) (nodes : List Node) : Prop :=
  let a := hartOf s h
  let lanes := (if a.reclaimed then a.nlanes else a.lanes).toNat
  captured ≤ lanes ∧ 32 * (nodes.map (fun n => min (rowsOfForm n.1) 4)).sum ≤ lanes ∧
  ∀ n ∈ nodes,
    (n.1 = .ereq ∨ n.1 = .eresp → .engine h.die (n.2.f2.val % 4) ∉ s.withheld) ∧
    (n.1 = .lnkin ∨ n.1 = .lnkout → .link (hartCore h) (linkDir n.2) ∉ s.withheld) ∧
    (n.1 ∈ thForms → .engine h.die 2 ∉ s.withheld)

/-- An entry keeps the rules of R320-R322 (spec/14_harts_kiln.md): its zero fields, `SUCC` with `SUCCALL`, and the request. -/
def EntryWellFormed (w : Vector Word 8) : Prop :=
  let r := w[3].toNat
  let field (lo n : Nat) := r / 2 ^ lo % 2 ^ n
  (w[0].extractLsb' 51 13 = 0 ∧ w[0].extractLsb' 24 8 = 0 ∧ w[0].extractLsb' 0 24 = 0 ∧
    (w[0].getLsbD 49 = true → w[0].getLsbD 48 = true)) ∧
  (w[1].toNat < 2 ^ 55 ∧ w[1].toNat % 4 = 0) ∧ w[4].toNat < 2 ^ 40 ∧ w[5].toNat < 2 ^ 48 ∧
  (w[6].toNat < 2 ^ 55 ∧ w[6].toNat % 8 = 0) ∧ w[7].toNat < 2 ^ 44 ∧
  r < 2 ^ 37 ∧ field 12 3 ≤ 5 ∧ field 15 3 ≤ field 12 3 ∧ (field 18 5 + 1) * (4 * 2 ^ field 12 3) ≤ 128 ∧
  field 3 3 + field 9 3 + 1 ≤ 5 ∧ field 0 3 + field 6 3 + 1 ≤ 8 ∧ field 23 13 ≤ 6144
/-- The least that a request takes exceeds the share of its tenancy on the die (R331), or its fixed rectangle needs a retired core
(spec/18_ras.md R424). -/
def LeastExceeds (s : State) (e : Entry) : Prop :=
  let r := e.words[3].toNat
  let field (lo n : Nat) := r / 2 ^ lo % 2 ^ n
  let share := shareOf s e.ten e.die.val
  let cores := (field 9 3 + 1) * (field 6 3 + 1)
  share.maxCores.toNat < cores ∨ share.maxLanes.toNat < cores * (field 18 5 + 1) * (4 * 2 ^ field 15 3) ∨
  share.maxRows.toNat < cores * field 23 13 ∨
  (field 36 1 = 0 ∧ ∃ i j, i < field 9 3 + 1 ∧ j < field 6 3 + 1 ∧ 40 * e.die.val + 8 * (field 3 3 + i) + (field 0 3 + j) ∈ s.coresOut)
/-- dens(e), in units of 2^-24 WU per kiln cycle (R330). -/
def dens (w : Vector Word 8) : Nat := ceilDiv (w[5].toNat * 2 ^ 24) w[4].toNat
/-- The entries of the same tenancy and die that are admitted and not final. -/
def admittedWith (s : State) (e : Entry) : List Entry :=
  s.entries.filter (fun x => x.die.val == e.die.val && !x.state.final && x.ten == e.ten)
/-- The checks of R331 in their order, each with its code; an entry may be doomed by a reset while it was queued (R343), dropped by its
queue (R327), or lost with its slot. -/
def admissionChecks (s : State) (e : Entry) (doomed dropped lost : Bool) : List (Nat × Prop) :=
  [(7, (tenOf s e.ten.toNat).rst = true ∨ doomed = true), (6, dropped = true), (4, lost = true ∨ ¬ EntryWellFormed e.words),
   (5, e.words[5] = 0#64), (2, e.words[4].toNat < 6144), (3, LeastExceeds s e),
   (1, (shareOf s e.ten e.die.val).share.toNat < ((admittedWith s e).map (fun x => dens x.words)).sum + dens e.words)]
/-- The first check that fails gives its code; where none does, the entry is admitted. -/
def AdmissionAsR331 : Prop :=
  ∀ s e doomed dropped lost,
    let checks := admissionChecks s e doomed dropped lost
    (∀ c, rejectCode s e doomed dropped lost = some c ↔
      ∃ before p after, checks = before ++ (c, p) :: after ∧ p ∧ ∀ x ∈ before, ¬ x.2) ∧
    (rejectCode s e doomed dropped lost = none ↔ ∀ x ∈ checks, ¬ x.2)
/-- The pending decrements of an entry are applied in the order held (R329): its counter falls to 0 at most, and DEPUNDER says that one
found it 0. -/
def PendingApplied : Prop :=
  ∀ s q e, let u := applyPending s q e
    let held := ((queueOf s q).pending.filter (· == e.id.seq)).length
    u.2 = { e with counter := e.counter - held, depUnder := e.depUnder || decide (e.counter < held) } ∧
    ∀ x, x ∈ (queueOf u.1 q).pending ↔ x ∈ (queueOf s q).pending ∧ x ≠ e.id.seq

end Machine
end Sys2Proof

/-! ### Scalar integer instructions -/

/-- The forms of major 0x01 (spec/05_scalar_ops.md R104, R106) and of major 0x02 (R110, with the corners of spec/04_formats.md R80): each
completes, writes its result to rd and changes nothing else. -/
def Obligations.RegisterFormsWriteTheirResult : Prop :=
  (AluForm .add (fun a b => a + b) ∧
    AluForm .sub (fun a b => a - b) ∧
    AluForm .and (fun a b => a &&& b) ∧
    AluForm .andn (fun a b => a &&& ~~~b) ∧
    AluForm .or (fun a b => a ||| b) ∧
    AluForm .orn (fun a b => a ||| ~~~b) ∧
    AluForm .xor (fun a b => a ^^^ b) ∧
    AluForm .xnor (fun a b => ~~~(a ^^^ b)) ∧
    AluForm .sll (fun a b => BitVec.ofNat 64 (a.toNat * 2 ^ (b.toNat % 64))) ∧
    AluForm .srl (fun a b => BitVec.ofNat 64 (a.toNat / 2 ^ (b.toNat % 64))) ∧
    AluForm .sra (fun a b => BitVec.ofInt 64 (a.toInt / 2 ^ (b.toNat % 64))) ∧
    AluForm .rol (fun a b => a <<< (b.toNat % 64) ||| a >>> (64 - b.toNat % 64)) ∧
    AluForm .ror (fun a b => a >>> (b.toNat % 64) ||| a <<< (64 - b.toNat % 64)) ∧
    AluForm .min (fun a b => if a.toInt ≤ b.toInt then a else b) ∧
    AluForm .max (fun a b => if a.toInt ≤ b.toInt then b else a) ∧
    AluForm .minn (fun a b => if a.toNat ≤ b.toNat then a else b) ∧
    AluForm .maxn (fun a b => if a.toNat ≤ b.toNat then b else a) ∧
    AluForm .cmplt (fun a b => one (a.toInt < b.toInt)) ∧
    AluForm .cmpltn (fun a b => one (a.toNat < b.toNat)) ∧
    AluForm .cmpeq (fun a b => one (a = b)) ∧
    AluForm .addI32 (fun a b => low32 (a + b)) ∧
    AluForm .subI32 (fun a b => low32 (a - b)) ∧
    AluForm .sllI32 (fun a b => wide (half a <<< (b.toNat % 32))) ∧
    AluForm .srlI32 (fun a b => wide (half a >>> (b.toNat % 32))) ∧
    AluForm .sraI32 (fun a b => BitVec.ofInt 64 ((half a).toInt / 2 ^ (b.toNat % 32))) ∧
    AluForm .rolI32 (fun a b => wide (half a <<< (b.toNat % 32) ||| half a >>> (32 - b.toNat % 32))) ∧
    AluForm .rorI32 (fun a b => wide (half a >>> (b.toNat % 32) ||| half a <<< (32 - b.toNat % 32)))) ∧
  (AluForm .mul (fun a b => BitVec.ofNat 64 (a.toNat * b.toNat)) ∧
    AluForm .mulh (fun a b => BitVec.ofInt 64 (a.toInt * b.toInt / 2 ^ 64)) ∧
    AluForm .mulhu (fun a b => BitVec.ofNat 64 (a.toNat * b.toNat / 2 ^ 64)) ∧
    AluForm .mulhsu (fun a b => BitVec.ofInt 64 (a.toInt * b.toNat / 2 ^ 64)) ∧
    AluForm .mulI32 (fun a b => low32 (a * b)) ∧
    AluForm .div quoS ∧ AluForm .divu quoU ∧ AluForm .rem remS ∧ AluForm .remu remU ∧
    AluForm .divI32 (fun a b => wide (quoS (half a) (half b))) ∧
    AluForm .divuI32 (fun a b => wide (quoU (half a) (half b))) ∧
    AluForm .remI32 (fun a b => wide (remS (half a) (half b))) ∧
    AluForm .remuI32 (fun a b => wide (remU (half a) (half b))))

/-- R107: the immediate forms and their words. -/
def Obligations.ImmediateFormsWriteTheirResult : Prop :=
  ImmForm .addi (fun a i => BitVec.ofInt 64 (a.toInt + i)) ∧
  ImmForm .andi (fun a i => a &&& BitVec.ofInt 64 i) ∧
  ImmForm .ori (fun a i => a ||| BitVec.ofInt 64 i) ∧
  ImmForm .xori (fun a i => a ^^^ BitVec.ofInt 64 i) ∧
  ImmForm .cmplti (fun a i => one (a.toInt < i)) ∧
  ImmForm .cmpltni (fun a i => one (a.toNat < (BitVec.ofInt 64 i).toNat)) ∧
  ImmForm .addiI32 (fun a i => low32 (a + BitVec.ofInt 64 i)) ∧
  (∀ (d a : Reg) (n : Fin 16384),
    encode (.addi d a n) = 0x04 * 2 ^ 24 + d.val * 2 ^ 19 + a.val * 2 ^ 14 + n.val ∧
    encode (.andi d a n) = 0x05 * 2 ^ 24 + d.val * 2 ^ 19 + a.val * 2 ^ 14 + n.val ∧
    encode (.ori d a n) = 0x06 * 2 ^ 24 + d.val * 2 ^ 19 + a.val * 2 ^ 14 + n.val ∧
    encode (.xori d a n) = 0x07 * 2 ^ 24 + d.val * 2 ^ 19 + a.val * 2 ^ 14 + n.val ∧
    encode (.cmplti d a n) = 0x08 * 2 ^ 24 + d.val * 2 ^ 19 + a.val * 2 ^ 14 + n.val ∧
    encode (.cmpltni d a n) = 0x09 * 2 ^ 24 + d.val * 2 ^ 19 + a.val * 2 ^ 14 + n.val ∧
    encode (.addiI32 d a n) = 0x0A * 2 ^ 24 + d.val * 2 ^ 19 + a.val * 2 ^ 14 + n.val)

/-- The immediate shifts (R108), and the upper-immediate forms with their words (R109). -/
def Obligations.ShiftAndUpperImmediateFormsWriteTheirResult : Prop :=
  (∀ s d a n, Gives (.slli d a n) [a] s d (BitVec.ofNat 64 ((getG s.me a).toNat * 2 ^ n.val)) 0#5) ∧
  (∀ s d a n, Gives (.srli d a n) [a] s d (BitVec.ofNat 64 ((getG s.me a).toNat / 2 ^ n.val)) 0#5) ∧
  (∀ s d a n, Gives (.srai d a n) [a] s d (BitVec.ofInt 64 ((getG s.me a).toInt / 2 ^ n.val)) 0#5) ∧
  (∀ s d a n, Gives (.rori d a n) [a] s d (getG s.me a >>> n.val ||| getG s.me a <<< (64 - n.val)) 0#5) ∧
  (∀ s d a n, Gives (.slliI32 d a n) [a] s d (wide (half (getG s.me a) <<< n.val)) 0#5) ∧
  (∀ s d a n, Gives (.srliI32 d a n) [a] s d (wide (half (getG s.me a) >>> n.val)) 0#5) ∧
  (∀ s d a n, Gives (.sraiI32 d a n) [a] s d (BitVec.ofInt 64 ((half (getG s.me a)).toInt / 2 ^ n.val)) 0#5) ∧
  (∀ s d n, Gives (.lui d n) [] s d (BitVec.ofInt 64 (simm19 n * 2 ^ 14)) 0#5) ∧
  (∀ s d n, Gives (.lhi d n) [d] s d (BitVec.ofNat 64 (n.val * 2 ^ 45 + (getG s.me d).toNat % 2 ^ 45)) 0#5) ∧
  (∀ s d n, Gives (.auipc d n) [] s d (s.me.pc + BitVec.ofInt 64 (simm19 n * 2 ^ 14)) 0#5) ∧
  (∀ (d : Reg) (n : Fin 524288),
    encode (.lui d n) = 0x0C * 2 ^ 24 + d.val * 2 ^ 19 + n.val ∧
    encode (.lhi d n) = 0x0D * 2 ^ 24 + d.val * 2 ^ 19 + n.val ∧
    encode (.auipc d n) = 0x0E * 2 ^ 24 + d.val * 2 ^ 19 + n.val)

/-- The bit-manipulation forms (R111): each completes and writes its result to rd. A count of leading or trailing zeros is
said by the one bit it stands at. -/
def Obligations.BitManipulationFormsWriteTheirResult : Prop :=
  (∀ s d a, ∃ c, IsClz 64 (getG s.me a).toNat c ∧ Gives (.clz d a) [a] s d (BitVec.ofNat 64 c) 0#5) ∧
  (∀ s d a, ∃ c, IsCtz 64 (getG s.me a).toNat c ∧ Gives (.ctz d a) [a] s d (BitVec.ofNat 64 c) 0#5) ∧
  (∀ s d a, ∃ c, IsClz 32 ((getG s.me a).toNat % 2 ^ 32) c ∧ Gives (.clzw d a) [a] s d (BitVec.ofNat 64 c) 0#5) ∧
  (∀ s d a, ∃ c, IsCtz 32 ((getG s.me a).toNat % 2 ^ 32) c ∧ Gives (.ctzw d a) [a] s d (BitVec.ofNat 64 c) 0#5) ∧
  UnForm .popc (fun a => BitVec.ofNat 64 ((List.range 64).filter (fun j => a.getLsbD j)).length) ∧
  UnForm .popcw (fun a => BitVec.ofNat 64 ((List.range 32).filter (fun j => a.getLsbD j)).length) ∧
  (∀ s d a, ∃ v : Word, (∀ k j, k < 8 → j < 8 → v.getLsbD (8 * k + j) = (getG s.me a).getLsbD (8 * (7 - k) + j)) ∧
    Gives (.rev8 d a) [a] s d v 0#5) ∧
  (∀ s d a, ∃ v : Word, (∀ j, j < 64 → v.getLsbD (63 - j) = (getG s.me a).getLsbD j) ∧ Gives (.brev d a) [a] s d v 0#5) ∧
  UnForm .sextb (fun a => BitVec.ofInt 64 (BitVec.ofNat 8 a.toNat).toInt) ∧
  UnForm .sexth (fun a => BitVec.ofInt 64 (BitVec.ofNat 16 a.toNat).toInt) ∧
  UnForm .sextw low32 ∧
  UnForm .zextb (fun a => BitVec.ofNat 64 (a.toNat % 2 ^ 8)) ∧
  UnForm .zexth (fun a => BitVec.ofNat 64 (a.toNat % 2 ^ 16)) ∧
  UnForm .zextw (fun a => BitVec.ofNat 64 (a.toNat % 2 ^ 32))

/-! ### Scalar memory (spec/10_memory.md R217, R218; spec/12_atomics_engines.md R255) -/

/-- R217: the scalar loads and stores and their words. -/
def Obligations.LoadsAndStoresMoveTheirBytes : Prop :=
  (∀ s a m, effAddr s a m = BitVec.ofInt 64 ((getG s.me a).toInt + simm m)) ∧
  LoadForm .lb 1 (fun v => BitVec.ofInt 64 (BitVec.ofNat 8 v).toInt) ∧
  LoadForm .lbu 1 (BitVec.ofNat 64) ∧
  LoadForm .lh 2 (fun v => BitVec.ofInt 64 (BitVec.ofNat 16 v).toInt) ∧
  LoadForm .lhu 2 (BitVec.ofNat 64) ∧
  LoadForm .lw 4 (fun v => BitVec.ofInt 64 (BitVec.ofNat 32 v).toInt) ∧
  LoadForm .lwu 4 (BitVec.ofNat 64) ∧
  LoadForm .ld 8 (BitVec.ofNat 64) ∧
  StoreForm .sb 1 ∧ StoreForm .sh 2 ∧ StoreForm .sw 4 ∧ StoreForm .sd 8 ∧
  (∀ (d a : Reg) (n : Fin 16384),
    encode (.lb d a n) = 0x10 * 2 ^ 24 + d.val * 2 ^ 19 + a.val * 2 ^ 14 + n.val ∧
    encode (.lbu d a n) = 0x11 * 2 ^ 24 + d.val * 2 ^ 19 + a.val * 2 ^ 14 + n.val ∧
    encode (.lh d a n) = 0x12 * 2 ^ 24 + d.val * 2 ^ 19 + a.val * 2 ^ 14 + n.val ∧
    encode (.lhu d a n) = 0x13 * 2 ^ 24 + d.val * 2 ^ 19 + a.val * 2 ^ 14 + n.val ∧
    encode (.lw d a n) = 0x14 * 2 ^ 24 + d.val * 2 ^ 19 + a.val * 2 ^ 14 + n.val ∧
    encode (.lwu d a n) = 0x15 * 2 ^ 24 + d.val * 2 ^ 19 + a.val * 2 ^ 14 + n.val ∧
    encode (.ld d a n) = 0x16 * 2 ^ 24 + d.val * 2 ^ 19 + a.val * 2 ^ 14 + n.val ∧
    encode (.sb d a n) = 0x18 * 2 ^ 24 + d.val * 2 ^ 19 + a.val * 2 ^ 14 + n.val ∧
    encode (.sh d a n) = 0x19 * 2 ^ 24 + d.val * 2 ^ 19 + a.val * 2 ^ 14 + n.val ∧
    encode (.sw d a n) = 0x1A * 2 ^ 24 + d.val * 2 ^ 19 + a.val * 2 ^ 14 + n.val ∧
    encode (.sd d a n) = 0x1B * 2 ^ 24 + d.val * 2 ^ 19 + a.val * 2 ^ 14 + n.val)

/-- What every address names, and what stops an access to it (spec/10_memory.md R207-R216; spec/16_isolation.md R357-R365, R369): for a
hart and a control core, a scalar and a vector access; a hart's access lands inside its own address space. And scalar accesses that
stop (R218, R389), the loads, the stores, the ten atomics and `wait`: a misaligned address traps `ALIGN` with the address, and one that
does not translate takes the fault of its translation, with none of the instruction's effect. The place of the grant row among the
checks (log 13), and `XVAL` of an offset that is no 64-bit number (log 45), are the model's readings. -/
def Obligations.MisplacedAccessesTrap : Prop :=
  (∀ s d a m,
    AccessStops (.lb d a m) [a] 1 .read (effAddr s a m) s ∧ AccessStops (.lbu d a m) [a] 1 .read (effAddr s a m) s ∧
    AccessStops (.lh d a m) [a] 2 .read (effAddr s a m) s ∧ AccessStops (.lhu d a m) [a] 2 .read (effAddr s a m) s ∧
    AccessStops (.lw d a m) [a] 4 .read (effAddr s a m) s ∧ AccessStops (.lwu d a m) [a] 4 .read (effAddr s a m) s ∧
    AccessStops (.ld d a m) [a] 8 .read (effAddr s a m) s ∧
    AccessStops (.sb d a m) [a, d] 1 .write (effAddr s a m) s ∧ AccessStops (.sh d a m) [a, d] 2 .write (effAddr s a m) s ∧
    AccessStops (.sw d a m) [a, d] 4 .write (effAddr s a m) s ∧ AccessStops (.sd d a m) [a, d] 8 .write (effAddr s a m) s) ∧
  (∀ s d a b o,
    (∀ i ∈ [Instr.amoswap, .amoadd, .amoand, .amoor, .amoxor, .amomin, .amomax, .amominu, .amomaxu],
      AccessStops (i d a b 0 o) [a, b] 4 .both (getG s.me a) s ∧ AccessStops (i d a b 1 o) [a, b] 8 .both (getG s.me a) s) ∧
    AccessStops (.amocas d a b 0 o) [a, b, d] 4 .both (getG s.me a) s ∧
    AccessStops (.amocas d a b 1 o) [a, b, d] 8 .both (getG s.me a) s ∧
    AccessStops (.wait d a b) [a, b] 8 .read (getG s.me a) s) ∧
  (∀ s c acc va, Lands s c acc va (resolve s c acc va)) ∧
  (∀ s c h acc va l, c.hart = some h → c.isCc = false → resolve s c acc va = .ok l → InsideSpace s c h acc va l) ∧
  (∀ s c acc a space dir, LandsUnder s c space dir acc a (resolveAt s c space dir acc a)) ∧
  (∀ s h acc va, s.me.id = .hart h → resolveScalar s acc va = resolve s
    { unit := .scalar (.hart h), mode := s.me.mode, asid := s.me.asid.toNat, root := (aspOf s s.me.asid.toNat).root.toNat
      hart := some h, task := s.me.task, cid := none, isCc := false } acc va) ∧
  (∀ s h, s.me.id = .hart h → vectorCtx s =
    { unit := .vector h, mode := s.me.mode, asid := s.me.asid.toNat, root := (aspOf s s.me.asid.toNat).root.toNat
      hart := some h, task := s.me.task, cid := none, isCc := false }) ∧
  (∀ s n acc va, s.me.id = .cc n →
    (s.me.mode = .m ∨ s.me.cc.rootOn = false → LandsPhysical s s.me.mode acc va (resolveScalar s acc va)) ∧
    (s.me.mode ≠ .m → s.me.cc.rootOn = true → resolveScalar s acc va = resolve s
      { unit := .scalar (.cc n), mode := s.me.mode, asid := s.me.cc.asid.toNat, root := s.me.cc.root.toNat
        hart := none, task := none, cid := none, isCc := true } acc va))

/-- The atomics (R255): the old value, sign-extended, goes to rd, and the new value to memory in the same step. -/
def Obligations.AtomicsReadAndWriteInOneStep : Prop :=
  AtomicForm .amoswap (fun _ a b => [a, b]) (fun _ _ v _ => some v) ∧
  AtomicForm .amoadd (fun _ a b => [a, b]) (fun _ x v _ => some (x + v)) ∧
  AtomicForm .amoand (fun _ a b => [a, b]) (fun _ x v _ => some (x &&& v)) ∧
  AtomicForm .amoor (fun _ a b => [a, b]) (fun _ x v _ => some (x ||| v)) ∧
  AtomicForm .amoxor (fun _ a b => [a, b]) (fun _ x v _ => some (x ^^^ v)) ∧
  AtomicForm .amomin (fun _ a b => [a, b]) (fun _ x v _ => some (if x.toInt ≤ v.toInt then x else v)) ∧
  AtomicForm .amomax (fun _ a b => [a, b]) (fun _ x v _ => some (if x.toInt ≤ v.toInt then v else x)) ∧
  AtomicForm .amominu (fun _ a b => [a, b]) (fun _ x v _ => some (if x.toNat ≤ v.toNat then x else v)) ∧
  AtomicForm .amomaxu (fun _ a b => [a, b]) (fun _ x v _ => some (if x.toNat ≤ v.toNat then v else x)) ∧
  AtomicForm .amocas (fun d a b => [a, b, d]) (fun _ x v c => if x = c then some v else none)

/-! ### Branches and jumps (spec/05_scalar_ops.md R120-R122) -/

/-- The branches and jumps. -/
def Obligations.BranchesAndJumpsMoveThePc : Prop :=
  BranchForm .beq (fun a b => a = b) ∧ BranchForm .bne (fun a b => a ≠ b) ∧
  BranchForm .blt (fun a b => a.toInt < b.toInt) ∧ BranchForm .bge (fun a b => b.toInt ≤ a.toInt) ∧
  BranchForm .bltu (fun a b => a.toNat < b.toNat) ∧ BranchForm .bgeu (fun a b => b.toNat ≤ a.toNat) ∧
  (∀ s d n, let target := s.me.pc + BitVec.ofInt 64 (4 * simm19 n)
    (target.toNat % 4 = 0 → exec (.jal d n) s = .next (setPc (wr s d (s.me.pc + 4#64)) target)) ∧
    (target.toNat % 4 ≠ 0 → Traps (.jal d n) s cAlign target)) ∧
  (∀ s d a n, let target := BitVec.ofInt 64 ((getG s.me a).toInt + simm n)
    Clean s [a] →
    (target.toNat % 4 = 0 → exec (.jalr d a n) s = .next (setPc (wr s d (s.me.pc + 4#64)) target)) ∧
    (target.toNat % 4 ≠ 0 → Traps (.jalr d a n) s cAlign target))

/-! ### Scalar floating point (spec/05_scalar_ops.md R112-R117) -/

/-- The forms of f32 and f64 that round: sums, products, quotients, square roots and the fused forms (R112-R114). On finite
operands each rounds its exact result once, and raises the flags of that rounding (spec/04_formats.md R89, R90); what infinities, NaNs, a
zero divisor and a negative root give is said on the codes (R95). That an infinity where R95 has no row gives its limit is the model's
reading (log 51). -/
def Obligations.FloatArithmeticRoundsOnce : Prop :=
  (∀ t ∈ [8, 9], RoundsOnce (fmtOf t) ∧ SpecialsOf (fmtOf t)) ∧
  RoundForm .faddF32 (fmtOf 9) (addV (fmtOf 9)) ∧
  RoundForm .fsubF32 (fmtOf 9) (fun m x y => addV (fmtOf 9) m x y.neg) ∧
  RoundForm .fmulF32 (fmtOf 9) (mulV (fmtOf 9)) ∧
  RoundForm .fdivF32 (fmtOf 9) (divV (fmtOf 9)) ∧
  RoundForm .faddF64 (fmtOf 8) (addV (fmtOf 8)) ∧
  RoundForm .fsubF64 (fmtOf 8) (fun m x y => addV (fmtOf 8) m x y.neg) ∧
  RoundForm .fmulF64 (fmtOf 8) (mulV (fmtOf 8)) ∧
  RoundForm .fdivF64 (fmtOf 8) (divV (fmtOf 8)) ∧
  ConvertForm .fsqrtF32 (fun m x => let r := sqrtV (fmtOf 9) m (valIn (fmtOf 9) x); (BitVec.ofNat 64 r.1, r.2)) ∧
  ConvertForm .fsqrtF64 (fun m x => let r := sqrtV (fmtOf 8) m (valIn (fmtOf 8) x); (BitVec.ofNat 64 r.1, r.2)) ∧
  (∀ s d a b c rm, RmOk rm → ∀ ty : Fin 2,
    let F := fmtOf (if ty = 0 then 9 else 8)
    let x := num F s a
    let y := num F s b
    let z := num F s c
    let m := modeFor s rm
    Gives (.fmadd d a b c rm ty) [a, b, c] s d (BitVec.ofNat 64 (fmaV F m false x y z).1) (fmaV F m false x y z).2 ∧
    Gives (.fmsub d a b c rm ty) [a, b, c] s d (BitVec.ofNat 64 (fmaV F m false x y z.neg).1) (fmaV F m false x y z.neg).2 ∧
    Gives (.fnmadd d a b c rm ty) [a, b, c] s d (BitVec.ofNat 64 (fmaV F m true x y z.neg).1) (fmaV F m true x y z.neg).2 ∧
    Gives (.fnmsub d a b c rm ty) [a, b, c] s d (BitVec.ofNat 64 (fmaV F m true x y z).1) (fmaV F m true x y z).2)

/-- The forms of f32 and f64 that do not round: signs, lesser and greater, compares, classes (R112, R113, R115), with
what they give for NaNs and zeros, and its flags, from the codes (spec/04_formats.md R95). -/
def Obligations.FloatFormsThatDoNotRound : Prop :=
  (∀ F ∈ [(9, Instr.fsgnjF32, Instr.fsgnjnF32, Instr.fsgnjxF32), (8, Instr.fsgnjF64, Instr.fsgnjnF64, Instr.fsgnjxF64)],
    CodeForm F.2.1 (fmtOf F.1) (fun x y => (resign (fmtOf F.1) x (topBit (fmtOf F.1) y), 0#5)) ∧
    CodeForm F.2.2.1 (fmtOf F.1) (fun x y => (resign (fmtOf F.1) x (1 + topBit (fmtOf F.1) y), 0#5)) ∧
    CodeForm F.2.2.2 (fmtOf F.1) (fun x y => (resign (fmtOf F.1) x (topBit (fmtOf F.1) x + topBit (fmtOf F.1) y), 0#5))) ∧
  CodeForm .fminF32 (fmtOf 9) (chosen (fmtOf 9) false) ∧ CodeForm .fmaxF32 (fmtOf 9) (chosen (fmtOf 9) true) ∧
  CodeForm .fminF64 (fmtOf 8) (chosen (fmtOf 8) false) ∧ CodeForm .fmaxF64 (fmtOf 8) (chosen (fmtOf 8) true) ∧
  (∀ F ∈ [(9, Instr.feqF32, Instr.fltF32, Instr.fleF32), (8, Instr.feqF64, Instr.fltF64, Instr.fleF64)],
    CodeForm F.2.1 (fmtOf F.1) (fun x y => let r := compared (fmtOf F.1) 0 x y; (if r.1 then 1 else 0, r.2)) ∧
    CodeForm F.2.2.1 (fmtOf F.1) (fun x y => let r := compared (fmtOf F.1) 2 x y; (if r.1 then 1 else 0, r.2)) ∧
    CodeForm F.2.2.2 (fmtOf F.1) (fun x y => let r := compared (fmtOf F.1) 3 x y; (if r.1 then 1 else 0, r.2))) ∧
  UnForm .fclassF32 (fun x => BitVec.ofNat 64 (classOf 8 23 (x.toNat % 2 ^ 32))) ∧
  UnForm .fclassF64 (fun x => BitVec.ofNat 64 (classOf 11 52 x.toNat))

/-- The conversions (R116, R117): an integer source is read by its width and signedness and rounded; an integer result is
extended by its own; a float source is rounded into the other format. What `roundTo`, `toFmt` and `toInt` give is said by the
exact value, rounded once, in every format (spec/04_formats.md R89, R90). -/
def Obligations.ConversionsRoundOnce : Prop :=
  (∀ t, 8 ≤ t → t ≤ 16 → ∀ (m : RMode) (neg : Bool) (n : Nat) (e : Int), m.bits < 2 ^ 32 →
    Rounded (fmtOf t) m neg (n * 2 ^ e) (roundTo (fmtOf t) m neg n e false)) ∧
  (∀ t, 8 ≤ t → t ≤ 16 → ∀ (m : RMode) (a : FVal), let F := fmtOf t
    (m.bits < 2 ^ 32 → a.finite = true → Rounded F m a.isNeg ((|a.q| : ℚ) : ℝ) (toFmt F m a)) ∧
    (∀ s, a = .inf s → toFmt F m a = if F.spec = .ieee then (F.sign s F.infCode, 0#5) else (F.sign s F.maxCode, fNV)) ∧
    (∀ q, a = .nan q → toFmt F m a = if F.spec = .none then (0, fNV) else (F.nan, if q then fNV else 0#5))) ∧
  (∀ sg w m a, 0 < w → m.bits < 2 ^ 32 → ToInteger sg w m a (toInt sg w m a)) ∧
  (∀ c ∈ [(Instr.fcvtF32I32, true, 32, 9), (Instr.fcvtF32N32, false, 32, 9), (Instr.fcvtF32I64, true, 64, 9),
      (Instr.fcvtF32N64, false, 64, 9), (Instr.fcvtF64I32, true, 32, 8), (Instr.fcvtF64N32, false, 32, 8),
      (Instr.fcvtF64I64, true, 64, 8), (Instr.fcvtF64N64, false, 64, 8)],
    ConvertForm c.1 (fun m x =>
      let v : Int := if c.2.1 then (BitVec.ofNat c.2.2.1 x.toNat).toInt else (x.toNat % 2 ^ c.2.2.1 : Nat)
      let r := roundTo (fmtOf c.2.2.2) m (decide (v < 0)) v.natAbs 0 false
      (BitVec.ofNat 64 r.1, r.2))) ∧
  (∀ c ∈ [(Instr.fcvtI32F32, true, 32, 9), (Instr.fcvtN32F32, false, 32, 9), (Instr.fcvtI64F32, true, 64, 9),
      (Instr.fcvtN64F32, false, 64, 9), (Instr.fcvtI32F64, true, 32, 8), (Instr.fcvtN32F64, false, 32, 8),
      (Instr.fcvtI64F64, true, 64, 8), (Instr.fcvtN64F64, false, 64, 8)],
    ConvertForm c.1 (fun m x =>
      let r := toInt c.2.1 c.2.2.1 m (valIn (fmtOf c.2.2.2) x)
      (if c.2.1 then BitVec.ofInt 64 (BitVec.ofNat c.2.2.1 r.1).toInt else BitVec.ofNat 64 (r.1 % 2 ^ c.2.2.1), r.2))) ∧
  (∀ c ∈ [(Instr.fcvtF32F64, 9, 8), (Instr.fcvtF64F32, 8, 9), (Instr.fcvtF32Bf16, 9, 10), (Instr.fcvtBf16F32, 10, 9),
      (Instr.fcvtF32F16, 9, 11), (Instr.fcvtF16F32, 11, 9), (Instr.fcvtF64F16, 8, 11), (Instr.fcvtF16F64, 11, 8)],
    ConvertForm c.1 (fun m x =>
      let r := toFmt (fmtOf c.2.1) m (valIn (fmtOf c.2.2) x)
      (BitVec.ofNat 64 r.1, r.2)))

/-- Rounding a value that its format holds gives that value's code and raises no flag, in every mode (spec/04_formats.md
R89), whatever its 32 random bits are (R93): for the finite codes of f64, f32, bf16 and f16. -/
def Obligations.RoundingIsExactOnRepresentableValues : Prop :=
  ∀ t ∈ [8, 9, 10, 11], ∀ m : RMode, m.bits < 2 ^ 32 → ∀ c : Nat, c < 2 ^ (fmtOf t).width →
    c / 2 ^ (fmtOf t).f % 2 ^ (fmtOf t).eb ≠ 2 ^ (fmtOf t).eb - 1 →
    toFmt (fmtOf t) m (unpack (fmtOf t) c) = (c, 0#5)

/-! ### Control and status registers (spec/05_scalar_ops.md R118; spec/02_encoding.md R49) -/

/-- The seven csr instructions (R118): what they read and write, and that a write of `FFLAGS` waits for a run (R119); and a register that the agent's mode does not reach, or a number
that names none, traps `ILLEGAL` with the word, whichever form names it (spec/02_encoding.md R49). -/
def Obligations.CsrInstructionsReadWriteOrTrap : Prop :=
  ((∀ s d (n : Fin 4096), CsrReady s n.val [] →
      exec (.csrld d n) s = .next (setPc (wr (csrState s n.val) d (readCsr (csrState s n.val) n.val)) (s.me.pc + 4#64))) ∧
    (∀ s d a (n : Fin 4096),
      CsrForm (.csrst d a n) [a] s d n.val (fun _ => getG s.me a) true ∧
      CsrForm (.csrbset d a n) [a] s d n.val (fun old => old ||| getG s.me a) false ∧
      CsrForm (.csrbclr d a n) [a] s d n.val (fun old => old &&& ~~~(getG s.me a)) false) ∧
    (∀ s d (u : Fin 32) (n : Fin 4096),
      CsrForm (.csrsti d u n) [] s d n.val (fun _ => BitVec.ofNat 64 u.val) true ∧
      CsrForm (.csrbseti d u n) [] s d n.val (fun old => old ||| BitVec.ofNat 64 u.val) false ∧
      CsrForm (.csrbclri d u n) [] s d n.val (fun old => old &&& ~~~(BitVec.ofNat 64 u.val)) false)) ∧
  (∀ (s : State) (d a : Reg) (u : Fin 32) (n : Fin 4096), csrOk s.me n.val = false →
      Traps (.csrld d n) s cIllegal (BitVec.ofNat 64 (0x50000000 + d.val * 2 ^ 19 + n.val * 2 ^ 2)) ∧
      ∀ i ∈ [Instr.csrst d a n, .csrbset d a n, .csrbclr d a n, .csrsti d u n, .csrbseti d u n, .csrbclri d u n],
        Traps i s cIllegal (BitVec.ofNat 64 (encode i)))

/-- What a write of `VSTART`, `MTYPE`, `RMODE`, `FFLAGS`, `SRSEED`, `XPC`, `XCAUSE`, `XVAL` or `XSTAT` leaves it to read, in full or
of the RW fields alone (R118; spec/04_formats.md R91, R97; spec/10_memory.md R214; spec/17_traps.md R388, R396), that on this part no
such write traps, and that no other special register, no general register, no PC and no memory changes; the same of `VL` (spec/06_vector_arith.md R125), of `BUDGET` (spec/14_harts_kiln.md R336, R338), and of a control core's
own registers (spec/16_isolation.md R369, R370); and that a write of a read-only register has no effect (spec/00_scope.md R7). -/
def Obligations.SpecialRegisterWritesReadBack : Prop :=
  (∀ (s : State) (x : Word) full, ∀ n ∈ [2, 3, 4, 5, 6, 0x40, 0x41, 0x42, 0x43], ∃ t, storeCsr s n x full = .ok t) ∧
  (∀ (s t : State) (n : Nat) (x : Word) full, n ∈ [2, 3, 4, 5, 6, 0x40, 0x41, 0x42, 0x43] → storeCsr s n x full = .ok t →
    let fof := if s.me.fof = true ∧ ¬ (full = true ∧ x.toNat / 64 % 2 = 1) then 64 else 0
    (n = 2 → readCsr t n = BitVec.ofNat 64 (x.toNat % 2 ^ 17)) ∧
    (n = 3 → readCsr t n = BitVec.ofNat 64 (x.toNat % 16)) ∧
    (n = 4 → readCsr t n = if x.toNat % 8 ≤ 5 then BitVec.ofNat 64 (x.toNat % 8) else 0#64) ∧
    (n = 5 → readCsr t n = BitVec.ofNat 64 (x.toNat % 32)) ∧
    (n = 6 → readCsr t n = x) ∧
    (n = 0x40 → readCsr t n = x &&& ~~~3#64) ∧
    (n = 0x41 → readCsr t n = x &&& 0x80000000000000FF#64) ∧
    (n = 0x42 → readCsr t n = x) ∧
    (n = 0x43 → isHart s.me = true →
      readCsr t n = BitVec.ofNat 64 ((x.toNat / 128 % 2) * 128 + fof + min (x.toNat % 4) 1)) ∧
    (n = 0x43 → isHart s.me = false →
      readCsr t n = BitVec.ofNat 64 ((x.toNat / 128 % 2) * 128 + fof + (if x.toNat % 4 = 2 then 0 else x.toNat % 4))) ∧
    (∀ m, m ≠ n → readCsr t m = readCsr s m) ∧
    t.me.g = s.me.g ∧ t.me.pc = s.me.pc ∧ t.mem = s.mem ∧ t.others = s.others) ∧
  (∀ (s : State) (x : Word) full, let ty := x.toNat / 2 ^ 24 % 32
    (22 ≤ ty → storeCsr s 0 x full = .error (Trap.sync cFeature (BitVec.ofNat 64 (128 + ty)))) ∧
    (ty < 22 → ∃ t, storeCsr s 0 x full = .ok t ∧
      readCsr t 0 = BitVec.ofNat 64 (ty * 2 ^ 24 + min (x.toNat % 2 ^ 17) (s.me.nlanes.toNat * 2048 / elemW ty)) ∧
      (s.me.nlanes = s.me.lanes → s.me.nfirst = s.me.first →
        t = { s with me := { s.me with vec := { s.me.vec with vlTy := t.me.vec.vlTy, vlLen := t.me.vec.vlLen } } }))) ∧
  (∀ (s : State) n (x : Word) full,
    n ∈ [1, 7, 8, 0x10, 0x11, 0x12, 0x21, 0x22, 0x23, 0x800, 0xF00, 0xF01, 0xF02, 0xF03, 0xF04] → storeCsr s n x full = .ok s) ∧
  (∀ s, readCsr s 0x23 = BitVec.ofNat 64 (s.me.srcq.toNat * 2 ^ 48 + s.me.seq.toNat) ∧
    (∀ n, s.me.id = .cc n → readCsr s 0x800 = BitVec.ofNat 64 n.val ∧ readCsr s 0x22 = 0#64)) ∧
  (∀ (s : State) (x : Word) full,
    let shown (e : Entry) := BitVec.ofNat 64 ((if e.ext then 2 ^ 63 else 0) + min (e.left / 128) (2 ^ 48 - 1))
    let open_ (e : Entry) := full = true ∧ s.me.mode = .s ∧ s.me.overrun = false ∧ e.exhausted = true ∧ e.ext = false ∧
      ∃ h, s.me.id = .hart h ∧ e.target = some h
    (∀ e, s.me.task.bind (entryOf s) = some e → readCsr s 0x20 = shown e ∧
      (¬ open_ e → storeCsr s 0x20 x full = .ok s) ∧
      (open_ e → ∃ t, storeCsr s 0x20 x full = .ok t ∧ t = { s with entries := t.entries } ∧
        readCsr t 0x20 = shown { e with ext := true
                                        left := 128 * min (x.toNat % 2 ^ 48) (tenOf s e.ten.toNat).extlim.toNat - e.overdraft } ∧
        ∀ m, m ≠ 0x20 → readCsr t m = readCsr s m)) ∧
    (s.me.task.bind (entryOf s) = none → readCsr s 0x20 = 0#64 ∧ storeCsr s 0x20 x full = .ok s)) ∧
  (∀ (s t : State) n (x : Word) full, n ∈ [0x801, 0x802, 0x803, 0x810] ∨ (0x818 ≤ n ∧ n ≤ 0x81F) → storeCsr s n x full = .ok t →
    (n = 0x801 → readCsr t n = if s.me.mode = .m then x else readCsr s n) ∧
    (n = 0x802 → readCsr t n = x &&& 0x800FFFFFFFFFFFFF#64) ∧
    (n = 0x803 → readCsr t n = x &&& 1#64) ∧
    (n = 0x810 → readCsr t n = x &&& 0xF0000000FFFFFFFF#64) ∧
    (0x818 ≤ n → readCsr t n = x) ∧
    (∀ m, m ≠ n → readCsr t m = readCsr s m) ∧ t = { s with me := { s.me with cc := t.me.cc } }) ∧
  (∀ (s : State) (x : Word) full, let r := command s (x.toNat % 256)
    ∃ t, storeCsr s 0x811 x full = .ok t ∧ readCsr t 0x811 = BitVec.ofNat 64 (r.2.1 * 256 + x.toNat % 256) ∧
      (∀ i : Fin 8, readCsr t (0x818 + i.val) = r.2.2[i]) ∧ t = { r.1 with me := { r.1.me with cc := t.me.cc } })

/-! ### Traps and system instructions (spec/17_traps.md) -/

/-- The trap updates of R391: for a hart in U mode, the tenancy's handler in S mode, unless the trap is a page fault that is no
run report; for a control core, M mode at LOAD + 0x100 (R392). Nothing else changes. A hart parks (spec/16_isolation.md R367;
R391) on a page fault that is no run report, or on any trap in S mode: its trap registers, mode and PC stay, and it waits on a
new record of its tenancy: PAGE (kind 1), or HFAULT (kind 2), with the cause in byte 2. -/
def Obligations.TrapsEnterTheHandlerOrPark : Prop :=
  (∀ (s : State) (h : HartId) (t : Trap), s.me.id = .hart h → s.me.mode = .u → (t.cause ≠ cPfault ∨ t.runrep = true) →
      s.me.pc.toNat % 4 = 0 →
      takeTrap s t = { s with me := { s.me with
        xpc := s.me.pc, xasync := t.async, xcause := BitVec.ofNat 8 t.cause, xval := t.xval,
        runrep := t.runrep, pm := 0#2, mode := .s, pc := (tenOf s s.me.ten.toNat).htvec } }) ∧
  (∀ (s : State) (n : Fin 32) (t : Trap), s.me.id = .cc n → s.me.pc.toNat % 4 = 0 →
      takeTrap s t = { s with me := { s.me with
        xpc := s.me.pc, xasync := t.async, xcause := BitVec.ofNat 8 t.cause, xval := t.xval, runrep := t.runrep,
        pm := (match s.me.mode with | .u => 0#2 | .s => 1#2 | .m => 3#2), mode := .m, pc := s.ccLoad + 0x100#64 } }) ∧
  (∀ (s : State) (h : HartId) (t : Trap), s.me.id = .hart h → t.cause < 256 →
    (t.cause = cPfault ∧ t.runrep = false ∨ s.me.mode = .s) →
    let page := decide (t.cause = cPfault ∧ t.runrep = false)
    ∃ u token, takeTrap s t = u ∧ u.me = { s.me with status := .parked token page } ∧
      ∃ r ∈ u.records, r.token = token ∧ r.ten = s.me.ten ∧ r.answered = none ∧
        r.words[0].toNat % 2 ^ 16 = (if page then 1 else 2) ∧ r.words[0].toNat / 2 ^ 16 % 256 = t.cause)

/-- R407: `ecall` and `ebreak`. In U mode the handler sees the word's address and zero; in S mode the hart parks with an HFAULT
record. -/
def Obligations.EcallAndEbreakTrap : Prop :=
  ∀ (s : State) (i : Instr) (c : Nat), (i = .ecall ∧ c = 16 ∨ i = .ebreak ∧ c = 17) →
    Traps i s c 0#64 ∧
    (∀ h, s.me.id = .hart h → s.me.mode = .u → s.me.pc.toNat % 4 = 0 →
      ∃ t, exec i s = .next t ∧ t.me.xpc = s.me.pc ∧ t.me.xval = 0#64 ∧ t.me.xcause.toNat = c ∧ t.me.xasync = false ∧
        t.me.mode = .s ∧ t.me.pc = (tenOf s s.me.ten.toNat).htvec ∧ t.me.g = s.me.g) ∧
    (∀ h, s.me.id = .hart h → s.me.mode = .s →
      ∃ t token, exec i s = .next t ∧ t.me = { s.me with status := .parked token false } ∧
        ∃ r ∈ t.records, r.token = token ∧ r.words[0].toNat % 2 ^ 16 = 2 ∧ r.words[0].toNat / 2 ^ 16 % 256 = c)

/-- R408: `xret`. An `OVERRUN` that was held over S mode is due from then on (R400). -/
def Obligations.XretReturnsFromTheTrap : Prop :=
  ∀ s : State,
    let back : Mode := if s.me.pm = 0#2 then .u else if s.me.pm = 3#2 then .m else .s
    let overrun := isHart s.me && s.me.xcause == 15#8 && s.me.xasync
    let u := if overrun then endOverrun s else s
    (s.me.mode = .u → Traps .xret s cIllegal 0x60000002#64) ∧
    (s.me.mode ≠ .u → s.me.mode.code < back.code → Traps .xret s cIllegal 0x60000002#64) ∧
    (s.me.mode ≠ .u → back.code ≤ s.me.mode.code → ¬ (isHart s.me = true ∧ u.me.status = .idle) →
      exec .xret s = .next { u with me := { u.me with
        mode := (if u.me.pm = 0#2 then .u else if u.me.pm = 3#2 then .m else .s), runrep := false, pc := u.me.xpc,
        overdue := u.me.overrun } }) ∧
    (s.me.mode ≠ .u → back.code ≤ s.me.mode.code → isHart s.me = true → u.me.status = .idle → exec .xret s = .next u)

/-- `wait` (R409) completes when the doubleword differs from rs2, and executes again while it does not. The fences
(spec/11_consistency.md R242, R243): `fence.sv` completes at once; the others complete when no run is in progress and none waits to be
reported, at once on a control core, and wait for a run; none changes anything but the PC. The order that they place among
agents is beyond one interleaving (log 2). -/
def Obligations.WaitAndFencesCompleteWhenTheyMay : Prop :=
  (∀ s d a b l, Clean s [a, b] → (getG s.me a).toNat % 8 = 0 → resolveScalar s .read (getG s.me a).toNat = .ok l →
      let x := BitVec.ofNat 64 (readLoc s l 8)
      (x ≠ getG s.me b → Gives (.wait d a b) [a, b] s d x 0#5) ∧ (x = getG s.me b → exec (.wait d a b) s = .next s)) ∧
  (∀ (s : State) (k : Fin 8),
      OnlyPc (.fenceSv k) s (s.me.pc + 4#64) ∧
      ∀ i ∈ [Instr.fenceVs k, .fenceVv k, .fenceAll k],
        ((isHart s.me = false ∨ (s.me.vec.rRun = false ∧ s.me.vec.rPend = false)) → OnlyPc i s (s.me.pc + 4#64)) ∧
        (isHart s.me = true → s.me.vec.rRun = true → exec i s = .next s))

/-- `ifence` (spec/02_encoding.md R61): it changes nothing but the agent's copies of code, and what is fetched after it is what
memory holds. -/
def Obligations.FetchAfterIfenceReadsMemory : Prop :=
  ∀ s : State, ∃ t, exec .ifence s = .next t ∧
    t = { s with istore := t.istore, me := { s.me with pc := s.me.pc + 4#64 } } ∧
    (∀ c, c ∈ t.istore ↔ c ∈ s.istore ∧ c.agent ≠ s.me.id) ∧
    (∀ p k, resolveScalar (setPc t p) .fetch p.toNat = .ok (.mem k) →
      fetchCode (setPc t p) = .ok (BitVec.ofNat 64 (Memory.readLE s.mem (k / 8 * 8) 8)))

/-- `tlbinv` (spec/16_isolation.md R363): it keeps exactly the entries that it does not select, in every translation cache, and
changes nothing else but the PC; a hart's waits for its run, in the order of `fence.all.package`; in U mode it is `ILLEGAL`. That
it takes no report of a failed run is the model's reading (log 21). -/
def Obligations.TlbinvDiscardsTheSelectedTranslations : Prop :=
  ∀ (s : State) (a b : Reg),
    (s.me.mode = .u → Traps (.tlbinv a b) s cIllegal (BitVec.ofNat 64 (0x60000007 + a.val * 2 ^ 14 + b.val * 2 ^ 9))) ∧
    (s.me.mode ≠ .u → Clean s [a, b] → s.me.vec.rRun = true → exec (.tlbinv a b) s = .next s) ∧
    (s.me.mode ≠ .u → Clean s [a, b] → s.me.vec.rRun = false → ∃ t, exec (.tlbinv a b) s = .next t ∧
      t = { s with tlb := t.tlb, me := { s.me with pc := s.me.pc + 4#64 } } ∧
      ∀ e, e ∈ t.tlb ↔ e ∈ s.tlb ∧ ¬ Discards s (getG s.me a) (getG s.me b) e)

namespace Sys2Proof
namespace Machine

/-- Two memories agree outside n bytes from k. -/
def AgreeOutside (m m' : Memory) (k n : Nat) : Prop := ∀ a, a < k ∨ k + n ≤ a → Memory.read m' a = Memory.read m a

/-- The image of the acting hart at a virtual address lies in memory from k, whatever the image holds. -/
def ImageAt (u : State) (va k : Nat) : Prop :=
  ∀ m, AgreeOutside u.mem m k (imageBytes (lanesIn u)) → ∀ off, off < imageBytes (lanesIn u) → ∀ acc ∈ [Acc.read, Acc.write],
    resolve { u with mem := m } (vectorCtx u) acc (va + off) = .ok (.mem (k + off))

/-- A memory holds from k the image of a hart (spec/17_traps.md R411), with `v` its vector state and L its lanes. -/
def ImageLaidOut (m : Memory) (k : Nat) (v : VecState) (L : Nat) : Prop :=
  let word (o : Nat) := Memory.readLE m (k + o) 8
  word 0x00 = L ∧ word 0x08 = (readVl v).toNat ∧ word 0x10 = v.vstart.toNat ∧ word 0x18 = (readMtype v).toNat ∧
  word 0x20 = v.srseed.toNat ∧ word 0x28 = (readChbase v).toNat ∧ word 0x30 = (readRstart v).toNat ∧
  (∀ o, 0x38 ≤ o → o < 0x1000 → Memory.read m (k + o) = 0#8) ∧
  (∀ (j : Fin 8) i, j ≠ 0 → i < 65536 →
    (Memory.read m (k + 0x1000 + 8192 * (j.val - 1) + i / 8)).getLsbD (i % 8) = v.masks[j].getLsbD i) ∧
  (∀ lane, lane < L →
    let at_ := k + 0xF000 + 17408 * lane
    (∀ (r : Fin 32) slot b, slot < 8 → b < 256 →
      (Memory.read m (at_ + 256 * r.val + 32 * slot + b / 8)).getLsbD (b % 8) =
        v.regs.data[r].getLsbD (256 * (slot * L + lane) + b)) ∧
    (∀ r, r < 32 →
      let store := Memory.readLE m (at_ + 8192 + 32 * r) 32
      (∀ slot, slot < 16 → store / 2 ^ (9 * slot) % 512 = scaleAt v.regs r (slot * L + lane)) ∧ store / 2 ^ 144 = 0) ∧
    (∀ tile row c, tile < 8 → row < 8 → c < 32 →
      Memory.readLE m (at_ + 9216 + 1024 * tile + 128 * row + 4 * c) 4 = accCol (accRow v.acc tile row) (32 * lane + c)))

/-- Two vector states agree in all that an image of L lanes restores (R413). -/
def SameVectors (v w : VecState) (L : Nat) : Prop :=
  (∀ j : Fin 8, j ≠ 0 → w.masks[j] = v.masks[j]) ∧
  (∀ (r : Fin 32) i, i < 2048 * L → w.regs.data[r].getLsbD i = v.regs.data[r].getLsbD i) ∧
  (∀ r b, r < 32 → b < 16 * L → scaleAt w.regs r b = scaleAt v.regs r b) ∧
  (∀ tile row n, tile < 8 → row < 8 → n < 32 * L → accCol (accRow w.acc tile row) n = accCol (accRow v.acc tile row) n) ∧
  w.vlTy = v.vlTy ∧ w.vlLen = v.vlLen ∧ w.mtDir = v.mtDir ∧ w.mtSpace = v.mtSpace ∧ w.srseed = v.srseed ∧ w.vstart = v.vstart

end Machine
end Sys2Proof

/-- `vcsave` and `vcrest` (R412, R413) on a hart in S mode: `ALIGN` for an address that is not a multiple of 64; then they wait
for a run; else they complete where the image does, with the state that storing or loading it leaves; in U mode they are
`ILLEGAL`. What is stored where no unit is poisoned is the image of R411 and nothing else; loading it again gives the vector state
that was stored, where no chain is installed, no partition is pending, `VL` is one that a write of it leaves, and `MTYPE` names no
space that may be absent. -/
def Obligations.VectorImageInstructionsComplete : Prop :=
  (∀ (u : State) (h : HartId) (va k : Nat), u.me.id = .hart h → cleanAgent u.me = true → Memory.wf u.mem → ImageAt u va k →
    ∃ m, saveImage u va = .ok { u with mem := m } ∧ AgreeOutside u.mem m k (imageBytes (lanesIn u)) ∧
      ImageLaidOut m k u.me.vec (lanesIn u) ∧
      ([4, 8, 16, 32, 64, 128].contains (lanesIn u) = true → u.me.vec.chain = none → changePending u.me = false →
        u.me.vec.vlTy.toNat < 22 → u.me.vec.vlLen.toNat ≤ cap u.me.vec.vlTy.toNat (lanesIn u) → u.me.vec.mtSpace ≠ 2#2 →
        ∃ v, restoreImage { u with mem := m } va = ({ u with mem := m, me := { u.me with vec := v } }, none) ∧
          SameVectors u.me.vec v (lanesIn u))) ∧
  ∀ (s : State) (h : HartId) (a : Reg), s.me.id = .hart h →
    (s.me.mode = .s → s.me.vec.rRun = true → s.me.vec.rPend = false → Clean s [a] →
      let va := (getG s.me a).toNat
      (va % 64 ≠ 0 → ∀ i ∈ [Instr.vcsave a, .vcrest a],
        exec i s = .next (takeTrap (vsave s) (Trap.sync cAlign (getG s.me a)))) ∧
      (va % 64 = 0 → exec (.vcsave a) s = .next (vsave s)) ∧
      (va % 64 = 0 → ∀ n, imageLanes (vsave s) va = .ok n → exec (.vcrest a) s = .next (vsave s)) ∧
      (va % 64 = 0 → ∀ t, imageLanes (vsave s) va = .error t → exec (.vcrest a) s = .next (takeTrap (vsave s) t))) ∧
    (s.me.mode = .u → Traps (.vcsave a) s cIllegal (BitVec.ofNat 64 (0x60000005 + a.val * 2 ^ 14)) ∧
      Traps (.vcrest a) s cIllegal (BitVec.ofNat 64 (0x60000006 + a.val * 2 ^ 14))) ∧
    (s.me.mode = .s → s.me.vec.rRun = false → s.me.vec.rPend = false → Clean s [a] →
      let va := (getG s.me a).toNat
      (va % 64 ≠ 0 → ∀ i ∈ [Instr.vcsave a, .vcrest a],
        exec i s = .next (takeTrap (vsave s) (Trap.sync cAlign (getG s.me a)))) ∧
      (va % 64 = 0 → ∀ t, saveImage (vsave s) va = .ok t → exec (.vcsave a) s = .next (setPc t (t.me.pc + 4#64))) ∧
      (va % 64 = 0 → ∀ t, restoreImage (vsave s) va = (t, none) → exec (.vcrest a) s = .next (setPc t (t.me.pc + 4#64))))

/-! ### Harts, grants and queues (spec/14_harts_kiln.md; spec/06_vector_arith.md R126) -/

/-- `hexit` (R410): a hart with no run in progress and none to report ends; its context stands idle with no chain. In a task that
does not wait for it to take `OVERRUN` (R338), the context keeps its place in the task and nothing else; LIVE falls by one in the
barriers of its gang and of its task, and a generation that is then complete ends (R316, R317); its chain is quit (R288); and each
lane block that it gives up goes to the live hart of its core whose lanes in force are its buddy, whose pending grant it joins, or
else to the gang's pool (R315). Where neither of its blocks contains the other it gives up both, the pending one first (log 36). A
task that waits for no other hart to take `OVERRUN` ends. The word is `ILLEGAL` on a control core. -/
def Obligations.HexitEndsTheHart : Prop :=
  (∀ (s : State) (h : HartId), s.me.id = .hart h → s.me.vec.rRun = false → s.me.vec.rPend = false →
    exec .hexit s = .next (exitHart s) ∧
    (exitHart s).me.status = .idle ∧ (exitHart s).me.vec.chain = none ∧ (exitHart s).me.id = .hart h) ∧
  (∀ (s : State) (h : HartId) k e, s.me.id = .hart h → s.me.vec.rRun = false → s.me.vec.rPend = false →
    s.me.task = some k → entryOf s k = some e → ¬ (e.exhausted = true ∧ e.target = some h) →
    ∃ t e', exec .hexit s = .next t ∧
      t.me = { Agent.fresh (.hart h) with
        ten := s.me.ten, asid := s.me.asid, srcq := s.me.srcq, seq := s.me.seq, task := some k, saveRows := s.me.saveRows } ∧
      (∀ c, s.me.vec.chain = some c → ∀ j, tileKey (hartCore h) + c.rowLo * 8192 ≤ j →
        j < tileKey (hartCore h) + (c.rowLo + c.rows) * 8192 → Memory.read t.mem j = 0#8) ∧
      entryOf t k = some e' ∧ e'.state = e.state ∧ e'.left = e.left ∧ e'.tbar = oneLess e.tbar ∧
      (∀ c, c ≠ h.core.val → gangOf e' c = gangOf e c) ∧
      (∀ g, gangOf e h.core.val = some g → ∃ g', gangOf e' h.core.val = some g' ∧
        g'.row = g.row ∧ g'.rows = g.rows ∧ g'.gbar = oneLess g.gbar ∧
        let taker := takerOf s k h.core.val
        (∀ b, givenUp s.me = [b] → g'.pool = poolAfter g.pool b (taker b) ∧ GrantGrown t g.pool b (taker b)) ∧
        (∀ b c, givenUp s.me = [b, c] → (∀ o p, taker b = some o → taker c = some p → o.id ≠ p.id) →
          let pool := poolAfter g.pool b (taker b)
          g'.pool = poolAfter pool c (taker c) ∧ GrantGrown t g.pool b (taker b) ∧ GrantGrown t pool c (taker c)))) ∧
  (∀ (s : State) (h : HartId) k e, s.me.id = .hart h → s.me.vec.rRun = false → s.me.vec.rPend = false →
    s.me.task = some k → entryOf s k = some e → e.exhausted = true → e.target = some h →
    (∀ o ∈ s.others, liveIn k o = false) → ∃ t, exec .hexit s = .next t ∧ entryOf t k = none) ∧
  (∀ (s : State) (h : HartId), s.me.id = .hart h → s.me.vec.rRun = true → exec .hexit s = .next s) ∧
  (∀ (s : State) (n : Fin 32), s.me.id = .cc n → Traps .hexit s cIllegal 0x60000004#64)

/-- `gbar` and `tbar` (R317): arrival, the tag's trap, the wait and the completion; and when the last hart arrives, every hart of
the gang, or of the task, is released at once. That a hart whose generation completed while it was away completes with it at the
next such word that it executes is the model's choice (log 36). -/
def Obligations.BarriersReleaseTheirHartsTogether : Prop :=
  ∀ (s : State) (h : HartId) (e : Entry) (g : Gang), s.me.id = .hart h → myTask s = some e → gangOf e h.core.val = some g →
    s.me.vec.rRun = false → s.me.vec.rPend = false →
    BarrierForm .gbar s g.gbar s.me.garr s.me.gwait (putGbar s e h.core.val g.gbar)
      (fun s arrived w => { s with me := { s.me with garr := arrived, gwait := w } }) ∧
    BarrierForm .tbar s e.tbar s.me.tarr s.me.twait (putTbar s e e.tbar)
      (fun s arrived w => { s with me := { s.me with tarr := arrived, twait := w } }) ∧
    (∀ d a, Clean s [a] → s.me.gwait = none → (g.gbar.arr = 0#11 ∨ BitVec.ofNat 16 (getG s.me a).toNat = g.gbar.tag) →
      g.gbar.arr + 1#11 = g.gbar.live → g.gbar.live ≠ 0#11 → ∃ t, exec (.gbar d a) s = .next t ∧
        ∀ k : HartId, (hartOf t k).task = some e.id → k.core = h.core → (hartOf t k).garr = false) ∧
    (∀ d a, Clean s [a] → s.me.twait = none → (e.tbar.arr = 0#11 ∨ BitVec.ofNat 16 (getG s.me a).toNat = e.tbar.tag) →
      e.tbar.arr + 1#11 = e.tbar.live → e.tbar.live ≠ 0#11 → ∃ t, exec (.tbar d a) s = .next t ∧
        ∀ k : HartId, (hartOf t k).task = some e.id → (hartOf t k).tarr = false)

namespace Sys2Proof
namespace Machine

/-- What a vector state holds after a grant that changes the lanes in force from l0 to l1 (spec/14_harts_kiln.md R314; spec/07_matrix.md
R159): of each v register the granules below 8m with their bits and zero in the others, its scale units below 16m and zero, of each
accumulator row the columns below 32m and +0, where m is the lesser of the two, and the masks. -/
def CarriedOver (v v' : VecState) (l0 l1 : Nat) : Prop :=
  v'.masks = v.masks ∧
  (l1 = l0 → v'.regs = v.regs ∧ v'.acc = v.acc) ∧
  (l1 ≠ l0 →
    (∀ (r : Reg) k, k < 1024 → v'.regs.data[r].extractLsb' (256 * k) 256 =
      if k < 8 * min l0 l1 then v.regs.data[r].extractLsb' (256 * k) 256 else 0#256) ∧
    (∀ (r : Reg) k, k < 2048 → v'.regs.scale[r].extractLsb' (9 * k) 9 =
      if k < 16 * min l0 l1 then v.regs.scale[r].extractLsb' (9 * k) 9 else 0#9) ∧
    (∀ (i : Fin 64) k, k < 4096 → v'.acc[i].extractLsb' (32 * k) 32 =
      if k < 32 * min l0 l1 then v.acc[i].extractLsb' (32 * k) 32 else 0#32))
/-- An address lies in one of some rows of a core's tile memory. -/
def inRowsOf (core : Nat) (rows : List Nat) (k : Nat) : Bool :=
  rows.any (fun x => decide (tileKey core + x * 8192 ≤ k ∧ k < tileKey core + x * 8192 + 8192))

end Machine
end Sys2Proof

/-- `setvl` and `setvli` (R126): the grant for the request at the capacity of the lanes in force from then on, `VL` and rd set to
it; `VSTART` and `FFLAGS` stay; an absent type traps `FEATURE`. What the registers, scales, masks and tiles then hold is `CarriedOver`
(R314, R159). Memory stays, but for the hart's save rows, which its lazy switch or, where Kiln has taken lanes, the grant releases, every
bit zero (R405). -/
def Obligations.SetvlGrantsTheRequest : Prop :=
  ∀ (s : State) (h : HartId) (d a : Reg) (ty : Fin 32) (bal : Fin 2) (g : Fin 16) (n : Fin 16384), s.me.id = .hart h →
    (22 ≤ ty.val → Traps (.setvl d a ty bal g) s cFeature (BitVec.ofNat 64 (128 + ty.val)) ∧
      Traps (.setvli d ty n) s cFeature (BitVec.ofNat 64 (128 + ty.val))) ∧
    (ty.val < 22 → s.me.vec.rPend = false →
      let c := cap ty.val s.me.nlanes.toNat
      ∀ q : Instr × Nat, (q = (.setvl d a ty bal g, granted (getG s.me a).toNat c (bal.val = 1) g.val) ∧ Clean s [a] ∨
          q = (.setvli d ty n, granted n.val c false 0)) →
        ∃ t, exec q.1 s = .next t ∧ t.me.vec.vlTy.toNat = ty.val ∧ t.me.vec.vlLen.toNat = q.2 % 2 ^ 17 ∧
          t.me.lanes = s.me.nlanes ∧ t.me.first = s.me.nfirst ∧
          getG t.me d = (if d = 0 then 0#64 else BitVec.ofNat 64 q.2) ∧ (∀ r, r ≠ d → getG t.me r = getG s.me r) ∧
          t.me.vec.vstart = s.me.vec.vstart ∧ t.me.fflags = s.me.fflags ∧ t.me.pc = s.me.pc + 4#64 ∧
          CarriedOver s.me.vec t.me.vec s.me.lanes.toNat s.me.nlanes.toNat ∧
          (s.me.inRows = false → s.me.reclaimed = false → t.mem = s.mem) ∧
          (Memory.wf s.mem = true →
            ∀ k, inRowsOf (hartCore h) s.me.saveRows k = false → Memory.read t.mem k = Memory.read s.mem k) ∧
          (s.me.inRows = true ∨ s.me.reclaimed = true →
            t.me.saveRows = [] ∧ ∀ k, inRowsOf (hartCore h) s.me.saveRows k = true → Memory.read t.mem k = 0#8))

/-- `enq` (R323): the traps in their order; a disabled queue answers 3 and a ring-mode queue 4, and take nothing; a free on-chip
slot takes the image under the next sequence number; else the spill ring takes it, and answers 1, or, where it is full, 2; a fault
on the ring disables the queue. `qstat` (R324). `depdec` (R329): on an entry that is delivered, on one that is not, where it is held
and answered by its place among those held, or 4 while 32 are held, and on a name of no entry, 3. -/
def Obligations.QueueInstructionsSubmitReportAndDecrement : Prop :=
  (∀ (s : State) (d a b : Reg), Clean s [a, b] →
      let q := (getG s.me b).toNat
      let va := getG s.me a
      let v := queueOf s q
      ((4096 ≤ q ∨ queueOpen s q = false) → Traps (.enq d a b) s cQerr (getG s.me b)) ∧
      (q < 4096 → queueOpen s q = true → va.toNat % 64 ≠ 0 → Traps (.enq d a b) s cAlign va) ∧
      (q < 4096 → queueOpen s q = true → va.toNat % 64 = 0 → ∀ f, readScalarWords s va.toNat 8 = .error f →
        exec (.enq d a b) s = .next (takeTrap s f.trap)) ∧
      (q < 4096 → queueOpen s q = true → va.toNat % 64 = 0 → ∀ img, readScalarWords s va.toNat 8 = .ok img →
        (v.en = false → Gives (.enq d a b) [a, b] s d 3#64 0#5) ∧
        (v.en = true → v.ring = true → Gives (.enq d a b) [a, b] s d 4#64 0#5) ∧
        (v.en = true → v.ring = false → ringCount v = 0 → v.slots.length < 32 →
          exec (.enq d a b) s = .next (setPc (wr (putQueue s q { v with
              nextSeq := v.nextSeq + 1
              slots := v.slots ++ [{ seq := v.nextSeq % 2 ^ 32, words := vec8 img, ring := none, lost := false }] }) d
            (BitVec.ofNat 64 (v.nextSeq % 2 ^ 32 * 2 ^ 32))) (s.me.pc + 4#64))) ∧
        (v.en = true → v.ring = false → ¬ (ringCount v = 0 ∧ v.slots.length < 32) →
          let answers (u : State) (x : Nat) := exec (.enq d a b) s = .next (setPc (wr u d (BitVec.ofNat 64 x)) (u.me.pc + 4#64))
          let c := queueCtx s q
          let spill := writeWordsIn s c (slotVa v v.widx) (vec8 img).toList
          (ringSize v ≤ ringCount v → Gives (.enq d a b) [a, b] s d 2#64 0#5) ∧
          (ringCount v < ringSize v → ∀ s1 s2, spill = .ok s1 → writeIn s1 c v.rbase.toNat 8 (v.widx + 1) = .ok s2 →
            answers (refill q 32 (putQueue s2 q { v with nextSeq := v.nextSeq + 1, widx := v.widx + 1 }))
              (v.nextSeq % 2 ^ 32 * 2 ^ 32 + 1)) ∧
          (ringCount v < ringSize v →
            ∀ f, (spill = .error f ∨ ∃ s1, spill = .ok s1 ∧ writeIn s1 c v.rbase.toNat 8 (v.widx + 1) = .error f) →
            answers (ringBroken s q f) 3 ∧ (queueOf (ringBroken s q f) q).en = false)))) ∧
  (∀ (s : State) (d a : Reg), Clean s [a] →
      let x := getG s.me a
      let q := x.toNat / 2 ^ 32 % 4096
      ((4096 ≤ x.toNat ∨ queueOpen s x.toNat = false) → Traps (.qstat d a) s cQerr x) ∧
      (x.toNat < 4096 → queueOpen s x.toNat = true →
        let v := queueOf s x.toNat
        Gives (.qstat d a) [a] s d (BitVec.ofNat 64 (v.nextSeq % 2 ^ 32 * 2 ^ 32 + (if ringCount v = 0 then 0 else 2048) +
          (if v.ring then 1024 else 0) + (if v.en then 512 else 0) + v.slots.length)) 0#5) ∧
      ((2 ^ 44 ≤ x.toNat ∨ queueOpen s q = false) → Traps (.depdec d a) s cQerr x) ∧
      (x.toNat < 2 ^ 44 → queueOpen s q = true →
        exec (.depdec d a) s = .next (setPc (wr (decrement s q (x.toNat % 2 ^ 32)).1 d
          (BitVec.ofNat 64 (decrement s q (x.toNat % 2 ^ 32)).2)) ((decrement s q (x.toNat % 2 ^ 32)).1.me.pc + 4#64)) ∧
        ∀ e, entryOf s (entryId q (x.toNat % 2 ^ 32)) = some e →
          (2 ≤ e.counter → decrement s q (x.toNat % 2 ^ 32) = (putEntry s { e with counter := e.counter - 1 }, 0)) ∧
          (e.counter = 1 → (decrement s q (x.toNat % 2 ^ 32)).2 = 1 ∧
            (e.state = .waiting → decrement s q (x.toNat % 2 ^ 32) = (putEntry s { e with counter := 0, state := .ready }, 1))) ∧
          (e.counter = 0 → (decrement s q (x.toNat % 2 ^ 32)).2 = 2))) ∧
  (∀ (s : State) (q seq : Nat), seq < 2 ^ 32 → entryOf s (entryId q seq) = none →
    let v := queueOf s q
    let held := (v.pending.filter (· == seq)).length + 1
    let depc := depcOf s q v seq
    (undelivered v seq = false → decrement s q seq = (s, 3)) ∧
    (undelivered v seq = true → 32 ≤ v.pending.length → decrement s q seq = (s, 4)) ∧
    (undelivered v seq = true → v.pending.length < 32 →
      (decrement s q seq).1 = nextTick (putQueue s q { v with pending := v.pending ++ [seq] }) ∧
      (decrement s q seq).2 = if held < depc then 0 else if held = depc then 1 else 2) ∧
    (∀ x, v.slots.find? (fun x => x.seq == seq) = some x → undelivered v seq = true ∧
      depc = x.words[0].toNat / 2 ^ 32 % 2 ^ 16))

/-! ### Vector integer and floating point (spec/06_vector_arith.md R124-R133, R141) -/

/-- The forms of major 0x01 (R132). -/
def Obligations.VectorIntegerFormsComputeTheirElements : Prop :=
  EachIntForm IntForm ∧
  (∀ s h w, Ready .vsel w s h → Runs8 (.vsel w) s (elementwise (switched s) w.vt.val { w with vm := 0 } (fun k =>
    (if activeAt (switched s) w k then srcA (switched s) w k else bElem (switched s) w.vt.val w k, 0#5))))

/-- The forms of major 0x02 (R133), each rounded once by the mode of its element: on finite operands, the exact result
(spec/04_formats.md R89, R90), and on special ones what R95 says of their codes. The lesser and the greater are those of R95. That
an infinity where R95 has no row gives its limit is the model's reading (log 51). -/
def Obligations.VectorFloatFormsComputeTheirElements : Prop :=
  (∀ t ∈ [8, 9, 10, 11], RoundsOnce (fmtOf t) ∧ SpecialsOf (fmtOf t)) ∧
  EachFloatForm FloatForm

/-- The special functions (R141-R148): they complete element by element; a finite operand gives the value of its algorithm,
rounded once to f32, bf16 or f16; and the special operands give what the table gives. The constants of the algorithms are the whole
numbers nearest to the values that R142 gives. -/
def Obligations.SpecialFunctionsAndTheirSpecialOperands : Prop :=
  (∀ x ∈ [(VOp.vexp2, Instr.vexp2), (.vlog2, .vlog2), (.vrcp, .vrcp), (.vrsqrt, .vrsqrt), (.vtanh, .vtanh), (.vsigm, .vsigm)],
    FloatForm x.1 x.2 (fun F m a _ _ => specElem x.1 F m a) ∧
    ∀ F m a q, unpack F a = .nan q → specElem x.1 F m a = nanRes F q) ∧
  (∀ t ∈ [9, 10, 11], SpecialsRound (fmtOf t)) ∧
  TablesNearest ∧
  (∀ (F : Fmt) (m : RMode) (a : Nat) (sg : Bool),
    (unpack F a = .inf sg →
      specElem .vexp2 F m a = (if sg then 0 else F.infCode, 0#5) ∧
      specElem .vlog2 F m a = (if sg then (F.nan, fNV) else (F.infCode, 0#5)) ∧
      specElem .vrcp F m a = (F.sign sg 0, 0#5) ∧
      specElem .vrsqrt F m a = (if sg then (F.nan, fNV) else (0, 0#5)) ∧
      specElem .vtanh F m a = roundTo F m sg 1 0 false ∧
      specElem .vsigm F m a = (if sg then (0, 0#5) else roundTo F m false 1 0 false)) ∧
    (∀ e, unpack F a = .fin sg 0 e →
      specElem .vlog2 F m a = (F.sign true F.infCode, fDZ) ∧
      specElem .vrcp F m a = (F.sign sg F.infCode, fDZ) ∧
      specElem .vrsqrt F m a = (F.sign sg F.infCode, fDZ)) ∧
    (F ∈ [fmtOf 8, fmtOf 9, fmtOf 10, fmtOf 11] → ∀ e, unpack F a = .fin sg 0 e →
      specElem .vexp2 F m a = (F.bias * 2 ^ F.f, 0#5) ∧
      specElem .vtanh F m a = (F.sign sg 0, 0#5) ∧
      specElem .vsigm F m a = ((F.bias - 1) * 2 ^ F.f, 0#5)) ∧
    (∀ n e, 0 < n → unpack F a = .fin true n e →
      specElem .vlog2 F m a = (F.nan, fNV) ∧ specElem .vrsqrt F m a = (F.nan, fNV)))

/-- The element loop (R128), for a type whose elements lie one after another and at most 128 lanes: an active element of the body
takes its value, a masked-off one becomes zero under MZ and keeps its value without, and every element outside the body, and
every other register, keeps its value; the flags of the active elements are added, and `VSTART` becomes 0. -/
def Obligations.ElementLoopWritesTheBody : Prop :=
  ∀ (s : State) (t : Nat) (w : VWord) (start stop : Nat) (f : Nat → FRes), t < 17 → lanesIn s ≤ 128 → stop ≤ cap t (lanesIn s) →
    let z := elementsOn s t w (body start stop) f
    let d := (regOf w.vd.val).val
    (∀ k, k < cap t (lanesIn s) → elemAt z.me.vec.regs t (lanesIn s) d k =
      if start ≤ k ∧ k < stop ∧ activeAt s w k = true then (f k).1 % 2 ^ codeW t
      else if start ≤ k ∧ k < stop ∧ maskZ w = true then 0
      else elemAt s.me.vec.regs t (lanesIn s) d k) ∧
    (∀ r k, r < 32 → r ≠ d → elemAt z.me.vec.regs t (lanesIn s) r k = elemAt s.me.vec.regs t (lanesIn s) r k) ∧
    (∀ j, j < 5 → z.me.fflags.getLsbD j = (s.me.fflags.getLsbD j ||
      (body start stop).any (fun k => activeAt s w k && (f k).2.getLsbD j))) ∧
    OnlyV s z (regOf w.vd.val) ∧ z.me.vec.vstart = 0#17

/-- The compares (R134): bit k of mask vd, for the active elements, and zero for masked-off ones under MZ; the relation of two
integers, or that of two floating codes, with NV, by spec/04_formats.md R95. The mask forms (R135): they ignore vm, and reach from `VSTART` to the length of `VL`. -/
def Obligations.ComparesAndMaskFormsWriteMaskBits : Prop :=
  (∀ x ∈ [(VOp.vceq, Instr.vceq, 0), (.vcne, .vcne, 1), (.vclt, .vclt, 2), (.vcle, .vcle, 3), (.vcgt, .vcgt, 4),
      (.vcge, .vcge, 5), (.vcun, .vcun, 6)],
    ∀ s h w, Ready x.1 w s h →
      let u := switched s
      let t := w.vt.val
      let a (k : Nat) := srcA u w k
      let b (k : Nat) := bElem u t w k
      let val (k : Nat) : Bool × BitVec 5 := if fltTy t then compared (fmtOf t) x.2.2 (a k) (b k)
        else (related x.2.2 (intVal (signedTy t) (BitVec.ofNat (elemW t) (a k)))
          (intVal (signedTy t) (BitVec.ofNat (elemW t) (b k))), 0#5)
      MaskForm (x.2.1 w) s u w.vd.val u.me.vec.vstart.toNat (evlOf u t)
        (fun k => if activeAt u w k then some (val k).1 else if maskZ w then some false else none)
        (if (body u.me.vec.vstart.toNat (evlOf u t)).any (fun k => activeAt u w k && (val k).2 == fNV) then fNV else 0#5)) ∧
  (∀ x ∈ [(VOp.mand, Instr.mand, fun p q : Bool => p && q), (.mor, .mor, fun p q => p || q), (.mxor, .mxor, fun p q => p ^^ q),
      (.mandn, .mandn, fun p q => p && !q), (.mnot, .mnot, fun p _ => !p), (.mmv, .mmv, fun p _ => p),
      (.mset, .mset, fun _ _ => true), (.mclr, .mclr, fun _ _ => false)],
    ∀ s h w, Ready x.1 w s h →
      let ms := s.me.vec.masks
      MaskForm (x.2.1 w) s (switched s) w.vd.val s.me.vec.vstart.toNat s.me.vec.vlLen.toNat
        (fun k => some (x.2.2 (maskBitOf ms (srcN w.f1) k) (maskBitOf ms (srcN w.f2) k))) 0#5)

/-- Conversions, packing and scales (R136-R140): they complete and change vector register vd alone, and their elements and scale
slots take the values that the rules give. That the scale source of `vsput` takes the replicate sizes of a block type, and what
`vpack` writes from a `VSTART` inside a block, are the model's readings (log 40). -/
def Obligations.ConversionAndScaleFormsWriteOnlyVd : Prop :=
  (WritesVd .vcvt .vcvt ∧ WritesVd .vpack .vpack ∧ WritesVd .vunpack .vunpack ∧ WritesVd .vsget .vsget ∧
    WritesVd .vsput .vsput) ∧
  ValueForm .vcvt .vcvt (fun w => w.vt.val) (fun u w k =>
    (pairOf w.vt.val w.f2.val u w u.me.vec.vstart.toNat u.me.vec.vlLen.toNat k).bind (fun p =>
      masked u w p.1 (converted w.vt.val w.f2.val (modeAt u w p.1)
        (srcElem u.me.vec.regs w.f2.val (lanesIn u) w.f1 p.2)))) ∧
  ValueForm .vunpack .vunpack (fun w => w.vt.val) (fun u w k =>
    (pairOf w.vt.val w.f2.val u w (u.me.vec.vstart.toNat / 32 * 32) (u.me.vec.vlLen.toNat / 32 * 32) k).bind (fun p =>
      masked u w p.1 (unpacked w.vt.val w.f2.val (modeAt u w p.1) (srcElem u.me.vec.regs w.f2.val (lanesIn u) w.f1 p.2)
        (scaleAt u.me.vec.regs (srcN w.f1) (sourceBlock w.f1 (p.2 / 32)))))) ∧
  PackForm ∧
  ValueForm .vsget .vsget (fun _ => 5) (fun u w j =>
    if u.me.vec.vstart.toNat ≤ j ∧ j < evlOf u w.vt.val / 32 then
      masked u w j (scaleAt u.me.vec.regs (srcN w.f1) (sourceBlock w.f1 j), 0#5)
    else none) ∧
  (∀ s h w, Ready .vsput w s h → lanesIn s ≤ 128 →
    let u := switched s
    ∃ t, exec (.vsput w) s = .next t ∧ t.me.fflags = s.me.fflags ∧
      t.me.vec.regs.data = s.me.vec.regs.data ∧
      ∀ j, j < cap w.vt.val (lanesIn u) / 32 → scaleAt t.me.vec.regs w.vd.val j =
        if u.me.vec.vstart.toNat ≤ j ∧ j < evlOf u w.vt.val / 32 then
          match masked u w j (srcElem u.me.vec.regs 5 (lanesIn u) w.f1 j % 512, 0#5) with
          | some x => x.1
          | none => scaleAt u.me.vec.regs w.vd.val j
        else scaleAt u.me.vec.regs w.vd.val j)

/-- The reductions (R149-R151): each combines the active elements, in order or as the tree of R99, and writes element 0 of vd
alone. -/
def Obligations.ReductionsWriteElementZero : Prop :=
  ReduceForm .vredosum .vredosum 0 ∧ ReduceForm .vredtsum .vredtsum 0 ∧ ReduceForm .vredmin .vredmin 1 ∧
  ReduceForm .vredmax .vredmax 2 ∧ ReduceForm .vredand .vredand 3 ∧ ReduceForm .vredor .vredor 4 ∧
  ReduceForm .vredxor .vredxor 5

/-! ### Permutation and matrix (spec/08_permute_sparse.md, spec/07_matrix.md) -/

/-- Slides, joins, gathers, expansion, counts and conflicts (R174-R181): which source element each body element takes. That the codes of
e3m2 and e2m3 are moved and compared by their six bits is the model's reading (log 40); a count of conflicts saturates at 2^w - 1,
with w the 8 bits of R124 for those types too. -/
def Obligations.PermuteFormsMoveTheirElements : Prop :=
  ElementForm .vshup .vshup
    (fun u w => max (atVstart u w) (min (rd u (xReg w)).toNat (evlOf u w.vt.val)))
    (fun u w k => srcA u w (k - (rd u (xReg w)).toNat)) ∧
  ElementForm .vshdn .vshdn atVstart
    (fun u w k => if k + (rd u (xReg w)).toNat < evlOf u w.vt.val then srcA u w (k + (rd u (xReg w)).toNat) else 0) ∧
  ElementForm .vjoinup .vjoinup atVstart
    (fun u w k => let o := min (rd u (xReg w)).toNat (evlOf u w.vt.val)
      if o ≤ k then srcA u w (k - o) else srcC u w (evlOf u w.vt.val - o + k)) ∧
  ElementForm .vjoindn .vjoindn atVstart
    (fun u w k => let o := min (rd u (xReg w)).toNat (evlOf u w.vt.val)
      if k + o < evlOf u w.vt.val then srcA u w (k + o) else srcC u w (k + o - evlOf u w.vt.val)) ∧
  (∀ x ∈ [(VOp.vrgatherX1, Instr.vrgatherX1, 1), (.vrgatherX2, .vrgatherX2, 2), (.vrgatherX4, .vrgatherX4, 4),
      (.vrgatherX8, .vrgatherX8, 8)],
    ElementForm x.1 x.2.1 atVstart (fun u w k =>
      let n := evlOf u w.vt.val
      let j := bElem u w.vt.val w k
      if j < n * x.2.2 then elemAt u.me.vec.regs w.vt.val (lanesIn u) (srcN w.f1 + j / n) (j % n) else 0)) ∧
  ElementForm .vexpand .vexpand atVstart (fun u w k => srcA u w (activeBelow u w k)) ∧
  (∀ x ∈ [(VOp.vpcnt, Instr.vpcnt, 0), (.vpcntInc, .vpcntInc, 1)],
    ElementForm x.1 x.2.1 atVstart (fun u w k =>
      ((if w.x.val = 1 then (rd u (xReg w)).toNat else 0) +
        ((List.range (k + x.2.2)).filter (fun j => activeAt u w j && maskBitOf u.me.vec.masks (srcN w.f1) j)).length) %
      2 ^ elemW w.vt.val)) ∧
  ElementForm .vconflict .vconflict atVstart (fun u w k =>
    min ((List.range k).filter (fun j => activeAt u w j && srcA u w j == srcA u w k)).length (2 ^ elemW w.vt.val - 1))

/-- `vcompress`, the segmented scans and `vinsrt` (R177, R182, R183) complete and change vector register vd alone, with the elements
that the rules give; `vfirst` and `vextr` (R180, R183) write a g register. That the codes of e3m2 and e2m3 are moved by their six
bits is the model's reading (log 40). -/
def Obligations.CompressScanAndExtractFormsComplete : Prop :=
  WritesVd .vcompress .vcompress ∧
  WritesVd .vsscanAdd .vsscanAdd ∧ WritesVd .vsscanMin .vsscanMin ∧ WritesVd .vsscanMax .vsscanMax ∧
  WritesVd .vsscanAnd .vsscanAnd ∧ WritesVd .vsscanOr .vsscanOr ∧ WritesVd .vsscanXor .vsscanXor ∧
  WritesVd .vinsrt .vinsrt ∧
  WritesG .vfirst .vfirst (fun u w =>
    match (body u.me.vec.vstart.toNat (evlOf u w.vt.val)).find?
      (fun k => activeAt u w k && maskBitOf u.me.vec.masks (srcN w.f1) k) with
    | some k => BitVec.ofNat 64 k
    | none => BitVec.allOnes 64) ∧
  WritesG .vextr .vextr (fun u w =>
    let k := (rd u (xReg w)).toNat
    let x := BitVec.ofNat (elemW w.vt.val) (srcA u w k)
    if k < evlOf u w.vt.val then BitVec.ofInt 64 (intVal (signedTy w.vt.val) x) else 0#64) ∧
  ValueForm .vcompress .vcompress (fun w => w.vt.val) (fun u w k =>
    let n := evlOf u w.vt.val
    let c := activeBelow u w u.me.vec.vstart.toNat
    let js := (List.range' u.me.vec.vstart.toNat (n - u.me.vec.vstart.toNat)).filter (activeAt u w)
    if c ≤ k ∧ k < c + js.length then some (srcA u w (js.getD (k - c) 0), 0#5)
    else if maskZ w ∧ c + js.length ≤ k ∧ k < n then some (0, 0#5)
    else none) ∧
  ScanForm .vsscanAdd .vsscanAdd 0 ∧ ScanForm .vsscanMin .vsscanMin 1 ∧ ScanForm .vsscanMax .vsscanMax 2 ∧
  ScanForm .vsscanAnd .vsscanAnd 3 ∧ ScanForm .vsscanOr .vsscanOr 4 ∧ ScanForm .vsscanXor .vsscanXor 5 ∧
  ValueForm .vinsrt .vinsrt (fun w => w.vt.val) (fun u w k =>
    if k = (rd u (regOf (srcN w.f1))).toNat ∧ k < evlOf u w.vt.val then some ((rd u (xReg w)).toNat, 0#5) else none)

/-- The matrix forms (spec/07_matrix.md R153-R161; spec/04_formats.md R98): `vmma` adds its blocks, each rounded once, to the columns
of its rows; `vaccwr` writes a row and `vaccrd` reads one; `vmma`, `vaccwr` and `vaccz` change only the accumulator tile they name,
`vaccz` leaves it zero, `vaccrd` changes only vd, and `vwload` nothing that a program can see but the PC: that it leaves `VSTART` as it
is, is the model's reading (log 33), and that a product of zero is signed by its operands' signs, those of integer codes among them, is
its choice (log 48). -/
def Obligations.MatrixFormsChangeOnlyTheirTile : Prop :=
  AccForm .vmmaX1 .vmmaX1 ∧ AccForm .vmmaX2 .vmmaX2 ∧ AccForm .vmmaX4 .vmmaX4 ∧ AccForm .vmmaX8 .vmmaX8 ∧
  AccForm .vaccwr .vaccwr ∧ AccForm .vaccz .vaccz ∧ WritesVd .vaccrd .vaccrd ∧
  RoundsOnce (fmtOf 9) ∧
  MmaForm .vmmaX1 .vmmaX1 1 ∧ MmaForm .vmmaX2 .vmmaX2 2 ∧ MmaForm .vmmaX4 .vmmaX4 4 ∧ MmaForm .vmmaX8 .vmmaX8 8 ∧
  (∀ s h w, Ready .vaccwr w s h →
    let u := switched s
    let old (r n : Nat) := accCol (accRow u.me.vec.acc w.vd.val r) n
    ∃ t, exec (.vaccwr w) s = .next t ∧ t.me.fflags = s.me.fflags ∧
      ∀ r n, r < 8 → n < 4096 → accCol (accRow t.me.vec.acc w.vd.val r) n =
        if r = w.f3.val / 8 % 8 ∧ u.me.vec.vstart.toNat ≤ n ∧ n < min u.me.vec.vlLen.toNat (32 * lanesIn u) then
          (if activeAt u w n then srcElem u.me.vec.regs 9 (lanesIn u) w.f1 n else if maskZ w then 0 else old r n)
        else old r n) ∧
  ValueForm .vaccrd .vaccrd (fun _ => 9) (fun u w n =>
    if u.me.vec.vstart.toNat ≤ n ∧ n < min u.me.vec.vlLen.toNat (32 * lanesIn u) then
      masked u w n (accCol (accRow u.me.vec.acc (w.f1.val % 8) (w.f3.val / 8 % 8)) n, 0#5)
    else none) ∧
  (∀ s h w, Ready .vaccz w s h → ∃ t, exec (.vaccz w) s = .next t ∧ ∀ row, row < 8 → accRow t.me.vec.acc w.vd.val row = 0#131072) ∧
  (∀ s h w, Ready .vwload w s h → ∃ t, exec (.vwload w) s = .next t ∧
    t = { switched s with me := { (switched s).me with
      pc := s.me.pc + 8#64, vec := { s.me.vec with latch := t.me.vec.latch } } })

/-! ### Vector memory (spec/10_memory.md R219-R227; spec/12_atomics_engines.md R257-R260) -/

/-- The loads, stores and scatter-reduces complete where every access of theirs does, and move the elements that the rules give; one
that meets a fault stops there, with the elements before it loaded, written or applied. A stride or a base that a
type does not allow traps before any element (R221, R222), and an arrival-chained load waits for the copies of its hart (R225). What an
address names is said of every access by O6 (R215, R216). What `XVAL` holds for an address that is no 64-bit integer is the model's
reading (log 45). -/
def Obligations.VectorMemoryFormsCompleteAndFrame : Prop :=
  LoadVdForm .vld .vld ∧ LoadVdForm .vldSt .vldSt ∧ LoadVdForm .vldIx .vldIx ∧ LoadVdForm .vldff .vldff ∧
  LoadStops .vld .vld ∧ LoadStops .vldSt .vldSt ∧ LoadStops .vldIx .vldIx ∧ LoadStops .vldff .vldff ∧
  StoreVdForm .vst .vst ∧ StoreVdForm .vstSt .vstSt ∧ StoreVdForm .vstIx .vstIx ∧ StoreVdForm .vcompressSt .vcompressSt ∧
  StoreStops .vst .vst ∧ StoreStops .vstSt .vstSt ∧ StoreStops .vstIx .vstIx ∧ StoreStops .vcompressSt .vcompressSt ∧
  WriteLands ∧
  (∀ x ∈ [(VOp.vsrdoAdd, Instr.vsrdoAdd), (.vsrduAdd, .vsrduAdd), (.vsrduMin, .vsrduMin), (.vsrduMax, .vsrduMax),
    (.vsrduAnd, .vsrduAnd), (.vsrduOr, .vsrduOr), (.vsrduXor, .vsrduXor)], ScatterStops x.1 x.2) ∧
  ScatterForm .vsrdoAdd .vsrdoAdd 0 ∧ ScatterForm .vsrduAdd .vsrduAdd 0 ∧ ScatterForm .vsrduMin .vsrduMin 1 ∧
  ScatterForm .vsrduMax .vsrduMax 2 ∧ ScatterForm .vsrduAnd .vsrduAnd 3 ∧ ScatterForm .vsrduOr .vsrduOr 4 ∧
  ScatterForm .vsrduXor .vsrduXor 5 ∧
  (∀ x ∈ [(VOp.vld, Instr.vld), (.vldSt, .vldSt), (.vldIx, .vldIx), (.vldff, .vldff), (.vst, .vst), (.vstSt, .vstSt), (.vstIx, .vstIx),
    (.vcompressSt, .vcompressSt), (.vsrdoAdd, .vsrdoAdd), (.vsrduAdd, .vsrduAdd), (.vsrduMin, .vsrduMin), (.vsrduMax, .vsrduMax),
    (.vsrduAnd, .vsrduAnd), (.vsrduOr, .vsrduOr), (.vsrduXor, .vsrduXor)], TrapsFirst x.1 x.2) ∧
  (∀ x ∈ [(VOp.vld, Instr.vld), (.vldSt, .vldSt), (.vldIx, .vldIx), (.vldff, .vldff)], ArrivalForm x.1 x.2)

/-! ### Engines, collectives, Thresher and chains -/

/-- `dmk`, with its code and its descriptor, the five commands, `ewait` and `estat`, with the status word (spec/12_atomics_engines.md
R262-R266, R272, R274), the four transfers, with the code of one that is refused, and `clwait` (spec/15_links_collectives.md R346,
R350-R352). That an issue waits on the ticket that would leave the 16 most recent, and not on the number outstanding alone, is the
model's reading (log 34); so is that bits [63:52] of a member entry that are not zero give BADGROUP (log 18). -/
def Obligations.EngineAndCollectiveWordsIssueAndReport : Prop :=
  (∀ s h w, Ready .dmk w s h →
    let u := switched s
    let ga := getG s.me (regOf w.ga)
    (ga.toNat % 8 ≠ 0 → exec (.dmk w) s = .next (takeTrap u (Trap.sync cAlign ga))) ∧
    (ga.toNat % 8 = 0 → ∀ f, readDwords u (vectorCtx u) ga.toNat 8 = .error f → exec (.dmk w) s = .next (takeTrap u f.trap)) ∧
    (ga.toNat % 8 = 0 → ∀ l, readDwords u (vectorCtx u) ga.toNat 8 = .ok l →
      ∃ d, Describes l d ∧
      let code := madeCode l d (getG s.me (regOf w.gbG)).toNat (getG s.me (regOf w.gc)).toNat
      ∃ t, exec (.dmk w) s = .next t ∧ GWord u t w.gd (BitVec.ofNat 64 code) { s.me.vec with descs := t.me.vec.descs } ∧
        ∀ n : Fin 16, t.me.vec.descs[n] = if code = 0 ∧ n.val = w.f2.val % 16 then some d else s.me.vec.descs[n])) ∧
  (∀ (d : Desc) (is : List Nat), is.length = d.dims.length → (∀ p ∈ is.zip d.dims, p.1 < p.2.1) →
    d.offset (linearOf is d.dims) = d.base + d.esz * ((is.zip d.dims).map (fun p => (p.1 : Int) * p.2.2)).sum) ∧
  IssueForm .cpy .cpy .cpy ∧ IssueForm .cpyt .cpyt .cpyt ∧ IssueForm .gsg .gsg .gsg ∧ IssueForm .gss .gss .gss ∧
  IssueForm .winnow .winnow .winnow ∧
  (∀ s h w, Ready .estat w s h →
    ∃ t, exec (.estat w) s = .next t ∧
      GWord (switched s) t w.gd (ticketStatus (switched s) h (getG s.me (regOf w.ga)).toNat) s.me.vec) ∧
  (∀ s h w, Ready .ewait w s h →
    let x := ticketStatus (switched s) h (getG s.me (regOf w.ga)).toNat
    (x.toNat % 256 = 2 → exec (.ewait w) s = .next (switched s)) ∧
    (x.toNat % 256 ≠ 2 → ∃ t, exec (.ewait w) s = .next t ∧ GWord (switched s) t w.gd x s.me.vec)) ∧
  (∀ s h n, (n = 0 ∨ s.me.vec.tickets < n ∨ n + 16 ≤ s.me.vec.tickets) → ticketStatus s h n = 12#64) ∧
  (∀ (s : State) h n c, c ∈ s.cmds → c.owner = h → c.ticket = n → (∀ x ∈ s.cmds, x.owner = h → x.ticket = n → x = c) → 1 ≤ n →
    n ≤ s.me.vec.tickets → s.me.vec.tickets < n + 16 → ticketStatus s h n = statusOf c) ∧
  CollIssueForm .clred .clred 0 ∧ CollIssueForm .clbcast .clbcast 1 ∧ CollIssueForm .clagat .clagat 2 ∧
  CollIssueForm .clrsc .clrsc 3 ∧
  (∀ s h w, Ready .clwait w s h →
    let u := switched s
    let n := (getG s.me (regOf w.ga)).toNat
    (collTicket u h n = none → ∃ t, exec (.clwait w) s = .next t ∧ GWord u t w.gd 0x30C#64 s.me.vec) ∧
    (∀ c, collTicket u h n = some c →
      (c.code = 2 → exec (.clwait w) s = .next u) ∧
      (c.code ≠ 2 → ∃ t, exec (.clwait w) s = .next t ∧
        GWord { u with me := { u.me with fflags := s.me.fflags ||| (if c.code = 0 then c.flags else 0#5) } } t w.gd
          (BitVec.ofNat 64 (c.chunks % 2 ^ 32 * 2 ^ 32 + 0x300 + c.code)) s.me.vec))) ∧
  (∀ s h n, (n = 0 ∨ s.me.vec.clTickets < n ∨ n + 4 ≤ s.me.vec.clTickets) → collTicket s h n = none)

/-- The Thresher forms inline (spec/09_thresher.md R194-R201): what stops one, and what it writes; and the elements that each
yields, with their flags. -/
def Obligations.ThresherFormsWriteTheirOutput : Prop :=
  ThresherYields ∧
  ThForm .thdec .thdec ∧ ThForm .thand .thand ∧ ThForm .thor .thor ∧ ThForm .thwand .thwand ∧ ThForm .thscore .thscore ∧
  ThForm .thfuse .thfuse ∧ ThForm .thtopk .thtopk

/-- `chain`, with the refusals of R283 and the reserve of R288, `run`, with the start checks of R291, `chwait` and `chquit`
(spec/13_chains.md R281-R288, R291, R308, R309), and the six words that stand only in a chain block: executed inline, a word that a chain
block would accept is `ILLEGAL` (spec/02_encoding.md R47, R51). The exit count is 0 after `chain`, and after a `chquit` that discards a
chain: that `chwait` then gives 0 is the model's choice (log 49). So is the order of the start checks (log 50); the class of a few forms
and the node of a breach of RESOURCE are its reading (log 23). -/
def Obligations.ChainInstructionsInstallRunAndQuit : Prop :=
  (∀ s h w, Ready .chain w s h → ChainInstalls s h w) ∧
  (∀ s h w, Ready .run w s h →
    let u := switched s
    let v := s.me.vec
    let n := (getG s.me (regOf w.ga)).toNat
    let out (v' : VecState) : State := { u with me := { u.me with pc := s.me.pc + 8#64, vec := { v' with vstart := 0#17 } } }
    (v.chain = none → exec (.run w) s = .next (takeTrap u (Trap.sync cChfetch 11#64))) ∧
    (∀ ch, v.chain = some ch →
      (v.rFail = true → exec (.run w) s = .next (out { v with rFail := false, rRun := true, runFault := none })) ∧
      (v.rFail = false → ∀ code i, startFails v (lanesIn s) ch n = some (code, i) →
        exec (.run w) s = .next (takeTrap u (Trap.sync cChlen (BitVec.ofNat 64 (code + 256 * i))))) ∧
      (v.rFail = false → startFails v (lanesIn s) ch n = none → n = 0 →
        exec (.run w) s = .next (out { v with rRun := false, rTemp := false, rElem := 0#41, exits := 0, run := none })) ∧
      (v.rFail = false → startFails v (lanesIn s) ch n = none → n ≠ 0 → ∃ r,
        exec (.run w) s = .next (out { v with rRun := true, rTemp := false, rElem := 0#41, exits := 0, run := some r }) ∧
        r.n = n ∧ r.strip = 0 ∧ r.g = s.me.g ∧ r.masks = v.masks ∧ r.v = v.regs ∧ r.acc = v.acc ∧ r.descs = v.descs ∧
        r.vlLen = v.vlLen.toNat ∧ r.lanes = s.me.lanes.toNat ∧ r.rmode = s.me.rmode.toNat ∧ r.srseed = v.srseed ∧
        r.mode = s.me.mode ∧ r.size = stripSize v ch))) ∧
  (∀ s h w, Ready .chwait w s h → ∃ t, exec (.chwait w) s = .next t ∧
    GWord (switched s) t w.gd (BitVec.ofNat 64 s.me.vec.exits) s.me.vec) ∧
  (∀ s h w, Ready .chquit w s h → ∃ t, exec (.chquit w) s = .next t ∧ t.me.pc = s.me.pc + 8#64 ∧ t.me.vec.vstart = 0#17 ∧
    t.me.g = s.me.g ∧ t.me.vec.regs = s.me.vec.regs ∧ t.me.vec.chain = none ∧
    (s.me.vec.chain = none → t.me.vec.exits = s.me.vec.exits) ∧
    (∀ c, s.me.vec.chain = some c → t.me.vec.chbase = none ∧ t.me.vec.rElem = 0#41 ∧ t.me.vec.rFail = false ∧ t.me.vec.exits = 0 ∧
      ∀ j, tileKey (hartCore h) + c.rowLo * 8192 ≤ j → j < tileKey (hartCore h) + (c.rowLo + c.rows) * 8192 →
        Memory.read t.mem j = 0#8)) ∧
  (∀ x ∈ [(VOp.stop, Instr.stop), (.lnkin, .lnkin), (.lnkout, .lnkout), (.delay, .delay), (.ereq, .ereq), (.eresp, .eresp)],
    ∀ s w, vcheck3 .chain w x.1 = true → lowestAbsent (vfeatures w x.1) = none → vcheck5 .chain w x.1 = true →
      Traps (x.2 w) s cIllegal (BitVec.ofNat 64 (x.1.encode w)))

/-! ### What the machine does of itself (the rows of the table without an encoding) -/

/-- Runs: `STRIP_COMMIT`, `TEMPORAL_STRIP`, `STRIP_FAULT`, `BREAK`, `RE_FORM` and `LINK_PACKET` (spec/13_chains.md R293, R299, R301, R303-R306);
what a strip gives for the nodes of majors 0x01 and 0x02, as those forms give it inline, and for a `vld` (spec/06_vector_arith.md R152;
spec/10_memory.md R229); which faults stall a run and which fail it; and when a chain can run spatially.
That a run re-forms at the first boundary after a temporal strip at which all it needs is there, and that a packet finds room in
what the reader's next strip leaves, are the model's readings (logs 46 and 26). -/
def Obligations.RunEventsCommitFaultBreakAndReform : Prop :=
  EachIntForm IntNode ∧ NodeForm .vsel (fun e w _ i a b _ => (if maskBitOf e.r.masks (maskReg w) i then a else b, 0#5)) ∧
  EachFloatForm FloatNode ∧ LoadNode ∧ StallsOnly ∧
  (∀ s h captured nodes, spatialOk s h captured nodes = true ↔ CanRunSpatially s h captured nodes) ∧
  CommitForm .stripCommit false ∧ CommitForm .temporalStrip true ∧
  (∀ s h e f, stripOf s h = some e → firstStop (evalStrip e).2 = some (some f) →
    ∃ t, exec (.stripFault h) s = .next t ∧ t.me.id = s.me.id ∧
      (f.stall = false → (hartOf t h).vec.rRun = false ∧ (hartOf t h).vec.rFail = true ∧ (hartOf t h).vec.rPend = true ∧
        (hartOf t h).vec.runFault = some { cause := f.cause, xval := f.xval, offset := f.offset, access := f.acc }) ∧
      (f.stall = true → ∃ token, (hartOf t h).vec.run = some { e.r with stall := some token, broken := true } ∧
        ∃ r ∈ t.records, r.token = token ∧ r.subject = .run h f.cause f.xval ∧ r.answered = none)) ∧
  (∀ s h r, (hartOf s h).vec.rRun = true → (hartOf s h).vec.run = some r → r.broken = false →
    exec (.breakRun h) s = .next (putAgent s { hartOf s h with
      vec := { (hartOf s h).vec with run := some { r with broken := true } } })) ∧
  (∀ s h e, stripOf s h = some e → e.r.broken = true →
    spatialOk s h e.r.lanes e.ch.nodes = true → exec (.reForm h) s = .next (putAgent s { hartOf s h with
      vec := { (hartOf s h).vec with run := some { e.r with broken := false } } })) ∧
  (∀ s h (dir : Fin 4) p rest ch m b,
    let k := linkKey (hartCore h) dir.val
    let l := tget Link.reset k s.links
    (hartOf s h).vec.chain = some ch → ch.nodes.any (fun n => n.1 = .lnkout && linkDir n.2 == dir.val) = true →
    l.out = p :: rest → neighbour (hartCore h) dir.val = some m →
    linkReader s m (opposite dir.val) (hartOf s h).ten = some b →
    let left := linkTake 0 l.inn (linkNeed b (opposite dir.val))
    (left.2.1 = none ∨ (left.2.2.map flits).sum + flits p ≤ 64 →
      exec (.linkPacket h dir) s = .next { s with links := tset k { out := rest, inn := l.inn ++ [p] } s.links }) ∧
    (left.2.1 ≠ none → 64 < (left.2.2.map flits).sum + flits p → exec (.linkPacket h dir) s = .next s))

/-- Queues and admission: `SCANNER_POLL`, `DELIVERY`, with the pending decrements and the checks of R331 in their order, and
`DECREMENT_RETRY` (spec/14_harts_kiln.md R319, R320-R322, R326, R327, R329-R332, R343, R377; spec/18_ras.md R424). That
the entries of a ring get their sequence numbers at the poll that sees them, and that the queues whose polls are due are polled in
cyclic order of their numbers, are the model's readings (log 37). -/
def Obligations.QueueEventsPollDeliverAndRetry : Prop :=
  AdmissionAsR331 ∧ PendingApplied ∧
  (∀ s (q : Fin 4096), nextPoll s ≠ some q.val → exec (.scannerPoll q) s = .next s) ∧
  (∀ s (q : Fin 4096), nextPoll s = some q.val →
    let v := queueOf s q.val
    let u := { s with scanNext := q.val + 1, scanAt := s.kclock + 1 }
    (∀ w, readIn u (queueCtx u q.val) v.rbase.toNat 8 = .ok w → v.widx ≤ w → w ≤ v.ridx + ringSize v →
      let n := if w = v.widx then min (2 * v.interval) 65536 else 64
      exec (.scannerPoll q) s = .next (refill q.val 32 (putQueue u q.val { v with
        nextSeq := v.nextSeq + (w - v.widx), widx := w, interval := n, due := s.kclock + n }))) ∧
    (∀ w, readIn u (queueCtx u q.val) v.rbase.toNat 8 = .ok w → (w < v.widx ∨ v.ridx + ringSize v < w) →
      ∃ t, exec (.scannerPoll q) s = .next t ∧ (queueOf t q.val).en = false) ∧
    (∀ f, readIn u (queueCtx u q.val) v.rbase.toNat 8 = .error f →
      ∃ t token, exec (.scannerPoll q) s = .next t ∧ (queueOf t q.val).stall = some token ∧
        ∃ r ∈ t.records, r.token = token ∧ r.subject = .ring (queueId q.val) ∧ r.answered = none)) ∧
  (∀ s (die : Fin 8) q x rest, s.bootstat = 4#8 → (admitted s die.val).length < 4096 → nextQueue s die.val = some q →
    (queueOf s q).slots = x :: rest →
    let v := queueOf s q
    let s' := { s with rotation := tset die.val q s.rotation }
    let u := applyPending (refill q 32 { putQueue s' q { v with
        slots := rest, ends := v.ends.filter (· != x.seq), dropped := v.dropped - 1, doomed := v.doomed - 1 } with
      delivered := s.delivered + 1 }) q (newEntry s' q x)
    let code := rejectCode u.1 u.2 (decide (0 < v.doomed)) (decide (0 < v.dropped)) x.lost
    ∃ t, exec (.delivery die) s = .next t ∧ t.delivered = s.delivered + 1 ∧
      (v.ends.contains x.seq = true → t = finalEntry u.1 u.2 .ended 20) ∧
      (∀ c, v.ends.contains x.seq = false → code = some c → t = finalEntry u.1 u.2 .rejected c) ∧
      (v.ends.contains x.seq = false → code = none →
        ∃ e ∈ t.entries, e.id = entryId q x.seq ∧ e.words = x.words ∧ e.deadline = s.kclock + x.words[4].toNat ∧
          e.left = 128 * x.words[5].toNat ∧ e.state = (if e.counter = 0 then .ready else .waiting))) ∧
  (∀ s e x, s.entries.find? (fun y => y.id = e && y.retry) = some x →
    let u := decrementSuccessor s x
    (u.2 = true → exec (.decrementRetry e) s = .next u.1) ∧
    (u.2 = false → exec (.decrementRetry e) s = .next { u.1 with entries := u.1.entries.filter (fun y => !(y.id == e && y.retry)) }))

namespace Sys2Proof
namespace Machine

/-- An entry stands before another in a pass: ascending deadline, then delivery number (spec/14_harts_kiln.md R333). -/
def standsBefore (a b : Entry) : Prop := a.deadline < b.deadline ∨ (a.deadline = b.deadline ∧ a.delivNo ≤ b.delivNo)
/-- The entries of a die that a pass takes, in their order: those that are READY or PREEMPTED. -/
def TakenInOrder (s : State) (die : Nat) (l : List EntryId) : Prop :=
  ∃ es : List Entry, l = es.map (fun e => e.id) ∧ es.Pairwise standsBefore ∧
    es.Perm (s.entries.filter (fun e => e.die.val == die && (e.state == .ready || e.state == .preempted)))
/-- A block of lanes of a core is held: by a hart, or in the pool of a gang that has a hart there (R315). -/
def BlockHeld (s : State) (die core : Nat) (b : Nat × Nat) : Prop :=
  (∃ a ∈ agents s, ∃ h, a.id = .hart h ∧ h.die.val = die ∧ h.core.val = core ∧ holdsLanes s a = true ∧ b ∈ hartBlocks a) ∨
  (∃ e ∈ s.entries, e.die.val = die ∧ e.state.final = false ∧ ∃ g, gangOf e core = some g ∧ b ∈ g.pool ∧
    ∃ a ∈ liveHarts s e.id, agentCore a = core ∧ holdsLanes s a = true)
/-- n lanes of a core from one on are free. -/
def LanesFree (s : State) (die core lo n : Nat) : Prop := ∀ b, BlockHeld s die core b → b.1 + b.2 ≤ lo ∨ lo + n ≤ b.1
/-- n rows of a core from one on are free: no task's, and no save row (R333; spec/17_traps.md R405). -/
def RowsFree (s : State) (die core r n : Nat) : Prop :=
  (∀ e ∈ s.entries, e.die.val = die → e.state.final = false → ∀ g, gangOf e core = some g → g.row + g.rows ≤ r ∨ r + n ≤ g.row) ∧
  (∀ a ∈ agents s, agentDie a = die → agentCore a = core → ∀ x ∈ a.saveRows, x + 1 ≤ r ∨ r + n ≤ x)
/-- A context of a core is no task's. -/
def ContextFree (s : State) (die core c : Nat) : Prop :=
  ∀ a ∈ agents s, a.id = .hart ⟨Fin.ofNat 8 die, Fin.ofNat 40 core, Fin.ofNat 32 c⟩ → a.task = none
/-- A core is in service (spec/18_ras.md R423, R424). -/
def InService (s : State) (core : Nat) : Prop :=
  core ∉ s.coresOut ∧ .core core ∉ s.fenced ∧ ∀ sheaf lane, .lane core sheaf lane ∉ s.fenced
/-- A gang of a request on a core, every hart with a block of a size (R322, R333): contexts and aligned blocks that are free, a hart for
each, in ascending order, and the lowest run of free rows. -/
def GangPlaced (s : State) (die w core size : Nat) (p : Placed) : Prop :=
  let harts := w / 2 ^ 18 % 32 + 1
  let trows := w / 2 ^ 23 % 2 ^ 13
  p.core = core ∧ InService s (40 * die + core) ∧
  p.rows = trows ∧ (trows = 0 → p.row = 0) ∧
  (trows ≠ 0 → p.row + trows ≤ 6144 ∧ RowsFree s die core p.row trows ∧ ∀ r < p.row, ¬ RowsFree s die core r trows) ∧
  p.ctxs.length = harts ∧ p.ctxs.Pairwise (· < ·) ∧ (∀ c ∈ p.ctxs, c < 32 ∧ ContextFree s die core c) ∧
  p.blocks.length = harts ∧ p.blocks.Pairwise (fun a b => a.1 < b.1) ∧
  ∀ b ∈ p.blocks, b.2 = size ∧ b.1 % size = 0 ∧ b.1 + size ≤ 128 ∧ LanesFree s die core b.1 size
/-- The cores of a request's rectangle at an origin, in row-major order (R322). -/
def rectAt (w : Nat) (o : Nat × Nat) : List Nat :=
  let cols := w / 2 ^ 6 % 8 + 1
  (List.range ((w / 2 ^ 9 % 8 + 1) * cols)).map (fun k => 8 * (o.1 + k / cols) + o.2 + k % cols)
/-- The origins of a request: its own, or any on the die with FLOAT. -/
def originOk (w : Nat) (o : Nat × Nat) : Prop :=
  if w / 2 ^ 36 % 2 = 1 then o.1 + (w / 2 ^ 9 % 8 + 1) ≤ 5 ∧ o.2 + (w / 2 ^ 6 % 8 + 1) ≤ 8 else o = (w / 8 % 8, w % 8)
/-- The whole request fits at an origin with blocks of lanes(j), within the share of its tenancy (R333). -/
def RequestFits (s : State) (e : Entry) (o : Nat × Nat) (j : Nat) : Prop :=
  let w := e.words[3].toNat
  let rect := rectAt w o
  let held := holdings s e.ten e.die.val
  let share := shareOf s e.ten e.die.val
  (held.1 ++ rect).eraseDups.length ≤ share.maxCores.toNat ∧
  held.2.2 + rect.length * (w / 2 ^ 23 % 2 ^ 13) ≤ share.maxRows.toNat ∧
  held.2.1 + rect.length * (w / 2 ^ 18 % 32 + 1) * (4 * 2 ^ j) ≤ share.maxLanes.toNat ∧
  ∀ core ∈ rect, ∃ p, GangPlaced s e.die.val w core (4 * 2 ^ j) p
/-- Where a READY entry is placed (R333): at the first origin in row-major order where it fits with a size from lanes(MINL) to
lanes(LANES), with the greatest of these; else nowhere. -/
def PlacedFirst (s : State) (e : Entry) : Prop :=
  let w := e.words[3].toNat
  let lo := w / 2 ^ 15 % 8
  let hi := w / 2 ^ 12 % 8
  (fits s [] e = none → ∀ o j, originOk w o → lo ≤ j → j ≤ hi → ¬ RequestFits s e o j) ∧
  ∀ pl, fits s [] e = some pl → ∃ o j, originOk w o ∧ lo ≤ j ∧ j ≤ hi ∧ RequestFits s e o j ∧
    pl.map (fun p => p.core) = rectAt w o ∧ (∀ p ∈ pl, GangPlaced s e.die.val w p.core (4 * 2 ^ j) p) ∧
    (∀ k, j < k → k ≤ hi → ¬ RequestFits s e o k) ∧
    ∀ o' k, originOk w o' → (o'.1 < o.1 ∨ (o'.1 = o.1 ∧ o'.2 < o.2)) → lo ≤ k → k ≤ hi → ¬ RequestFits s e o' k
/-- Where a PREEMPTED entry is placed (R334): on its own cores, rows and contexts, every hart on the lowest lanes of its pending block,
which all have been halved as often; they are free. -/
def PlacedAgain (s : State) (e : Entry) : Prop :=
  ∀ pl, fits s [] e = some pl →
    pl.map (fun p => (p.core, p.row, p.rows)) = e.gangs.map (fun g => (g.core.val, g.row, g.rows)) ∧
    ∃ k < 6, ∀ p ∈ pl, p.ctxs.length = p.blocks.length ∧ InService s (40 * e.die.val + p.core) ∧
      (∀ b ∈ p.blocks, LanesFree s e.die.val p.core b.1 b.2) ∧
      ∀ x ∈ p.ctxs.zip p.blocks, ∃ a ∈ liveHarts s e.id, agentCore a = p.core ∧ agentCtx a = x.1 ∧ x.2.1 = a.nfirst.toNat ∧
        x.2.2 = max (4 * 2 ^ (e.words[3].toNat / 2 ^ 15 % 8)) (a.nlanes.toNat / 2 ^ k)
/-- What the start of a READY entry gives the harts of a placement (R333; spec/03_assembly.md R77): for hart i of the gang at core index
n, the entry PC in U mode, its stack, the argument, i, the gang's size and n in g2 and g4 to g7, zero in the other registers, no vector
state, and its block as its partition. -/
def StartsHarts (s : State) (e : Entry) (pl : List Placed) : Prop :=
  (pl.map (fun p => p.core)).Nodup →
  (∀ p ∈ pl, p.core < 40 ∧ p.ctxs.Nodup ∧ (∀ c ∈ p.ctxs, c < 32) ∧ p.ctxs.length = p.blocks.length ∧
    ∀ b ∈ p.blocks, b.1 < 128 ∧ b.2 ≤ 128) →
  ∀ n p, pl[n]? = some p → ∀ i c b, p.ctxs[i]? = some c → p.blocks[i]? = some b →
    let a := hartOf (launch s e pl) ⟨e.die, Fin.ofNat 40 p.core, Fin.ofNat 32 c⟩
    a.pc = e.words[1] ∧ a.mode = .u ∧ a.status = .running ∧ a.task = some e.id ∧ a.vec = VecState.zero ∧
    a.rmode = 0#3 ∧ a.fflags = 0#5 ∧
    (∀ r : Reg, getG a r = if r = 2 then BitVec.ofNat 64 (0x7FFF0010000000 + 0x4000 * (c + 1)) else if r = 4 then e.words[2]
      else if r = 5 then BitVec.ofNat 64 i else if r = 6 then BitVec.ofNat 64 p.ctxs.length else if r = 7 then BitVec.ofNat 64 n
      else 0#64) ∧
    a.first.toNat = b.1 ∧ a.lanes.toNat = b.2 ∧ a.nfirst = a.first ∧ a.nlanes = a.lanes ∧ a.ten = e.ten ∧ a.asid = e.asid ∧
    a.srcq = BitVec.ofNat 12 e.id.queue.val ∧ a.seq = BitVec.ofNat 32 e.id.seq
/-- No event of an entry is due in this kiln cycle (spec/14_harts_kiln.md R342). -/
def NothingDue (s : State) (x : Entry) : Prop :=
  completeNow s x = false ∧ (x.left ≠ 0 ∨ (x.state ≠ .running ∧ x.state ≠ .preempted)) ∧
  (s.kclock < x.deadline ∨ x.missed = true) ∧ x.watched < x.watch
/-- An entry ends with a code (R342): its harts end, and its status becomes final, with nothing but what its work has cost changed in
it before. -/
def EndsEntry (s : State) (id : EntryId) (code : Nat) (t : State) : Prop :=
  ∀ e, entryOf s id = some e → ∃ v x, t = finalEntry v x .ended code ∧
    x = { e with gangs := [], left := x.left, overdraft := x.overdraft } ∧ entryOf t id = none ∧
    ∀ h, (hartOf s h).task = some id → (hartOf t h).task = none ∧ (hartOf t h).status = .idle
/-- What a final status leaves (R332): the status word, STATE, CODE and DEPUNDER below the rest of word 0, goes to the completion signal,
or its fault to a record; then the successor is decremented where SUCC or SUCCALL asks for it; then the word goes to the ring slot
that RIDX has not passed. -/
def FinalLeaves (s : State) (e : Entry) (st : EntryState) (code : Nat) : Prop :=
  let x := { e with state := st, code := code }
  let t := finalEntry s e st code
  let word := ((e.words[0].toNat / 2 ^ 17 * 2 + if e.depUnder then 1 else 0) * 256 + code % 256) * 256 + st.code
  let u := putEntry s x
  let c := kilnCtx u e.die e.asid.toNat .s
  let succ := (st = .done ∧ e.words[0].getLsbD 48 = true) ∨ ((st = .rejected ∨ st = .ended) ∧ e.words[0].getLsbD 49 = true)
  entryOf t e.id = none ∧ ∃ v : State,
    (e.words[6] = 0#64 → v = u) ∧
    (e.words[6] ≠ 0#64 → (∀ l, resolve u c .write e.words[6].toNat = .ok l → v = writeLoc u l 8 word) ∧
      (∀ f, resolve u c .write e.words[6].toNat = .error f → v = postNote u e.ten 7 f.cause 0 (BitVec.ofNat 64 f.va)
        (recordKiln e.die.val e.asid.toNat) (recordEntry (some e.id)) (some f.acc))) ∧
    (succ → e.slot = none → t = { (decrementSuccessor v x).1 with
      entries := (decrementSuccessor v x).1.entries.filter (fun y => y.id != e.id) ++
        if (decrementSuccessor v x).2 then [{ x with retry := true }] else [] }) ∧
    (¬ succ → e.slot = none → t = { v with entries := v.entries.filter (fun y => y.id != e.id) }) ∧
    (∀ n, ¬ succ → e.slot = some n → let q := queueOf v e.id.queue.val
      (n < q.ridx → t = { v with entries := v.entries.filter (fun y => y.id != e.id) }) ∧
      (∀ l, q.ridx ≤ n → resolve v c .write (slotVa q n) = .ok l →
        t = { writeLoc v l 8 word with entries := v.entries.filter (fun y => y.id != e.id) }))

end Machine
end Sys2Proof

/-- Tasks: `DISPATCH_PASS`, `HART_STOP`, `RECLAIM_TIMEOUT`, `TASK_COMPLETION`, `BUDGET_EXHAUSTED`, `OVERRUN`, `DEADLINE` and `WATCHDOG`
(spec/14_harts_kiln.md R315, R332-R334, R338-R340, R342; spec/17_traps.md R398, R400, R414): the order of a pass, where it places a
task, what the task's harts start with, and whom it may shrink or pre-empt; of what falls due in one kiln cycle, a completion comes
first, then the end of the budget, the deadline and the watchdog. That the share bounds a task that resumes, and that all its harts
are then halved alike, is the model's reading (logs 20 and 35). -/
def Obligations.TaskEventsStartStopAndEndTasks : Prop :=
  (∀ s (die : Fin 8), s.drain = [] → passOrder s die.val = [] → exec (.dispatchPass die) s = .next s) ∧
  (∀ s (die : Fin 8), TakenInOrder s die.val (passOrder s die.val)) ∧
  (∀ s e, (e.state = .ready → requestOk e.words[3].toNat = true → PlacedFirst s e) ∧ (e.state = .preempted → PlacedAgain s e)) ∧
  (∀ s e pl, e.state ≠ .preempted → StartsHarts s e pl) ∧
  (∀ s e, ∃ vs : List Entry, victims s e = vs ∧ vs.Pairwise (fun a b => b.deadline ≤ a.deadline) ∧
    ∀ x, x ∈ vs ↔ x ∈ s.entries ∧ x.die = e.die ∧ x.state = .running ∧ e.deadline < x.deadline) ∧
  (∀ s (die : Fin 8) k l d, s.drain = [(die.val, d)] → passOrder s die.val = k :: l → k ≠ d → (entryOf s d).isSome = true →
    (entryOf s k).isSome = true → exec (.dispatchPass die) s = .next s) ∧
  (∀ s (die : Fin 8) a b pl u, s.drain = [] → passOrder s die.val = [a.id, b.id] → a.id ≠ b.id → entryOf s a.id = some a →
    entryOf s b.id = some b → a.skips < 16 → b.skips < 16 → fits s [] a = none → fits (freed s) [] a = none →
    makeRoom [] a.id s ((changes s (victims s a)).length + 1) (changes s (victims s a)) = none →
    fits s [] b = some pl → setAside pl s (displaced s die.val pl) = .ok u → ∃ t, exec (.dispatchPass die) s = .next t ∧
      (entryOf t a.id).map (fun x => (x.state, x.skips)) = some (a.state, a.skips + 1) ∧
      (entryOf t b.id).map (fun x => (x.state, x.skips)) = some (.running, 0) ∧
      t.drain = if a.skips = 15 then [(die.val, a.id)] else []) ∧
  (∀ s (die : Fin 8) e pl u, s.drain = [] → passOrder s die.val = [e.id] → entryOf s e.id = some e → e.skips < 16 →
    fits s [] e = some pl → setAside pl s (displaced s die.val pl) = .ok u →
    exec (.dispatchPass die) s = .next (launch u e pl) ∧
    (∃ x, entryOf (launch u e pl) e.id = some x ∧ x.state = .running ∧ x.skips = 0 ∧
      (e.state ≠ .preempted → x.gangs.map (fun g => g.row) = pl.map (fun p => p.row)))) ∧
  (∀ s h e x, (hartOf s h).task = some e → entryOf s e = some x → x.state = .preempted → (hartOf s h).stopped = false →
    (hartOf s h).status ≠ .idle → exec (.hartStop h) s = .next (putAgent s { hartOf s h with
      stopped := true, vec := freezeRun (hartOf s h).vec })) ∧
  (∀ s h, let a := hartOf s h
    let within := lanesWithin (inForce a) (pendingBlock a)
    (a.kept ≠ none ∨ (within = false ∧ a.reclaimed = false)) → holdsLanes s a = true →
    ∃ t, exec (.reclaimTimeout h) s = .next t ∧ (hartOf t h).kept = none ∧ (hartOf t h).reclaimed = (a.reclaimed || !within) ∧
      (hartOf t h).pc = a.pc ∧ (hartOf t h).g = a.g ∧ t.mem = s.mem) ∧
  (∀ s e x, entryOf s e = some x → x.state = .running → liveHarts s e = [] →
    (∀ c ∈ s.cmds, c.task = some e → c.phase = .final) → (∀ c ∈ s.colls, c.task = some e → c.code ≠ 2) →
    (x.missed = false ∨ x.deadline < s.kclock) →
    let t := finalEntry (releaseTask s x) { x with gangs := [] } .done (if x.deadline < s.kclock then 32 else 0)
    exec (.taskCompletion e) s = .next t ∧ entryOf t e = none) ∧
  (∀ s e x, entryOf s e = some x → completeNow s x = true →
    ∀ i ∈ [Instr.budgetExhausted e, .deadline e, .watchdog e], exec i s = exec (.taskCompletion e) s) ∧
  (∀ s e x, entryOf s e = some x → completeNow s x = false → x.left = 0 → (x.state = .running ∨ x.state = .preempted) →
    (x.ext = true → exec (.budgetExhausted e) s = .next (endEntry s e 16)) ∧
    (x.exhausted = false → overrunTarget s x = none → exec (.budgetExhausted e) s = .next (endEntry s e 16)) ∧
    (∀ h, x.exhausted = false → x.ext = false → overrunTarget s x = some h → ∃ t, exec (.budgetExhausted e) s = .next t ∧
      ∀ k, (hartOf s k).task = some e → (hartOf s k).status ≠ .idle →
        (k = h → (hartOf t k).overrun = true ∧ (hartOf t k).held = false) ∧ (k ≠ h → (hartOf t k).held = true))) ∧
  (∀ s e x h, entryOf s e = some x → x.target = some h → (hartOf s h).overrun = true → (hartOf s h).mode = .u →
    (hartOf s h).status = .running → (hartOf s h).stopped = false → (hartOf s h).halted = false →
    (∀ k z, (hartOf s h).task = some k → entryOf s k = some z → taskHalted s z = false) →
    ∃ t, exec (.overrun e) s = .next t ∧ t.me.id = s.me.id ∧ (hartOf t h).overrun = false ∧ (hartOf t h).mode = .s ∧
      (hartOf t h).xcause = 15#8 ∧ (hartOf t h).xasync = true ∧ (hartOf t h).pc = (tenOf s (hartOf s h).ten.toNat).htvec ∧
      (hartOf t h).g = (hartOf s h).g) ∧
  (∀ s e x, entryOf s e = some x → completeNow s x = false → x.left ≠ 0 → x.deadline ≤ s.kclock → x.missed = false → ∃ t, exec (.deadline e) s = .next t ∧
    entryOf t e = if bit x.words[0] 50 then none else some { x with missed := true }) ∧
  (∀ s e x, entryOf s e = some x → completeNow s x = false → x.left ≠ 0 → (s.kclock < x.deadline ∨ x.missed = true) →
    x.watch ≤ x.watched → exec (.watchdog e) s = .next (endEntry s e 18) ∧ entryOf (endEntry s e 18) e = none) ∧
  (∀ s e code, EndsEntry s e code (endEntry s e code)) ∧
  (∀ s x st code, (st = .done ∨ st = .rejected ∨ st = .ended) → FinalLeaves s x st code)

/-- Engine commands: `COMMAND_ACCEPT`, `COMMAND_END`, `CHECKPOINT_PAUSE` and `ENGINE_STALL` (spec/12_atomics_engines.md R267, R273,
R276, R277): the code of one that is refused, which faults stall one and which end it, where one pauses; and what a command that ends
moves and leaves (R268-R271). -/
def Obligations.EngineEventsAcceptEndPauseAndStall : Prop :=
  ∀ s h n c, commandOf s h n = some c →
    (c.phase = .issued → taskPaused s h c.task = false →
      (∀ x ∈ s.cmds, x.owner = h → x.ticket < n → x.phase ≠ .issued) →
      ∃ t, exec (.commandAccept h n) s = .next t ∧ t = { s with cmds := t.cmds } ∧
        commandOf t h n = some (match refusedWith c with
          | some code => { c with phase := .final, code := code }
          | none => { c with phase := .running })) ∧
    (∀ code, goesOn s c = true → (advance s c false).code = some code → ∃ t x, exec (.commandEnd h n) s = .next t ∧
      commandOf t h n = some x ∧ x.phase = .final ∧ x.code = code ∧ x.written = (advance s c false).c.written) ∧
    (∀ d sr code, goesOn s c = true → c.dst = some d → c.src = some sr → refusedWith c = none → (advance s c false).code = some code →
      code ≤ 1 → CommandMoves (.commandEnd h n) s c d sr code) ∧
    (∀ d sr counts, goesOn s c = true → c.dst = some d → c.src = some sr → c.form = .winnow → c.counts = none → CountsAre s c sr counts →
      let exceeds := counts.any (fun x => decide (sr.count / max 1 (segments sr) < x))
      exceeds = true ∨ d.count < counts.sum → ∃ t, exec (.commandEnd h n) s = .next t ∧
        t = { s with entries := t.entries, cmds := t.cmds } ∧
        (commandOf t h n).map (fun x => x.code) = some (if exceeds = true then 9 else 10)) ∧
    (c.phase = .running ∨ goesOn s c = true → (advance s c true).fault = none →
      (∀ code, (advance s c true).code = some code → ∃ t x, exec (.checkpointPause h n) s = .next t ∧
        commandOf t h n = some x ∧ x.phase = .final ∧ x.code = code) ∧
      ((advance s c true).code = none → ∃ t x, exec (.checkpointPause h n) s = .next t ∧ commandOf t h n = some x ∧
        x.phase = (if taskPaused s h c.task then .paused else .running) ∧ x.next = (advance s c true).c.next)) ∧
    (∀ f, goesOn s c = true → (advance s c false).fault = some f → ∃ t x token, exec (.engineStall h n) s = .next t ∧
      commandOf t h n = some x ∧ x.phase = .stalled token ∧ x.next = (advance s c false).c.next ∧
      ∃ r ∈ t.records, r.token = token ∧ r.subject = .command h n ∧ r.answered = none) ∧
    (goesOn s c = true → CommandStops s h n c) ∧
    (c.phase = .running ∨ goesOn s c = true → PausesAt s h n c) ∧
    (goesOn s c = true ↔ (c.phase = .running ∨ c.phase = .paused) ∧ taskPaused s c.owner c.task = false)

/-- The frames of collectives (spec/15_links_collectives.md R345, R346, R353-R355): how one leaves, and `DATA`, `CREDIT`, `ABORT`,
`PROBE`, `REPLY` as they come. A DATA frame within the window is taken, by a member that is paused or stalled too, and gives no CREDIT
before its chunk is consumed. That a chunk outside the window is dropped, that a member that is pending or DONE counts a CREDIT and
answers a PROBE, and that a DATA or ABORT frame that comes before its member has issued is held for it, are the model's choice (log 18);
the bytes around the fields of R353 are those of log 30. -/
def Obligations.CollectiveFramesAreTaken : Prop :=
  (∀ s port station f,
    (∀ n, portWith s station = some n → sendFrame s port station f = { s with inside := s.inside ++ [(n, f)] }) ∧
    (portWith s station = none →
      let p := portOf s port
      let bytes := onWire p (etherFrame p station 0x88B5 (frameBytes f))
      (p.paused = true ∧ framePriority p = p.prio →
        sendFrame s port station f = { s with heldFrames := s.heldFrames ++ [(port, bytes)] }) ∧
      (¬ (p.paused = true ∧ framePriority p = p.prio) →
        sendFrame s port station f = { s with sent := s.sent ++ [.frame port bytes] }))) ∧
  (∀ s p f c q, frameColl s 0 f = some c → c.past = false → c.code = 2 → headerOk c f = true → f.chunk < chunksOf c →
    f.payload.length = chunkLen c f.chunk → c.peers.find? (fun x => x.rank == f.src) = some q →
    (q.got.any (fun g => g.1 == f.chunk) = true ∨ q.used + 64 ≤ f.chunk → exec (.dataFrame p f) s = .next s) ∧
    (q.got.any (fun g => g.1 == f.chunk) = false → f.chunk < q.used + 64 → exec (.dataFrame p f) s = .next (putColl s { c with
      peers := c.peers.map (fun x => if x.rank == f.src then { x with got := (f.chunk, f.payload) :: x.got } else x) }))) ∧
  (∀ s p f c, frameColl s 0 f = some c → c.past = false → c.code = 2 →
    (headerOk c f = false ∨ chunksOf c ≤ f.chunk ∨ f.payload.length ≠ chunkLen c f.chunk) →
    EndsWith (.dataFrame p f) s c 15) ∧
  (∀ s p f c, frameColl s 1 f = some c →
    ((c.code = 2 ∨ c.code = 0) → headerOk c f = true → exec (.creditFrame p f) s = .next (putColl s { c with
      peers := c.peers.map (fun x => if x.rank == f.src then { x with credit := f.chunk } else x) })) ∧
    (c.past = false → c.code = 2 → headerOk c f = false → EndsWith (.creditFrame p f) s c 15) ∧
    ((c.code = 0 → headerOk c f = false) → c.code ≠ 2 → exec (.creditFrame p f) s = .next s)) ∧
  (∀ s p f c, frameColl s 2 f = some c → c.past = false → c.code = 2 →
    EndsWith (.abortFrame p f) s c (if f.code = 15 ∨ headerOk c f = false then 15 else 14)) ∧
  (∀ s p f g, f.ver = 1 → f.kind = 2 ∨ (f.kind = 0 ∧ f.chunk < 64) → frameColl s f.kind f = none →
    s.groups.find? (fun x => x.2.valid && x.2.group.toNat == f.group) = some g → s.early.contains (g.2.ten.toNat, f) = false →
    exec (if f.kind = 2 then .abortFrame p f else .dataFrame p f) s = .next { s with early := s.early ++ [(g.2.ten.toNat, f)] }) ∧
  (∀ s h n c f, collOf s h n = some c → c.code = 2 → s.early = [(c.ten.toNat, f)] → f.kind = 2 → f.group = c.group →
    f.cseq = c.cseq → f.dst = c.rank →
    (collOf (takeEarly s h n) h n).map (fun x => x.code) = some (if f.code = 15 ∨ headerOk c f = false then 15 else 14)) ∧
  (∀ s p f c, frameColl s 3 f = some c →
    (c.code ≠ 2 → c.code ≠ 0 → exec (.probeFrame p f) s = .next s) ∧
    (c.past = false → c.code = 2 → headerOk c f = false → EndsWith (.probeFrame p f) s c 15) ∧
    (c.code = 0 ∨ (c.code = 2 ∧ headerOk c f = true) →
      exec (.probeFrame p f) s = .next (sendTo s c 4 f.src 0 0 false []))) ∧
  (∀ s p f c, frameColl s 4 f = some c →
    (c.past = false → c.code = 2 → headerOk c f = false → EndsWith (.replyFrame p f) s c 15) ∧
    ((c.code = 2 → headerOk c f = true) → exec (.replyFrame p f) s = .next (putColl s { c with
      peers := c.peers.map (fun x => if x.rank == f.src then { x with probing := false } else x) })))

namespace Sys2Proof
namespace Machine

/-- A byte of the piece of a rank: the member's own, or of the chunk that came from it (spec/15_links_collectives.md R353, R354). -/
def pieceByte (c : Coll) (r pos : Nat) : Byte :=
  if r = c.rank then c.local_.getD pos 0#8
  else (((c.peers.find? (fun p => p.rank == r)).bind (fun p => p.got.find? (fun g => g.1 == pos / 4096))).map
    (fun g => g.2.getD (pos % 4096) 0#8)).getD 0#8
/-- x_r[m] of R351, of e bytes. -/
def pieceAt (c : Coll) (e r m : Nat) : Nat := ((List.range e).map (fun b => (pieceByte c r (m * e + b)).toNat * 256 ^ b)).sum
/-- The piece of a rank is there, in whole chunks. -/
def PieceThere (c : Coll) (bytes r : Nat) : Prop :=
  (r = c.rank → c.local_.length = bytes) ∧
  (r ≠ c.rank → ∃ p, c.peers.find? (fun p => p.rank == r) = some p ∧ ∀ k, 4096 * k < bytes →
    ∃ l, p.got.find? (fun g => g.1 == k) = some (k, l) ∧ l.length = min 4096 (bytes - 4096 * k))
/-- fold(m) of R351: the pieces' elements combined in ascending rank, each step rounded by rm, with the key SEED + m (R349). -/
def folded (c : Coll) (e m : Nat) : FRes :=
  inOrderFrom (combineOf c.op c.ty)
    (fun _ => { mode := c.rm, bits := if c.rm = 5 then srBits (c.seed + BitVec.ofNat 64 m) else 0 }) (fun r => pieceAt c e r m)
    (List.range' 1 (c.members.length - 1)) (pieceAt c e 0 m, 0#5)
/-- What a collective gives its member (R351): form 0 a reduce, 1 a broadcast, 2 an all-gather, 3 a reduce-scatter. The flags are those
of every step on every member. -/
def CollYields (c : Coll) : Prop :=
  ∀ d sr, c.dst = some d → c.src = some sr →
    let e := sr.esz
    let M := c.members.length
    let bytes := sr.count * e
    let anyFlag := ∀ b, (collResult c).2.getLsbD b = true ↔ ∃ m < sr.count, (folded c e m).2.getLsbD b = true
    (c.form = 0 → 8 * e = elemW c.ty → d.count = sr.count → (∀ r < M, PieceThere c bytes r) →
      (collResult c).1 = (List.range d.count).map (fun m => (folded c e m).1) ∧ anyFlag) ∧
    (c.form = 1 → d.count = sr.count → c.root < M → PieceThere c bytes c.root →
      collResult c = ((List.range d.count).map (pieceAt c e c.root), 0#5)) ∧
    (c.form = 2 → d.count = M * sr.count → (∀ r < M, PieceThere c bytes r) →
      collResult c = ((List.range d.count).map (fun m => pieceAt c e (m / sr.count) (m % sr.count)), 0#5)) ∧
    (c.form = 3 → 8 * e = elemW c.ty → sr.count = M * d.count → c.rank < M → (∀ r < M, PieceThere c bytes r) →
      (collResult c).1 = (List.range d.count).map (fun m => (folded c e (c.rank * d.count + m)).1) ∧ anyFlag)

end Machine
end Sys2Proof

/-- The time-outs, the end and the checkpoints of collectives (R353-R356), and what each form leaves in the destination (R351): a chunk
that the window admits and no credit covers is sent again, up to 8 times, after its member's task too. A member that is not paused
consumes the chunks that have come, one at a checkpoint, and its CREDIT counts the chunks consumed; so a peer runs at most 64 chunks
ahead of it. A member ends once it has consumed every piece that it needs and sent its own. That a member sends its whole piece, chunk by
chunk, to every other member, and consumes before it reads or sends, is the model's choice (log 18). -/
def Obligations.CollectivesResendProbeEndAndPause : Prop :=
  (∀ c, c.op < 6 → c.ty < 12 → 0 < c.members.length → CollYields c) ∧
  (∀ c r k, owes c r k = true ↔ (c.code = 2 ∨ c.code = 0) ∧ ∃ p, c.peers.find? (fun x => x.rank == r) = some p ∧ p.credit ≤ k ∧
    k < p.sent ∧ k < p.credit + 64 ∧ (p.resent.filter (· == k)).length < 8) ∧
  (∀ c, collReady c = true ↔ (∀ p ∈ c.peers, (c.form = 1 → p.rank = c.root) → p.used = chunksOf c) ∧
    ((c.form = 1 → c.rank = c.root) → c.local_.length = pieceBytes c ∧ ∀ p ∈ c.peers, p.sent = chunksOf c)) ∧
  (∀ s h n r k c, s.colls.find? (fun x => x.owner == h && x.ticket == n && owes x r k) = some c →
    ∃ t, exec (.resendTimeout h n r k) s = .next t ∧
      t = { sendTo s c 0 r k 0 (k + 1 == chunksOf c) (chunkBytes c k) with colls := t.colls }) ∧
  ∀ s h n c, collOf s h n = some c →
    (∀ r, c.code = 2 → r < c.members.length → r ≠ c.rank → ∃ t, exec (.silenceTimeout h n r) s = .next t ∧
      t = { sendTo s c 3 r 0 0 false [] with colls := t.colls } ∧
      ∀ x, collOf t h n = some x → ∀ p ∈ x.peers, p.rank = r → p.probing = true) ∧
    (∀ r, c.code = 2 → c.peers.any (fun p => p.rank == r && p.probing) = true → EndsWith (.unreachablePeer h n r) s c 16) ∧
    (∀ d t, c.code = 2 → c.stall = none → taskPaused s h c.task = false → collReady c = true → c.dst = some d →
      writeElems s c d 0 (collResult c).1 = .ok t → ∃ z, exec (.collectiveEnd h n) s = .next z ∧ z.mem = t.mem ∧
        z.sent = t.sent ∧ (collOf z h n).map (fun x => (x.code, x.flags)) = some (0, (collResult c).2)) ∧
    (c.code = 2 → taskPaused s h c.task = true →
      exec (.collectiveCheckpoint h n) s = .next (putColl s { c with paused := true })) ∧
    (c.code = 2 → taskPaused s h c.task = false → c.stall = none →
      ∀ p, c.peers.find? (fun x => x.got.any (fun g => g.1 == x.used)) = some p →
      ∃ t, exec (.collectiveCheckpoint h n) s = .next t ∧
        t = { sendTo s c 1 p.rank (p.used + 1) 0 false [] with colls := t.colls } ∧
        collOf t h n = some { c with
          paused := false, peers := c.peers.map (fun x => if x.rank == p.rank then { x with used := x.used + 1 } else x) }) ∧
    (c.code = 2 → taskPaused s h c.task = false → c.stall = none → sends c = true → pieceBytes c ≤ c.local_.length →
      c.peers.all (fun x => !x.got.any (fun g => g.1 == x.used)) = true →
      ∀ p, c.peers.find? (fun x => decide (x.sent < min (chunksOf c) (x.credit + 64))) = some p →
      let u := sendTo s c 0 p.rank p.sent 0 (p.sent + 1 == chunksOf c) (chunkBytes c p.sent)
      ∃ t, exec (.collectiveCheckpoint h n) s = .next t ∧ t.sent = u.sent ∧ t.inside = u.inside ∧ t.heldFrames = u.heldFrames ∧
        (collOf t h n).map (fun x => x.chunks) = some (c.chunks + 1) ∧ t.entries = (charge s c.task 128).entries)

/-- Ports and the management port: `PORT_RECEIVE`, `PORT_TRANSMIT`, `PRIORITY_FLOW_CONTROL`, `MGMT_READ`, `MGMT_WRITE`
(spec/15_links_collectives.md R345; spec/16_isolation.md R374, R384, R385). A port's tag, the length of its frames, and which of them
flow control has wait are as log 30 says, and that a ring outside HBM4E reads zero; that a misaligned, over-long or reserved access of the management window is RANGE, and
that RANGE comes before DENIED, is the model's reading (log 15). -/
def Obligations.PortEventsMoveFramesAndReply : Prop :=
  (∀ s (n : Fin 16) f, etherType f ≠ 0x88B5 → etherType f ≠ 0x8808 →
    let p := portOf s n.val
    let wi := phys64 s p.rxbase.toNat
    let full := 2 ^ p.rxlog2.toNat ≤ (wi + 2 ^ 64 - phys64 s (p.rxbase.toNat + 8)) % 2 ^ 64
    let slot := p.rxbase.toNat + 64 + 16384 * (wi % 2 ^ p.rxlog2.toNat)
    (60 ≤ f.length → f.length ≤ 9212 → p.rxlog2 ≠ 0#5 → ¬ full → exec (.portReceive n f) s = .next
      (writePhys (writeBytes (writePhys s slot 8 f.length) (slot + 8) f) p.rxbase.toNat 8 (wi + 1))) ∧
    ((f.length < 60 ∨ 9212 < f.length ∨ p.rxlog2 = 0#5 ∨ full) →
      exec (.portReceive n f) s = .next (putPort s n.val { p with drops := p.drops + 1#32 }))) ∧
  (∀ s (n : Fin 16), let p := portOf s n.val
    let ri := phys64 s (p.txbase.toNat + 8)
    let slot := p.txbase.toNat + 64 + 16384 * (ri % 2 ^ p.txlog2.toNat)
    let len := phys64 s slot
    (p.txlog2 = 0#5 ∨ phys64 s p.txbase.toNat = ri ∨ (p.paused = true ∧ framePriority p = p.prio) →
      exec (.portTransmit n) s = .next s) ∧
    (p.txlog2 ≠ 0#5 → phys64 s p.txbase.toNat ≠ ri → ¬ (p.paused = true ∧ framePriority p = p.prio) →
      (14 ≤ len → len ≤ 9216 → exec (.portTransmit n) s = .next (writePhys { s with sent := s.sent ++ [.frame n.val (onWire p
          ((List.range len).map (fun k => physByte s (slot + 8 + k))))] } (p.txbase.toNat + 8) 8 (ri + 1))) ∧
      ((len < 14 ∨ 9216 < len) → exec (.portTransmit n) s =
        .next (writePhys (putPort s n.val { p with drops := p.drops + 1#32 }) (p.txbase.toNat + 8) 8 (ri + 1))))) ∧
  (∀ s (n : Fin 16) (k : Fin 8) b, (portOf s n.val).prio.toNat = k.val →
    let p := portOf s n.val
    let t := putPort s n.val { p with paused := b }
    (b = true → framePriority p = p.prio → exec (.priorityFlowControl n k b) s = .next t) ∧
    ((b = false ∨ framePriority p ≠ p.prio) → exec (.priorityFlowControl n k b) s = .next { t with
      sent := s.sent ++ (s.heldFrames.filter (fun x => x.1 == n.val)).map (fun x => .frame n.val x.2)
      heldFrames := s.heldFrames.filter (fun x => x.1 != n.val) })) ∧
  (∀ s tag, Replies (.mgmtRead tag 0 8) s s tag 0 (leBytes 8 s.bootstat.toNat)) ∧
  (∀ s tag off len, (off % 8 = 0 ∧ len % 8 = 0 ∧ len ≤ 1024 ∧ off + len ≤ 4096 → ∀ l, windowRead s off (len / 8) = some l →
      Replies (.mgmtRead tag off len) s s tag 0 l) ∧
    ((off % 8 ≠ 0 ∨ len % 8 ≠ 0 ∨ 1024 < len ∨ 4096 < off + len ∨ windowRead s off (len / 8) = none) →
      Replies (.mgmtRead tag off len) s s tag 2 [])) ∧
  (∀ s tag off (l : List Byte), let ok := off % 8 = 0 ∧ l.length % 8 = 0 ∧ l.length ≤ 1024 ∧ off + l.length ≤ 4096
    (¬ ok → Replies (.mgmtWrite tag off l) s s tag 2 []) ∧
    (ok → portMayWrite s off l.length = false → Replies (.mgmtWrite tag off l) s s tag 1 []) ∧
    (ok → portMayWrite s off l.length = true →
      (∀ t, windowWrite s off (dwordsOf (l.length / 8) l) = some t → Replies (.mgmtWrite tag off l) s t tag 0 []) ∧
      (windowWrite s off (dwordsOf (l.length / 8) l) = none → Replies (.mgmtWrite tag off l) s s tag 2 [])))

/-- The SPDM requests (spec/16_isolation.md R383): each that is heard is answered in the REPLY, or in the mailbox, with the message
that `spdmResponse` gives, and the exchange goes on to where it says. The bytes of the messages are those of SPDM 1.2, and which
request is heard, and when one comes out of order, is the model's reading (log 11). -/
def Obligations.SpdmRequestsAreAnswered : Prop :=
  (∀ x ∈ [(Instr.getVersion, 0x84), (.getCapabilities, 0xE1), (.negotiateAlgorithms, 0xE3), (.getDigests, 0x81),
      (.getCertificate, 0x82), (.challenge, 0x83), (.getMeasurements, 0xE0)],
    ∀ s req, req.code = x.2 →
      (∀ tag, req.via = .port tag → s.mailbox.owner ≠ 2#2 →
        Replies (x.1 req) s { s with spdm := (spdmResponse s req).1 } tag 0 (spdmResponse s req).2) ∧
      (∀ tag, req.via = .port tag → s.mailbox.owner = 2#2 → exec (x.1 req) s = .next s) ∧
      (req.via = .mailbox → s.mailbox.owner = 2#2 → s.mailbox.length.toNat ≤ 0x3F0 →
        req.bytes = (List.range s.mailbox.length.toNat).map (fun k => Memory.read s.mailbox.bytes k) →
        ∃ t, exec (x.1 req) s = .next t ∧
          t = { s with mailbox := t.mailbox, spdm := (spdmResponse s req).1, tick := t.tick } ∧ t.mailbox.owner = 2#2 ∧
          t.mailbox.length = BitVec.ofNat 64 (spdmResponse s req).2.length ∧
          (Memory.wf s.mailbox.bytes = true → ∀ k, k < (spdmResponse s req).2.length →
            Memory.read t.mailbox.bytes k = (spdmResponse s req).2.getD k 0#8))) ∧
  (∀ s req tag, req.code ∉ [0x84, 0xE1, 0xE3, 0x81, 0x82, 0x83, 0xE0] → req.via = .port tag → s.mailbox.owner ≠ 2#2 →
    Replies (.unsupportedRequest req) s s tag 0 [0x12#8, 0x7F#8, 0x07#8, BitVec.ofNat 8 req.code]) ∧
  (∀ s req, let r := spdmResponse s req
    let b := req.bytes
    let error (code : Nat) : Nat × List Byte := (s.spdm, [0x12#8, 0x7F#8, BitVec.ofNat 8 code, 0#8])
    (req.code = 0x84 → r = (1, [0x10#8, 0x04#8, 0#8, 0#8, 0#8, 1#8, 0x00#8, 0x12#8])) ∧
    (req.code ∈ [0xE1, 0xE3, 0x81, 0x82, 0x83, 0xE0] →
      (fieldLE b 0 1 ≠ 0x12 → r = error 0x41) ∧
      (fieldLE b 0 1 = 0x12 →
        (req.code = 0xE1 → (s.spdm = 1 ∨ s.spdm = 2 → r.1 = 2 ∧ r.2.take 2 = [0x12#8, 0x61#8]) ∧
          (s.spdm ≠ 1 → s.spdm ≠ 2 → r = error 0x04)) ∧
        (req.code = 0xE3 → (2 ≤ s.spdm → r.1 = 3 ∧ r.2.take 2 = [0x12#8, 0x63#8]) ∧ (s.spdm < 2 → r = error 0x04)) ∧
        (req.code ∈ [0x81, 0x82, 0x83, 0xE0] → s.spdm < 3 → r = error 0x04) ∧
        (3 ≤ s.spdm →
          (req.code = 0x81 → r = (s.spdm, [0x12#8, 0x01#8, 0#8, 1#8] ++ sha512Bytes Config.certChain)) ∧
          (req.code = 0x82 → fieldLE b 2 1 % 16 ≠ 0 → r = error 0x01) ∧
          (req.code = 0xE0 → fieldLE b 2 1 % 2 = 0 → let op := fieldLE b 3 1
            (op = 0 → r.2.take 5 = [0x12#8, 0x60#8, 9#8, 0#8, 0#8]) ∧
            (∀ i : Fin 8, op = i.val + 1 → ∃ kind tail, r.2 = [0x12#8, 0x60#8, 0#8, 0#8, 1#8] ++ leBytes 3 71 ++
              ([BitVec.ofNat 8 op, 1#8] ++ leBytes 2 67 ++ [kind] ++ leBytes 2 64 ++ leBytes 64 s.bmeas[i].toNat) ++ tail) ∧
            (9 < op → op ≠ 0xFF → r = error 0x01))))))

namespace Sys2Proof
namespace Machine

/-- What a READ finds of the fields that a WRITE by M mode set (spec/16_isolation.md R370-R373): each RW field as it was written, the
others as they are, and zero in the words that the object lacks. A measurement is extended by the words (R382). -/
def WriteReadsBack (u : State) : Prop :=
  let c := u.me.cc
  let n := c.index.toNat
  let d := c.objd
  let v := (command u 2).1
  let w := (command v 1).2.2
  u.me.mode = .m → (command u 2).2.1 = 0 →
    (c.kind = 1#4 → (command v 1).2.1 = 0 ∧
      w[0] = BitVec.ofNat 64 ((if (tenOf u n).rst then 2 ^ 62 else 0) + d[0].toNat % 256) ∧ w[1] = d[1] ∧ w[2] = d[2] ∧ w[3] = d[3] ∧
      w[4] = d[4] ∧ w[5] = (tenOf u n).fqlost.setWidth 64 ∧ w[6] = 0#64 ∧ w[7] = 0#64) ∧
    (c.kind = 2#4 ∨ c.kind = 3#4 ∨ c.kind = 6#4 → (command v 1).2.1 = 0 ∧ w = d) ∧
    (c.kind = 4#4 → (d[0].getLsbD 63 = true → (queueOf u n).en = true ∨ (queueOf u n).widx ≤ (queueOf u n).ridx) →
      (command v 1).2.1 = 0 ∧ w[0] = d[0] ∧ w[1] = d[1] ∧ w[2] = d[2] ∧ w[3] = qstatWord (queueOf v n) ∧
      w[4] = 0#64 ∧ w[5] = 0#64 ∧ w[6] = 0#64 ∧ w[7] = 0#64) ∧
    (c.kind = 5#4 → (command v 1).2.1 = 0 ∧ w[5] = (portOf u n).drops.setWidth 64 ∧ ∀ i : Fin 8, i ≠ 5 → w[i] = d[i]) ∧
    (c.kind = 9#4 → (command v 1).2.1 = 0 ∧ 3 ≤ n ∧ (∀ i : Fin 8, i.val ≠ n → v.bmeas[i] = u.bmeas[i]) ∧
      ∀ k : Fin 8, k.val = n → ∀ i : Fin 8, w[i] = (sha512 (leBytes 64 u.bmeas[k].toNat ++
        d.toList.flatMap (fun x => leBytes 8 x.toNat))).extractLsb' (64 * i.val) 64) ∧
    (c.kind = 10#4 → (command v 1).2.1 = 0 ∧ w[0].getLsbD 63 = true ∧ ∀ i : Fin 8, i ≠ 0 → w[i] = d[i]) ∧
    (c.kind = 11#4 → let h := debugHart n
      (hartOf u h).halted = true → d[0].getLsbD 63 = true → d[2].getLsbD 16 = false → d[5] = 0#64 →
      (command v 1).2.1 = 0 ∧ w[1] = d[1] ∧ w[2] = d[2] ∧ w[3] = (if d[2] = 0#64 then 0#64 else d[3]) ∧ w[4] = d[4] ∧
      (hartOf v h).pc = d[1] ∧ (hartOf v h).halted = true)
/-- An entry that its queue holds undelivered, on chip or in its ring (R377). -/
def HeldUndelivered (v : Queue) (seq : Nat) : Prop :=
  (∃ x ∈ v.slots, x.seq = seq) ∨ (v.nextSeq + 2 ^ 32 - 1 - seq) % 2 ^ 32 < v.widx - v.ridx
/-- READ and END of an entry (R373, R377), for a control core that may command its queue. -/
def EntryCommands (u : State) : Prop :=
  let c := u.me.cc
  let n := c.index.toNat
  let seq := c.objd[0].toNat % 2 ^ 32
  let id := entryId n seq
  let w := (command u 1).2.2
  c.kind = 7#4 → n < 4096 → (u.me.mode = .m ∨ u.me.cc.tenmask.getLsbD (queueTen u n).toNat = true) →
    (∀ e, entryOf u id = some e → (command u 1).2.1 = 0 ∧ w[0].toNat % 256 = e.state.code ∧
      w[0].toNat / 256 % 256 = e.code % 256 ∧ w[0].toNat / 2 ^ 17 = e.words[0].toNat / 2 ^ 17 ∧
      w[1].toNat = min (e.deadline - u.kclock) (2 ^ 40 - 1) ∧
      w[2] = (if e.gangs = [] then e.words[5] else BitVec.ofNat 64 (min (e.left / 128) (2 ^ 48 - 1))) ∧
      (NothingDue u e → (command u 5).2.1 = 0 ∧ EndsEntry u id 20 (command u 5).1)) ∧
    (entryOf u id = none → HeldUndelivered (queueOf u n) seq →
      (∀ x, (queueOf u n).slots.find? (fun y => y.seq == seq) = some x → (command u 1).2.1 = 0 ∧ w[0].toNat % 256 = 0 ∧
        w[0].toNat / 256 = x.words[0].toNat / 256 ∧ w[2] = x.words[5]) ∧
      (command u 5).2.1 = 0 ∧
      ((queueOf u n).ends.contains seq = true → (command u 5).1 = u) ∧
      ((queueOf u n).ends.contains seq = false →
        (command u 5).1 = putQueue u n { queueOf u n with ends := (queueOf u n).ends ++ [seq] })) ∧
    (entryOf u id = none → ¬ HeldUndelivered (queueOf u n) seq →
      (command u 1).2.1 = 2 ∧ (command u 5).2.1 = 2 ∧ (command u 5).1 = u)
/-- READ and ANSWER of a fault record (R368, R373, R377; spec/12_atomics_engines.md R276; spec/13_chains.md R301), for a control core
that may command its tenancy: RETRY lets the parked hart, the run, the command or the collective go on; DECLINE gives the hart its
trap, or ends its task with code 20, fails the run, and ends the others with FAULT; what is pre-empted or halted keeps the answer. -/
def RecordCommands (u : State) : Prop :=
  let c := u.me.cc
  let n := c.index.toNat
  let decline := c.objd[0].getLsbD 0
  let t := (command u 6).1
  c.kind = 8#4 → (u.me.mode = .m ∨ u.me.cc.tenmask.getLsbD (n % 64) = true) →
    ((∀ r ∈ u.records, r.token = n → r.answered ≠ none) → (command u 1).2.1 = 2 ∧ (command u 6).2.1 = 2 ∧ t = u) ∧
    ∀ r, u.records.find? (fun x => x.token == n && x.answered.isNone) = some r →
      ((command u 1).2.1 = 0 ∧ (command u 1).2.2 = r.words ∧ (command u 6).2.1 = 0) ∧
      let kept := u.records.map (fun x => if x = r then { r with answered := some decline } else x)
      (∀ h page, r.subject = .hartPage h ∨ r.subject = .hartFault h → (hartOf u h).status = .parked r.token page →
        u.records.find? (fun x => x.ten == (hartOf u h).ten && x.token == r.token) = some r →
        let a := hartOf u h
        let b := { a with status := .running, overdue := a.overrun }
        (a.stopped = true ∨ a.halted = true → hartOf t h = a ∧ t.records = kept) ∧
        (a.stopped = false → a.halted = false → r ∉ t.records ∧
          (decline = false → hartOf t h = b) ∧
          (decline = true → page = true → a.mode = .u → hartOf t h = { b with
            xpc := a.pc &&& ~~~3#64, xasync := false, xcause := 4#8, xval := r.words[1], runrep := false, pm := 0#2, mode := .s
            pc := (tenOf u a.ten.toNat).htvec }) ∧
          (decline = true → page = false ∨ a.mode ≠ .u → ∀ e x, a.task = some e → entryOf u e = some x → NothingDue u x →
            ∃ v, entryOf v e = some x ∧ hartOf v h = b ∧ EndsEntry v e 20 t))) ∧
      (∀ h cause va, r.subject = .run h cause va → let a := hartOf u h
        (a.stopped = true ∨ a.halted = true → hartOf t h = a ∧ t.records = kept) ∧
        (a.stopped = false → a.halted = false → a.ten = r.ten → (a.vec.run.bind (fun x => x.stall)) = some r.token →
          r ∉ t.records ∧
          (decline = false → hartOf t h = { a with vec := { a.vec with run := a.vec.run.map (fun x => { x with stall := none }) } }) ∧
          (decline = true → (hartOf t h).vec.rRun = false ∧ (hartOf t h).vec.rFail = true ∧ (hartOf t h).vec.rPend = true ∧
            (hartOf t h).vec.runFault = some { cause := cause, xval := va, access := r.words[4].toNat % 4 }))) ∧
      (∀ h k x, r.subject = .command h k → commandOf u h k = some x →
        ((hartOf u h).stopped = true ∨ (hartOf u h).halted = true → t.cmds = u.cmds ∧ t.records = kept) ∧
        ((hartOf u h).stopped = false → (hartOf u h).halted = false → (hartOf u h).ten = r.ten → x.phase = .stalled r.token →
          r ∉ t.records ∧ (decline = false → commandOf t h k = some { x with phase := .paused }) ∧
          (decline = true → (commandOf t h k).map (fun y => (y.phase, y.code)) = some (.final, 6)))) ∧
      (∀ h k x, r.subject = .collective h k → collOf u h k = some x →
        ((hartOf u h).stopped = true ∨ (hartOf u h).halted = true → t.colls = u.colls ∧ t.records = kept) ∧
        ((hartOf u h).stopped = false → (hartOf u h).halted = false → (hartOf u h).ten = r.ten → x.stall = some r.token →
          r ∉ t.records ∧ (decline = false → collOf t h k = some { x with stall := none }) ∧
          (decline = true → (collOf t h k).map (fun y => (y.stall, y.code)) = some (none, 6))))

end Machine
end Sys2Proof

/-- The commands of a control core (spec/16_isolation.md R368, R370-R373, R377, R378), and the fault queue interrupt
(spec/17_traps.md R392): what READ finds of what WRITE left, the END of an entry, and the answers. The order of the checks of a command,
and which bits of an object's words are zero fields, are the model's readings (log 21). -/
def Obligations.ControlCoreCommandsAndInterrupt : Prop :=
  CommandForm .cmdRead 1 (fun _ => true) ∧ CommandForm .cmdWrite 2 (fun _ => true) ∧ CommandForm .treset 3 (fun _ => true) ∧
  CommandForm .trelease 4 (fun _ => true) ∧ CommandForm .endEntry 5 (fun _ => true) ∧
  CommandForm .answerRetry 6 (fun u => !u.me.cc.objd[0].getLsbD 0) ∧
  CommandForm .answerDecline 6 (fun u => u.me.cc.objd[0].getLsbD 0) ∧
  (∀ u cmd, let c := u.me.cc
    ((command u cmd).2.1 ≠ 0 → c.kind ≠ 11#4 → (command u cmd).1 = u ∧ (command u cmd).2.2 = c.objd) ∧
    (denied u c.kind.toNat c.index.toNat c.objd (cmd == 2) = true → (command u cmd).2.1 ∈ [6, 1, 2, 3]) ∧
    (u.me.mode ≠ .m → (c.kind = 5#4 ∨ c.kind = 9#4) → (command u cmd).2.1 ≠ 0)) ∧
  (∀ u, ((command u 1).2.1 = 0 → (command u 1).1 = nextTick u) ∧ WriteReadsBack u ∧ EntryCommands u ∧ RecordCommands u) ∧
  (∀ u, let c := u.me.cc
    let n := c.index.toNat
    c.kind = 1#4 → n < 64 → (u.me.mode = .m ∨ c.tenmask.getLsbD n = true) →
      (command u 3).2.1 = 0 ∧ (tenOf (command u 3).1 n).rst = true ∧
      ((tenOf u n).rst = true → (tenOf u n).quiet = false → (command u 4).2.1 = 5) ∧
      (((tenOf u n).rst = false ∨ (tenOf u n).quiet = true) → (command u 4).2.1 = 0 ∧ (tenOf (command u 4).1 n).rst = false)) ∧
  (∀ s cc, let u := switchTo s (.cc cc)
    u.me.cc.fqueue = true → u.me.mode ≠ .m → ∃ t, exec (.fqueue cc) s = .next t ∧ t.me.id = s.me.id ∧
      (agentOf t (.cc cc)).mode = .m ∧ (agentOf t (.cc cc)).pc = s.ccLoad + 0x100#64 ∧
      (agentOf t (.cc cc)).xasync = true ∧ (agentOf t (.cc cc)).cc.fqueue = false ∧ (agentOf t (.cc cc)).g = u.me.g)

namespace Sys2Proof
namespace Machine

/-- What posting a record that needs no answer leaves, where no record waits in Kiln (spec/16_isolation.md R375, R376): where the ring
is configured and has room, the words of the slot at WIDX, then one more in WIDX, then the interrupt of the control cores of FQIRQ, and
no other byte; else memory as it was, and one more in FQLOST. -/
def NotePosted (s : State) (ten : BitVec 6) (kind struct_ : Nat) (va who entry : Word) : Prop :=
  let q := tenOf s ten.toNat
  let t := postNote s ten kind 0 struct_ va who entry none
  let base := q.fqbase.toNat
  let widx := Memory.readLE s.mem base 8
  let slot := base + 64 + 64 * (widx % 2 ^ q.fqlog2.toNat)
  let room := q.fqlog2 ≠ 0#5 ∧ (widx + 2 ^ 64 - Memory.readLE s.mem (base + 8) 8) % 2 ^ 64 < 2 ^ q.fqlog2.toNat
  q.waiting = [] →
    (¬ room → t.mem = s.mem ∧ (tenOf t ten.toNat).fqlost = q.fqlost + 1#32) ∧
    (room → Memory.wf s.mem = true → slot + 64 ≤ hbmEnd →
      Memory.readLE t.mem slot 4 = struct_ * 2 ^ 24 + kind ∧ Memory.readLE t.mem (slot + 8) 8 = va.toNat ∧
      Memory.readLE t.mem (slot + 16) 8 = who.toNat ∧ Memory.readLE t.mem (slot + 24) 8 = entry.toNat ∧
      (∀ j, j < 32 → Memory.read t.mem (slot + 32 + j) = 0#8) ∧
      Memory.readLE t.mem base 8 = (widx + 1) % 2 ^ 64 ∧
      (∀ a, (a < base ∨ base + 8 ≤ a) → (a < slot ∨ slot + 64 ≤ a) → Memory.read t.mem a = Memory.read s.mem a) ∧
      ∀ n : Fin 32, (agentOf t (.cc n)).cc.fqueue = ((agentOf s (.cc n)).cc.fqueue || q.fqirq.getLsbD n.val))

/-- The next line of a migration in progress (spec/18_ras.md R422): a poisoned source line is carried over as zero and poison; a
line that fails both reads aborts the migration, which leaves the destination zero and unpoisoned and posts LASTING (9), POISONED (10)
and MIGABORT (12); any other is copied. -/
def MigratesLine (s : State) (k : Fin 8) (lasting : Bool) : Prop :=
  let m := migOf s k.val
  let t := migrateLine s k lasting
  let src := m.src.toNat * 65536 + 64 * m.next
  let dst := m.dst.toNat * 65536 + 64 * m.next
  (isPoisoned s src = true ∨ lasting = false →
    migOf t k.val = { m with next := m.next + 1 } ∧
    t = { s with mem := t.mem, poison := t.poison, migrations := t.migrations } ∧
    (Memory.wf s.mem = true →
      (∀ i, i < 64 → Memory.read t.mem (dst + i) = if isPoisoned s src then 0#8 else Memory.read s.mem (src + i)) ∧
      (∀ a, a < dst ∨ dst + 64 ≤ a → Memory.read t.mem a = Memory.read s.mem a)) ∧
    (∀ line, line ∈ t.poison ↔ line ∈ s.poison ∨ (isPoisoned s src = true ∧ line = dst / 64))) ∧
  (isPoisoned s src = false → lasting = true →
    (migOf t k.val).busy = false ∧ (migOf t k.val).result = 1#8 ∧ (migOf t k.val).line = BitVec.ofNat 10 m.next ∧
    (m.src ≠ m.dst → src / 64 ∈ t.poison) ∧ (∀ j, j < 1024 → m.dst.toNat * 1024 + j ∉ t.poison) ∧
    ∃ u : State, u = { s with mem := u.mem, poison := u.poison, migrations := u.migrations
                              fenced := s.fenced ++ [if Config.channelFails s.tick then .hbmChannel (src / 64) else .hbmRow (src / 64)] } ∧
      t = nextTick ([9, 10, 12].foldl (fun x kind => postNote x m.ten kind 0 0 (BitVec.ofNat 64 src)
        (BitVec.ofNat 64 (k.val * 2 ^ 20 + 2 * 2 ^ 16)) 0#64 none) u) ∧
      (Memory.wf s.mem = true → let page := m.dst.toNat * 65536
        (∀ i, i < 65536 → Memory.read u.mem (page + i) = 0#8) ∧
        (∀ a, (a < page ∨ page + 65536 ≤ a) → (a < src ∨ src + 64 ≤ a) → Memory.read u.mem a = Memory.read s.mem a)))

end Machine
end Sys2Proof

/-- `HALTED`, `QUIESCENCE` and `MIGRATION_END` (spec/17_traps.md R414; spec/16_isolation.md R375, R378; spec/18_ras.md R422). A
migration's lines are copied in turn, each in a step of its own where the agenda says so, so that a write to the source reaches
the destination when its line is copied later; its end copies those that are left, and posts MIGDONE (11). What a record leaves in its
ring is said of every kind. That MIGDONE's address is that of the source page is the model's reading (log 29). -/
def Obligations.HaltQuiescenceAndMigration : Prop :=
  (∀ s h, (debugOf s (debugIndex h)).halt = true → (hartOf s h).halted = false → canHalt s (hartOf s h) = true →
    exec (.halted h) s = .next (putAgent s { hartOf s h with halted := true, vec := freezeRun (hartOf s h).vec })) ∧
  (∀ s (n : Fin 64), (tenOf s n.val).rst = true → (tenOf s n.val).quiet = false → ∃ t, exec (.quiescence n) s = .next t ∧
    (tenOf t n.val).rst = true ∧ (tenOf t n.val).quiet = true ∧ (∀ r ∈ t.records, r.ten.toNat ≠ n.val) ∧
    (∀ c ∈ t.colls, c.ten.toNat ≠ n.val) ∧ (∀ x ∈ t.early, x.1 ≠ n.val) ∧
    (∀ e ∈ t.entries, e.ten.toNat = n.val → e.state.final = true)) ∧
  (∀ s (k : Fin 8), (migOf s k.val).busy = true → (migOf s k.val).next ≤ 1024 → ∃ t, exec (.migrationEnd k []) s = .next t ∧
    (migOf t k.val).busy = false ∧ (migOf t k.val).result = 0#8) ∧
  (∀ s (k : Fin 8) l, (migOf s k.val).busy = true → (migOf s k.val).next < 1024 →
    exec (.migrationEnd k l) s = exec (.migrationEnd k l) (migrateLine s k (l.any (fun j => j.val == (migOf s k.val).next)))) ∧
  (∀ s (k : Fin 8) b, let m := migOf s k.val
    m.busy = true → 1024 ≤ m.next → ∃ u : State, u = { s with migrations := u.migrations } ∧
      migOf u k.val = { m with busy := false, result := 0#8, line := 0#10 } ∧
      migrateLine s k b = postNote u m.ten 11 0 0 (BitVec.ofNat 64 (m.src.toNat * 65536))
        (BitVec.ofNat 64 (k.val * 2 ^ 20 + 2 * 2 ^ 16)) 0#64 none) ∧
  (∀ s ten kind struct_ va who entry, kind < 65536 → struct_ < 256 → NotePosted s ten kind struct_ va who entry) ∧
  (∀ s (k : Fin 8) b, (migOf s k.val).busy = true → (migOf s k.val).next < 1024 → MigratesLine s k b) ∧
  (∀ (s : State) (k : Fin 8) b rest, s.agenda = .migrateLine k b :: rest →
    step s = .next (migrateLine { s with agenda := rest } k b)) ∧
  (∀ s (k : Fin 8) (j : Fin 1024), (migOf s k.val).busy = true → (migOf s k.val).next ≤ j.val →
    isPoisoned s ((migOf s k.val).src.toNat * 65536 + 64 * j.val) = false → ∃ t, exec (.migrationEnd k [j]) s = .next t ∧
      (migOf t k.val).busy = false ∧ (migOf t k.val).result = 1#8 ∧ (migOf t k.val).line.toNat = j.val)

namespace Sys2Proof
namespace Machine

/-- A task holds a row of a core's tile memory. -/
def HoldsRow (s : State) (core row : Nat) (e : Entry) : Prop :=
  e ∈ s.entries ∧ e.state.final = false ∧ 40 * e.die.val ≤ core ∧
  ∃ g, gangOf e (core - 40 * e.die.val) = some g ∧ g.row ≤ row ∧ row < g.row + g.rows
/-- A hart of a core keeps its saved vector state in a row (spec/17_traps.md R405). -/
def SavesInRow (s : State) (core row : Nat) (a : Agent) : Prop :=
  a ∈ agents s ∧ row ∈ a.saveRows ∧ ∃ h, a.id = .hart h ∧ hartCore h = core
/-- Whose record an error in a line of tile memory makes: the tenancy of the task that holds its row, or whose hart's state is saved
there, or tenancy 0 (spec/18_ras.md R420). -/
def OwnsTileLine (s : State) (core line : Nat) (ten : BitVec 6) : Prop :=
  ((∃ e, HoldsRow s core (line / 128) e) → ∃ e, HoldsRow s core (line / 128) e ∧ ten = e.ten) ∧
  ((∀ e, ¬ HoldsRow s core (line / 128) e) →
    ((∃ a, SavesInRow s core (line / 128) a) → ∃ a, SavesInRow s core (line / 128) a ∧ ten = a.ten) ∧
    ((∀ a, ¬ SavesInRow s core (line / 128) a) → ten = 0#6))
/-- The record of an error in a unit (R420): STRUCT, the address or the number where R420 names one, the hart or the place (word 2 of
spec/16_isolation.md R375), the entry, and the tenancy. -/
def RecordedAs (s : State) (u : ErrUnit) (struct_ : Nat) (place : Option Nat) (who entry : Word) (ten : BitVec 6) : Prop :=
  ∀ kind, ∃ va, (∀ n, place = some n → va = BitVec.ofNat 64 n) ∧ errRecord s u kind = postNote s ten kind 0 struct_ va who entry none
/-- Word 2 for a unit of a core or a die that is no hart's: core, die, AGENT. -/
def whoAt (core die agent : Nat) : Word := BitVec.ofNat 64 (core * 2 ^ 24 + die * 2 ^ 20 + agent * 2 ^ 16)
/-- The records of the units of R418 and of the other storage (R420): lanes and granules by the core's numbers (spec/04_formats.md R100;
spec/14_harts_kiln.md R311). -/
def RecordsNameTheirUnit : Prop :=
  ∀ s : State,
    (∀ line, ∀ u ∈ [ErrUnit.hbmLine line, .hbmChannel line], ∃ ten, RecordedAs s u 0 (some (64 * line)) 0#64 0#64 ten) ∧
    (∀ core line, core < 320 → ∃ ten, OwnsTileLine s core line ten ∧
      RecordedAs s (.tileLine core line) 1 (some (line % 128)) (whoAt (core % 40) (core / 40) 0) 0#64 ten) ∧
    (∀ (h : HartId) line, line / 256 = h.ctx.val →
      RecordedAs s (.sdmLine (hartCore h) line) 2 none (whoAt h.core.val h.die.val 0) 0#64 (hartOf s h).ten) ∧
    (∀ (q : Fin 4096) slot, let v := queueOf s q.val
      RecordedAs s (.queueSlot q slot) 5 none (whoAt 0 v.die.toNat 6) 0#64 (queueTen s q.val)) ∧
    (∀ n r, RecordedAs s (.ccReg n r) 3 none 0#64 0#64 0#6) ∧
    (∀ die n, RecordedAs s (.engineStore die n) 5 none (whoAt 0 die.val (2 + n.val)) 0#64 0#6) ∧
    (∀ die, ∀ u ∈ [ErrUnit.kilnStore die, .kilnMemory die], RecordedAs s u 5 none (whoAt 0 die.val 6) 0#64 0#6) ∧
    (∀ core (dir : Fin 4), (∀ a ∈ agents s, holdsPort a core dir.val = false ∧
        ∀ m, neighbour core dir.val = some m → holdsPort a m (opposite dir.val) = false) →
      RecordedAs s (.link core dir) 6 (some dir.val) (whoAt (core % 40) (core / 40) 0) 0#64 0#6) ∧
    (∀ core (dir : Fin 4) a, a ∈ agents s → holdsPort a core dir.val = true → (∀ b ∈ agents s, holdsPort b core dir.val = true → b = a) →
      RecordedAs s (.link core dir) 6 (some dir.val) (whoAt (core % 40) (core / 40) 0) 0#64 a.ten) ∧
    ∀ h : HartId, let a := hartOf s h
      let who := recordWho h 0 a.asid.toNat
      let of (u : ErrUnit) (struct_ : Nat) (place : Option Nat) := RecordedAs s u struct_ place who (recordEntry a.task) a.ten
      (∀ r, of (.gReg h r) 3 none) ∧ (∀ m, of (.mask h m) 3 none) ∧
      (∀ v g, 0 < a.lanes.toNat → of (.vGranule h v g) 3 (some (a.first.toNat + g % a.lanes.toNat))) ∧
      (∀ tile row lane, of (.accRow h tile row lane) 4 (some (a.first.toNat + lane))) ∧
      (∀ lane, of (.laneArith h lane) 7 (some (a.first.toNat + lane))) ∧
      of (.strip h) 7 none ∧ of (.chainStore h) 5 none ∧ of (.codeStore h) 5 none

end Machine
end Sys2Proof

/-- `UNCORRECTABLE_ERROR`, `CONFIG_RESTORE`, `REPAIR`, `POWER_SAMPLE` and `RESET_N` (spec/18_ras.md R417, R418, R420, R423, R424, R426,
R427). An error that the second attempt survives is recorded `TRANSIENT` (8), and poisons nothing; one that it does not is recorded
`LASTING` (9), with `POISONED` (10) where data is lost, and fences its unit until a repair; the record names the unit and its
owner. A core that was replaced or retired leaves no fence behind. Which fenced unit a lasting error names,
where a chain's copy lies in its reserve, and STRUCT of a record of an instruction store or cache (log 29), which saved unit a line of
save rows holds (log 42), that the scale store goes with each granule of its lane (log 44), the clock's steps and their bound (log 9), and that a package reset leaves the count of free values and what was sent (log 39) are the model's readings. -/
def Obligations.ErrorRepairPowerAndResetEvents : Prop :=
  RecordsNameTheirUnit ∧
  (∀ s u, errValid s u = true →
    (∃ t, exec (.uncorrectableError u true) s = .next t ∧ t = nextTick (errRecord (errDiscard s u) u 8) ∧
      t.tick = s.tick + 1 ∧ t.me.id = s.me.id ∧ t.poison = s.poison ∧ t.fenced = s.fenced ∧
      (∀ h, u = .strip h → (hartOf s h).vec.rRun = true → (hartOf t h).vec = freezeRun (hartOf s h).vec) ∧
      (∀ h, u = .codeStore h → ∀ c ∈ t.istore, c.agent ≠ .hart h)) ∧
    (∃ t, exec (.uncorrectableError u false) s = .next t ∧ t.tick = s.tick + 1 ∧ t.me.id = s.me.id ∧
      t = nextTick ((poisonUnit (fence (errDamage (errDiscard s u) u) u) u).elim
        (errRecord (fence (errDamage (errDiscard s u) u) u) u 9) (fun p => errRecord (errRecord p u 9) u 10)) ∧
      (∀ x, fencedUnit s u = some x → x ∈ t.fenced) ∧
      (∀ h r, u = .gReg h r → (hartOf t h).pg = (hartOf s h).pg ||| BitVec.twoPow 32 r.val) ∧
      (∀ n r, u = .ccReg n r → (agentOf t (.cc n)).pg = (agentOf s (.cc n)).pg ||| BitVec.twoPow 32 r.val) ∧
      (∀ h v g, u = .vGranule h v g → ∀ n : Reg,
        (hartOf t h).vec.pv[n] = (hartOf s h).vec.pv[n] ||| (if n = v then BitVec.twoPow 1024 g else 0#1024)) ∧
      (∀ h m, u = .mask h m → (hartOf t h).vec.pm = (hartOf s h).vec.pm ||| BitVec.twoPow 8 m.val) ∧
      (∀ h tile row lane, u = .accRow h tile row lane → ∀ n : Fin 64, (hartOf t h).vec.pacc[n] =
        (hartOf s h).vec.pacc[n] ||| (if n.val = 8 * tile.val + row.val then BitVec.twoPow 128 lane else 0#128)) ∧
      (∀ core line, u = .sdmLine core line → sdmKey core / 64 + line ∈ t.poison) ∧
      (∀ q slot, u = .queueSlot q slot → ∀ n, (queueOf t q.val).slots[n]? =
        (queueOf s q.val).slots[n]?.map (fun x => if n = slot then { x with lost := true } else x)) ∧
      (∀ core line, u = .tileLine core line → savedIn s core (line / 128) = none → tileKey core / 64 + line ∈ t.poison) ∧
      (∀ core line a h, u = .tileLine core line → savedIn s core (line / 128) = some a → a.id = .hart h →
        if a.inRows = true ∨ a.reclaimed = true then unitBad (hartOf t h) (savedUnit core line) = true
        else tileKey core / 64 + line ∈ t.poison) ∧
      (∀ die n, u = .engineStore die n → ∀ x ∈ t.tlb, x.unit ≠ .engine die n.val) ∧
      (∀ die, u = .kilnStore die → ∀ x ∈ t.tlb, x.unit ≠ .kiln die) ∧
      (∀ line, u = .hbmLine line → line ∈ t.poison ∧ .hbmRow line ∈ t.fenced) ∧
      (∀ line, u = .hbmChannel line → line ∈ t.poison ∧ .hbmChannel line ∈ t.fenced) ∧
      (∀ h, u = .chainStore h →
        (hartOf t h).vec.chain = (hartOf s h).vec.chain.map (fun c => { c with damaged := true })))) ∧
  (∀ s h ch, (hartOf s h).vec.chain = some ch →
    (ch.damaged = false ∨ (copyPoisoned s h ch = true ∧ (hartOf s h).vec.rRun = false) → exec (.configRestore h) s = .next s) ∧
    (ch.damaged = true → copyPoisoned s h ch = true → (hartOf s h).vec.rRun = true →
      ∃ t, exec (.configRestore h) s = .next t ∧ (hartOf t h).vec.rRun = false ∧
        (hartOf t h).vec.rFail = true ∧ (hartOf t h).vec.rPend = true ∧
        ((hartOf t h).vec.runFault.map (fun f => f.cause)) = some cPoison) ∧
    (ch.damaged = true → copyPoisoned s h ch = false → ∃ t, exec (.configRestore h) s = .next t ∧ t.mem = s.mem ∧
      let v := { (hartOf s h).vec with chain := some { ch with damaged := false } }
      (hartOf t h).vec = if (hartOf s h).vec.rRun then freezeRun v else v)) ∧
  (∀ s u, (u ∈ s.fenced → ∃ t, exec (.repair u) s = .next t ∧ u ∉ t.fenced) ∧ (u ∉ s.fenced → exec (.repair u) s = .next s)) ∧
  (∀ (v b g L : Nat), 0 < L → b % L = g % L → g < 8 * L → RegUnit.v v g ∈ scaleUnits L v [b]) ∧
  (∀ s core, core < 320 → s.coresOut.contains core = false → .core core ∈ s.fenced →
    (∃ t, exec (.repair (.core core)) s = .next t ∧ .core core ∉ t.fenced ∧ (∀ sheaf lane, .lane core sheaf lane ∉ t.fenced) ∧
      ∀ x ∈ s.fenced, (∀ sheaf lane, x ≠ .lane core sheaf lane) → x ≠ .core core → x ∈ t.fenced) ∧
    (2 ≤ sparesUsed s (dieKey core) → ∃ t, exec (.repair (.core core)) s = .next t ∧ core ∈ t.coresOut) ∧
    (sparesUsed s (dieKey core) < 2 → ∃ t, exec (.repair (.core core)) s = .next t ∧ t.coresOut = s.coresOut ∧
      sparesUsed t (dieKey core) = sparesUsed s (dieKey core) + 1)) ∧
  (∀ s line, .hbmRow line ∈ s.fenced → 64 * line + 64 ≤ hbmEnd → ∃ t, exec (.repair (.hbmRow line)) s = .next t ∧
    ((Config.spareLeft s.tick || Config.spareLeft (s.tick + 1)) = true ∨ line ∈ t.poison)) ∧
  (∀ s line, .hbmChannel line ∈ s.fenced → 64 * line + 64 ≤ hbmEnd → ∃ t, exec (.repair (.hbmChannel line)) s = .next t ∧
    (Config.spareLeft s.tick = true → t.poison = s.poison) ∧
    (Config.spareLeft s.tick = false → line ∈ t.poison ∧
      ∀ x ∈ Config.hbmLines 1 line, 64 * x + 64 ≤ hbmEnd → x ∈ t.poison)) ∧
  (∀ s core sheaf lane, core < 320 → sheaf < 4 → .lane core sheaf lane ∈ s.fenced →
    (s.coresOut.contains core = false → sparesUsed s (sheafKey core sheaf) = 0 →
      ∃ t, exec (.repair (.lane core sheaf lane)) s = .next t ∧ sparesUsed t (sheafKey core sheaf) = 1 ∧ t.coresOut = s.coresOut) ∧
    (s.coresOut.contains core = false → sparesUsed s (sheafKey core sheaf) ≠ 0 →
      ∃ t, exec (.repair (.lane core sheaf lane)) s = .next t ∧ (∀ sheaf' lane', .lane core sheaf' lane' ∉ t.fenced) ∧
        (2 ≤ sparesUsed s (dieKey core) → core ∈ t.coresOut) ∧
        (sparesUsed s (dieKey core) < 2 → t.coresOut = s.coresOut ∧ sparesUsed t (dieKey core) = sparesUsed s (dieKey core) + 1 ∧
          ∀ k, k < 4 → sparesUsed t (sheafKey core k) = 0)) ∧
    (s.coresOut.contains core = true →
      exec (.repair (.lane core sheaf lane)) s = .next { s with fenced := s.fenced.filter (fun x => x != .lane core sheaf lane) })) ∧
  (∀ s mw dc, dc ≤ 1150 → ∃ t, exec (.powerSample mw dc) s = .next t ∧ (isHart s.me = true → t.me = s.me) ∧
    t.clockStep = min 8 ((if 2800000 < mw then s.clockStep + 1 else if dc ≤ 1050 then s.clockStep - 1 else s.clockStep) +
      (if 1050 < dc then 1 else 0))) ∧
  (∀ s, ∀ i ∈ [Instr.resetN, .powerSample 0 1151], ∃ t, exec i s = .next t ∧ t.bootstat = 1#8 ∧ t.mem = [] ∧ t.poison = [] ∧
    t.me = State.reset.me ∧ t.others = State.reset.others ∧ t.tenancies = State.reset.tenancies ∧ t.queues = State.reset.queues ∧
    t.entries = [] ∧ t.records = [] ∧ t.cmds = [] ∧ t.colls = [] ∧ t.spares = s.spares ∧ t.coresOut = s.coresOut ∧ t.fenced = s.fenced)

/-! ### Pseudo-instructions (spec/03_assembly.md R73, R74) -/

namespace Sys2Proof
namespace Machine

/-- Some instructions one after another. -/
def runAll : List Instr → State → Host.Outcome State Fault Refusal
  | [], s => .next s
  | i :: l, s => match exec i s with
    | .next t => runAll l t
    | o => o

end Machine
end Sys2Proof

/-- `li` loads its value with at most nine words, and `la` an address; both change only rd, its poison and the PC. -/
def Obligations.LiAndLaLoadTheirValues : Prop :=
  (∀ (s : State) (d : Reg) (v : Int), -2 ^ 63 ≤ v → v < 2 ^ 63 →
    (liWords d 5 v).length ≤ 9 ∧
    ∃ t, runAll (liWords d 5 v) s = .next t ∧ (d ≠ 0 → getG t.me d = BitVec.ofInt 64 v) ∧
      (∀ r : Reg, r ≠ d → getG t.me r = getG s.me r) ∧
      t.me.pc = s.me.pc + BitVec.ofNat 64 (4 * (liWords d 5 v).length) ∧ SameButG s t ∧ t = { s with me := t.me }) ∧
  (∀ (s : State) (d : Reg) (x : Int) (ws : List Instr), pseudoWords (s.me.pc.toNat : Int) (.la d x) = some ws → d ≠ 0 →
    ∃ t, runAll ws s = .next t ∧ getG t.me d = BitVec.ofInt 64 x ∧ (∀ r : Reg, r ≠ d → getG t.me r = getG s.me r) ∧
      t.me.pc = s.me.pc + 8#64 ∧ SameButG s t ∧ t = { s with me := t.me })

/-! ### The consistency model (spec/11_consistency.md) -/

namespace Sys2Proof
namespace Machine

/-- The same with another value in g register k. -/
def otherG (s : State) (k : Reg) (x : Word) : State := { s with me := { s.me with g := s.me.g.set k x } }
/-- The same with other elements and scales in v register k. -/
def otherV (s : State) (k : Reg) (data : BitVec 262144) (scale : BitVec 18432) : State :=
  { s with me := { s.me with vec := { s.me.vec with
    regs := { data := s.me.vec.regs.data.set k data, scale := s.me.vec.regs.scale.set k scale } } } }
/-- The same with other bits in m register k. -/
def otherM (s : State) (k : Fin 8) (bits : BitVec 65536) : State :=
  { s with me := { s.me with vec := { s.me.vec with masks := s.me.vec.masks.set k bits } } }
/-- The registers that an instruction computes from, however few elements of its destination it writes (spec/11_consistency.md R235): g
registers by their numbers, v registers from 32 on, m registers from 64 on. -/
def computesFrom (i : Instr) : List Nat :=
  let u := usesOf i (.inline false)
  u.reads ++ u.addr ++ u.data ++ u.mask ++ u.branch
/-- A register that is not among them has no part in what the instruction does: with another value in it, the instruction does the same,
and the register keeps that value where the instruction does not write it. -/
def OnlyThose (i : Instr) : Prop :=
  ∀ s t, exec i s = .next t →
    (∀ (k : Reg) x, k.val ∉ computesFrom i →
      ∃ y, exec i (otherG s k x) = .next (otherG t k y) ∧ (k.val ∉ (usesOf i (.inline false)).writes → y = x)) ∧
    (∀ (k : Reg) data scale, 32 + k.val ∉ computesFrom i → exec i (otherV s k data scale) = .next (otherV t k data scale)) ∧
    (∀ (k : Fin 8) bits, 64 + k.val ∉ computesFrom i → exec i (otherM s k bits) = .next (otherM t k bits))
/-- Words of two sources. -/
def threeRegWords : List (Reg → Reg → Reg → Instr) :=
  [.add, .sub, .and, .andn, .or, .orn, .xor, .xnor, .sll, .srl, .sra, .rol, .ror, .min, .max, .minn, .maxn, .cmplt, .cmpltn,
   .cmpeq, .addI32, .subI32, .sllI32, .srlI32, .sraI32, .rolI32, .rorI32, .mul, .mulh, .mulhu, .mulhsu, .mulI32, .div, .divu, .rem,
   .remu, .divI32, .divuI32, .remI32, .remuI32, .fminF32, .fmaxF32, .fsgnjF32, .fsgnjnF32, .fsgnjxF32, .feqF32, .fltF32, .fleF32,
   .fminF64, .fmaxF64, .fsgnjF64, .fsgnjnF64, .fsgnjxF64, .feqF64, .fltF64, .fleF64]
/-- Words of a source and an immediate, with the branches, which read two, and `jalr`. -/
def immediateWords : List (Reg → Reg → Fin 16384 → Instr) :=
  [.addi, .andi, .ori, .xori, .cmplti, .cmpltni, .addiI32, .beq, .bne, .blt, .bge, .bltu, .bgeu, .jalr]
/-- Shifts by an immediate. -/
def shiftWords : List (Reg → Reg → Fin 64 → Instr) :=
  [.slli, .srli, .srai, .rori]
/-- Shifts of 32 bits by an immediate. -/
def shift32Words : List (Reg → Reg → Fin 32 → Instr) :=
  [.slliI32, .srliI32, .sraiI32]
/-- Upper immediates and `jal`. -/
def upperWords : List (Reg → Fin 524288 → Instr) :=
  [.lui, .lhi, .auipc, .jal]
/-- Words of one source. -/
def unaryWords : List (Reg → Reg → Instr) :=
  [.clz, .ctz, .popc, .clzw, .ctzw, .popcw, .rev8, .brev, .sextb, .sexth, .sextw, .zextb, .zexth, .zextw, .fclassF32, .fclassF64]
/-- Rounded words of two sources. -/
def roundedWords : List (Reg → Reg → Reg → Fin 8 → Instr) :=
  [.faddF32, .fsubF32, .fmulF32, .fdivF32, .faddF64, .fsubF64, .fmulF64, .fdivF64]
/-- Rounded words of one source. -/
def conversionWords : List (Reg → Reg → Fin 8 → Instr) :=
  [.fsqrtF32, .fsqrtF64, .fcvtF32I32, .fcvtF32N32, .fcvtF32I64, .fcvtF32N64, .fcvtF64I32, .fcvtF64N32, .fcvtF64I64, .fcvtF64N64,
   .fcvtI32F32, .fcvtN32F32, .fcvtI64F32, .fcvtN64F32, .fcvtI32F64, .fcvtN32F64, .fcvtI64F64, .fcvtN64F64, .fcvtF32F64,
   .fcvtF64F32, .fcvtF32Bf16, .fcvtBf16F32, .fcvtF32F16, .fcvtF16F32, .fcvtF64F16, .fcvtF16F64]
/-- Fused words. -/
def fusedWords : List (Reg → Reg → Reg → Reg → Fin 8 → Fin 2 → Instr) :=
  [.fmadd, .fmsub, .fnmadd, .fnmsub]
/-- The 32-bit words that compute a g register or choose the next instruction, and act on nothing else: each computes from its registers
alone. -/
def ScalarWordsUseTheirRegisters : Prop :=
  (∀ f ∈ threeRegWords, ∀ d a b, OnlyThose (f d a b)) ∧
  (∀ f ∈ immediateWords, ∀ d a b, OnlyThose (f d a b)) ∧
  (∀ f ∈ shiftWords, ∀ d a b, OnlyThose (f d a b)) ∧
  (∀ f ∈ shift32Words, ∀ d a b, OnlyThose (f d a b)) ∧
  (∀ f ∈ upperWords, ∀ d a, OnlyThose (f d a)) ∧
  (∀ f ∈ unaryWords, ∀ d a, OnlyThose (f d a)) ∧
  (∀ f ∈ roundedWords, ∀ d a b c, OnlyThose (f d a b c)) ∧
  (∀ f ∈ conversionWords, ∀ d a b, OnlyThose (f d a b)) ∧
  (∀ f ∈ fusedWords, ∀ d a b c m t, OnlyThose (f d a b c m t))
/-- The forms of majors 0x01 and 0x02. -/
def arithmeticForms : List VOp :=
  [.vadd, .vsub, .vrsub, .vmul, .vmulh, .vdiv, .vrem, .vand, .vor, .vxor, .vsll, .vsrl, .vsra, .vmin, .vmax, .vsadd, .vssub, .vabs,
   .vneg, .vnot, .vmv, .vsel, .vclz, .vpopc, .vmacc, .vfadd, .vfsub, .vfmul, .vfdiv, .vfsqrt, .vfmin, .vfmax, .vfabs, .vfneg, .vfsgnj,
   .vfsgnjn, .vfsgnjx, .vfclass, .vfma, .vfms, .vfnma, .vfnms]
/-- The special functions, conversions and reductions. -/
def convertForms : List VOp :=
  [.vexp2, .vlog2, .vrcp, .vrsqrt, .vtanh, .vsigm, .vcvt, .vpack, .vunpack, .vsget, .vsput, .vredosum, .vredtsum, .vredmin, .vredmax,
   .vredand, .vredor, .vredxor]
/-- The permutes and scans. -/
def permuteForms : List VOp :=
  [.vrgatherX1, .vrgatherX2, .vrgatherX4, .vrgatherX8, .vshup, .vshdn, .vjoinup, .vjoindn, .vcompress, .vexpand, .vextr, .vinsrt,
   .vfirst, .vpcnt, .vpcntInc, .vconflict, .vsscanAdd, .vsscanMin, .vsscanMax, .vsscanAnd, .vsscanOr, .vsscanXor]
/-- The matrix forms. -/
def matrixForms : List VOp := [.vmmaX1, .vmmaX2, .vmmaX4, .vmmaX8, .vaccrd, .vaccwr, .vaccz, .vwload]
/-- The node words that compute a v, m or g register or an accumulator inline, and act on nothing else. -/
def computeForms : List VOp := arithmeticForms ++ convertForms ++ compares ++ maskForms ++ permuteForms ++ matrixForms
/-- The registers of a memory access (R235): a load's address is computed from its base alone, a store's data from one register more, an
atomic's from its operands, and the index register of a vector form goes into its addresses as its base does. -/
def MemoryUses : Prop :=
  (∀ (d a : Reg) (n : Fin 16384), ∀ i ∈ [Instr.lb d a n, .lbu d a n, .lh d a n, .lhu d a n, .lw d a n, .lwu d a n, .ld d a n],
    (usesOf i (.inline true)).addr = [a.val] ∧ (usesOf i (.inline true)).writes = [d.val] ∧ (usesOf i (.inline true)).data = []) ∧
  (∀ (b a : Reg) (n : Fin 16384), ∀ i ∈ [Instr.sb b a n, .sh b a n, .sw b a n, .sd b a n],
    (usesOf i (.inline true)).addr = [a.val] ∧ (usesOf i (.inline true)).data = [b.val] ∧ (usesOf i (.inline true)).writes = []) ∧
  (∀ (op : VOp) (w : VWord) whole, op ∈ loads ++ stores → nodeOf (op.instr w) = some (op, w) →
    let u := usesOf (op.instr w) (.inline whole)
    w.gb ∈ u.addr ∧ (maskReg w ≠ 0 → 64 + maskReg w ∈ u.mask) ∧
    (op ∈ [VOp.vldSt, .vstSt] → srcN (viFld w) ∈ u.addr) ∧ (indexForm op = true → fieldKey (viFld w) ∈ u.addr) ∧
    (op ∈ stores → placeKey w.vd.val ∈ u.data) ∧ (op ∈ loads → placeKey w.vd.val ∈ u.writes))

end Machine
end Sys2Proof

/-- R253: each case of the three tables is allowed or forbidden as stated: some choice of the writes that the reads return and
of the coherence order is consistent, or none is. The index of VV4 is computed from the first load. And what a dependency passes through
(R235): every register that a computing instruction computes from is among its uses, since no other has a part in what it does; and the
registers of a memory access. -/
def Obligations.LitmusOutcomesAndDependenciesAreAsStated : Prop :=
  ScalarWordsUseTheirRegisters ∧ (∀ op ∈ computeForms, ∀ w, OnlyThose (op.instr w)) ∧ MemoryUses ∧
  (∀ r ∈ litmusScalar, outcomeAllowed r.1 r.2.1 = r.2.2) ∧
  (∀ r ∈ litmusScalarVector, outcomeAllowed r.1 r.2.1 = r.2.2) ∧
  (∀ r ∈ litmusVector, outcomeAllowed r.1 r.2.1 = r.2.2) ∧
  (∀ r ∈ litmusTranslation, outcomeAllowed r.1 r.2.1 = r.2.2) ∧
  outcomeAllowed (litVv8 2 1) [] = false ∧ outcomeAllowed (litVv8 1 2) [(litWord 0, 2)] = true ∧
  outcomeAllowed (litVv8 1 2) [(litWord 0, 1)] = false

/-- What agents do that act one after another is allowed (R236-R238): a sequential execution is consistent. A run of `step` is
one: each step performs its accesses before the next (log 2). -/
def Obligations.SequentialExecutionsAreConsistent : Prop := ∀ e : Execution, InSequence e → consistent e = true

/-! ### Words, steps and what every step keeps -/

/-- What comes before a node word's own effect (spec/02_encoding.md R51; spec/17_traps.md R390, R403; spec/13_chains.md R303): the fate of the word; `ILLEGAL` on a
control core; a wait while a run is in progress; the report of a run that failed, with PEND cleared. And a 32-bit instruction
that reads a poisoned register takes `POISON` (spec/18_ras.md R419), shown for a form of each shape. That the report comes before
the traps of the word's own listing, and which fate a word has that breaks two rules, are the model's readings (logs 31 and 32). -/
def Obligations.WordsWaitReportOrTrapBeforeTheirEffect : Prop :=
  (∀ (op : VOp) w s,
    (vfate op w = .error .illegal → Traps (op.instr w) s cIllegal (BitVec.ofNat 64 (op.encode w))) ∧
    (∀ n, vfate op w = .error (.feature n) → Traps (op.instr w) s cFeature (BitVec.ofNat 64 n)) ∧
    (∀ n, vfate op w = .ok () → s.me.id = .cc n → Traps (op.instr w) s cIllegal (BitVec.ofNat 64 (op.encode w))) ∧
    (∀ h, vfate op w = .ok () → s.me.id = .hart h → s.me.vec.rRun = true → exec (op.instr w) s = .next (switched s)) ∧
    (∀ h f, vfate op w = .ok () → s.me.id = .hart h → s.me.vec.rRun = false → s.me.vec.rPend = true → s.me.vec.runFault = some f →
      exec (op.instr w) s = .next (takeTrap
        { switched s with me := { (switched s).me with vec := { s.me.vec with rPend := false } } }
        { cause := f.cause, xval := f.xval, async := false, runrep := true, access := f.access, offset := f.offset }))) ∧
  (∀ s (d a b : Reg) (n : Fin 16384), a ≠ 0 → s.me.pg.getLsbD a.val = true →
    ∀ i ∈ [Instr.add d a b, .mul d a b, .addi d a n, .clz d a, .ld d a n, .sd b a n, .beq a b n, .jalr d a n, .wait d a b,
        .faddF64 d a b 0, .fcvtF64I64 d a 0, .amoadd d a b 1 0],
      Traps i s cPoison (BitVec.ofNat 64 (0x8000000000000300 + a.val)))

/-- Decoding and encoding agree (spec/02_encoding.md R31-R37, R51): the bytes of a word that is well formed at a place, whatever follows
them, decode there to its instruction; and what decodes to an instruction is that instruction's word. -/
def Obligations.DecodingAnEncodedWordGivesItBack : Prop :=
  (∀ (p : Place) (i : Instr) (rest : List Byte), isEvent i = false → wellFormedAt p i = true →
    decode p (leBytes i.len (encode i) ++ rest) = .instr i i.len) ∧
  (∀ (p : Place) (bs : List Byte) (i : Instr) (n : Nat), decode p bs = .instr i n →
    n = i.len ∧ n ≤ bs.length ∧ bs.take n = leBytes n (encode i) ∧ isEvent i = false ∧ wellFormedAt p i = true)

/-- Words that the manual writes out, beside their statements, decode to them. -/
def Obligations.WordsOfTheManualDecode : Prop :=
  (∀ x ∈ [(0x04000000, Instr.addi 0 0 0), (0x02610A08, .remu 12 4 5), (0x81280005, .beq 5 0 5), (0x82283FFD, .bne 5 0 16381),
      (0x89004000, .jalr 0 1 0), (0x0D47FF80, .lhi 8 0x7FF80), (0x4452D6C0, .fmadd 10 11 11 12 0 0), (0x51004011, .csrsti 0 1 4),
      (0x50403C08, .csrld 8 0xF02), (0x98425210, .setvl 8 9 9 1 0), (0x99431000, .setvli 8 12 4096), (0xA0652C00, .enq 12 20 22),
      (0x9100001C, .fenceAll 4), (0x60000002, .xret), (0xB0000000, .gbar 0 0)],
    decode .inline (leBytes 4 x.1) = .instr x.2 4) ∧
  (∀ x ∈ [(0x0C124010C2101014, Instr.vfma (node8 4 0x008 0x014 0x018 2 9 0 0)),
      (0x00688400C10C1048, .vadd (node8 3 0x008 0x048 0 13 2 0 1)), (0x00000003C40C2030, .mandn (node8 3 0x010 0x030 0 0 0 0 0)),
      (0x00108005C8284038, .vrgatherX2 (node8 10 0x020 0x038 0 2 2 0 0)),
      (0x001D0004CB088080, .vmmaX1 (node8 2 0x040 0x080 0 3 20 0 0)), (0x14024008CB180400, .vaccrd (node8 6 0x002 0 0x028 0 9 0 0)),
      (0x00000001CC400012, .cpy (node8 16 0 0x012 0 0 0 0 0)), (0x00000006E3203020, .thtopk (node8 8 0x018 0x020 0 0 0 0 0)),
      (0x00000004E25A0000, .clwait (node8 22 0x100 0 0 0 0 0 0))],
    decode .inline (leBytes 8 x.1) = .instr x.2 8) ∧
  (∀ x ∈ [(0x00024002E1023001, Instr.lnkout (node8 0 0x118 0x001 0 0 9 0 0)), (0x00018004E1024009, .ereq (node8 0 0x120 0x009 0 0 6 0 0)),
      (0x00024003E1862000, .delay (node8 33 0x110 0 0 0 9 0 0))],
    decode .chain (leBytes 8 x.1) = .instr x.2 8)

/-- A step of the acting agent (R31-R33, R51; spec/17_traps.md R390; spec/16_isolation.md R380): after boot, with no turn waiting, it fetches at
the PC and executes what the bytes there decode to; what stops the fetch or the decoding traps. A turn of the agenda that is an
event executes it (log 1). That a PC that is not 4-byte aligned takes `ALIGN` before any fetch fault is the model's choice (log 47). -/
def Obligations.StepRunsTheDecodedInstruction : Prop :=
  (∀ s, s.agenda = [] → s.bootstat = 4#8 → MayFetch s →
    let at_ := s.me.pc.toNat % 8
    (s.me.pc.toNat % 4 ≠ 0 → step s = .next (takeTrap s (Trap.sync cAlign s.me.pc))) ∧
    (s.me.pc.toNat % 4 = 0 →
      (∀ f, resolveScalar s .fetch s.me.pc.toNat = .error f → step s = .next (takeTrap s f.trap)) ∧
      (∀ k, resolveScalar s .fetch s.me.pc.toNat = .ok (.mem k) → (∀ c ∈ s.istore, c.agent ≠ s.me.id) →
        let bs := (leBytes 8 (Memory.readLE s.mem (k / 8 * 8) 8)).drop at_
        (∀ i n, decode .inline bs = .instr i n → step s = exec i s) ∧
        (∀ x n, decode .inline bs = .fate .illegal x n → step s = .next (takeTrap s (Trap.sync cIllegal (BitVec.ofNat 64 x)))) ∧
        (∀ f x n, decode .inline bs = .fate (.feature f) x n → step s = .next (takeTrap s (Trap.sync cFeature (BitVec.ofNat 64 f)))) ∧
        (decode .inline bs = .short → step s = .next (takeTrap s (Trap.sync cAlign s.me.pc)))))) ∧
  (∀ s i rest, s.agenda = .event i :: rest → isEvent i = true → step s = exec i { s with agenda := rest }) ∧
  (∀ s, s.agenda = [] → 0x80 ≤ s.bootstat.toNat → step s = .fault (.bootStopped s.bootstat.toNat))

/-- Every step keeps each memory of the package in its canonical form. -/
def Obligations.EveryStepKeepsMemoryCanonical : Prop :=
  ∀ s t : State, MemoryCanonical s → step s = .next t → MemoryCanonical t

/-- No step brings a hart to M mode, or to a state from which `xret` would: U and S are the modes of a hart
(spec/01_machine.md R15; spec/17_traps.md R388). -/
def Obligations.NoStepBringsAHartToMachineMode : Prop :=
  ∀ s t : State, HartModes s → step s = .next t → HartModes t

/-- Reset (spec/16_isolation.md R372, R380; spec/18_ras.md R426): boot stands at phase 0x00, no byte of memory is other than zero and
none is poisoned, the measurements are zero, WDF of every tenancy is 4, no queue is enabled and nothing is admitted; both
invariants hold; and the next step runs phase 0x00. -/
def Obligations.ResetIsAsTheManualLeavesIt : Prop :=
  State.reset.bootstat = 0#8 ∧ (∀ k, Memory.read State.reset.mem k = 0#8) ∧ (∀ k, isPoisoned State.reset k = false) ∧
  State.reset.bmeas = .replicate 8 0#512 ∧ (∀ n, (tenOf State.reset n).wdf = 4#8 ∧ (tenOf State.reset n).rst = false) ∧
  (∀ q, (queueOf State.reset q).en = false) ∧ State.reset.entries = [] ∧ MemoryCanonical State.reset ∧ HartModes State.reset ∧
  (∃ t, step State.reset = .next t ∧ t.bootstat = 1#8)
end

