-- ==== Sys2Proof/Laws/State.lean ====
section
/-! SUPPORT. What each small update of the state leaves in each field: one lemma per field, by `rfl`. -/

namespace Sys2Proof
namespace Machine

/-! ### `wr` -/

@[simp] theorem wr_others (s : State) (r : Reg) (v : Word) : (wr s r v).others = s.others := rfl
@[simp] theorem wr_mem (s : State) (r : Reg) (v : Word) : (wr s r v).mem = s.mem := rfl
@[simp] theorem wr_poison (s : State) (r : Reg) (v : Word) : (wr s r v).poison = s.poison := rfl
@[simp] theorem wr_istore (s : State) (r : Reg) (v : Word) : (wr s r v).istore = s.istore := rfl
@[simp] theorem wr_tlb (s : State) (r : Reg) (v : Word) : (wr s r v).tlb = s.tlb := rfl
@[simp] theorem wr_laneOwner (s : State) (r : Reg) (v : Word) : (wr s r v).laneOwner = s.laneOwner := rfl
@[simp] theorem wr_tenancies (s : State) (r : Reg) (v : Word) : (wr s r v).tenancies = s.tenancies := rfl
@[simp] theorem wr_shares (s : State) (r : Reg) (v : Word) : (wr s r v).shares = s.shares := rfl
@[simp] theorem wr_aspaces (s : State) (r : Reg) (v : Word) : (wr s r v).aspaces = s.aspaces := rfl
@[simp] theorem wr_queues (s : State) (r : Reg) (v : Word) : (wr s r v).queues = s.queues := rfl
@[simp] theorem wr_ports (s : State) (r : Reg) (v : Word) : (wr s r v).ports = s.ports := rfl
@[simp] theorem wr_groups (s : State) (r : Reg) (v : Word) : (wr s r v).groups = s.groups := rfl
@[simp] theorem wr_migrations (s : State) (r : Reg) (v : Word) : (wr s r v).migrations = s.migrations := rfl
@[simp] theorem wr_debug (s : State) (r : Reg) (v : Word) : (wr s r v).debug = s.debug := rfl
@[simp] theorem wr_links (s : State) (r : Reg) (v : Word) : (wr s r v).links = s.links := rfl
@[simp] theorem wr_entries (s : State) (r : Reg) (v : Word) : (wr s r v).entries = s.entries := rfl
@[simp] theorem wr_delivered (s : State) (r : Reg) (v : Word) : (wr s r v).delivered = s.delivered := rfl
@[simp] theorem wr_rotation (s : State) (r : Reg) (v : Word) : (wr s r v).rotation = s.rotation := rfl
@[simp] theorem wr_scanNext (s : State) (r : Reg) (v : Word) : (wr s r v).scanNext = s.scanNext := rfl
@[simp] theorem wr_scanAt (s : State) (r : Reg) (v : Word) : (wr s r v).scanAt = s.scanAt := rfl
@[simp] theorem wr_drain (s : State) (r : Reg) (v : Word) : (wr s r v).drain = s.drain := rfl
@[simp] theorem wr_records (s : State) (r : Reg) (v : Word) : (wr s r v).records = s.records := rfl
@[simp] theorem wr_cmds (s : State) (r : Reg) (v : Word) : (wr s r v).cmds = s.cmds := rfl
@[simp] theorem wr_colls (s : State) (r : Reg) (v : Word) : (wr s r v).colls = s.colls := rfl
@[simp] theorem wr_early (s : State) (r : Reg) (v : Word) : (wr s r v).early = s.early := rfl
@[simp] theorem wr_groupSeq (s : State) (r : Reg) (v : Word) : (wr s r v).groupSeq = s.groupSeq := rfl
@[simp] theorem wr_kclock (s : State) (r : Reg) (v : Word) : (wr s r v).kclock = s.kclock := rfl
@[simp] theorem wr_cycles (s : State) (r : Reg) (v : Word) : (wr s r v).cycles = s.cycles := rfl
@[simp] theorem wr_clockStep (s : State) (r : Reg) (v : Word) : (wr s r v).clockStep = s.clockStep := rfl
@[simp] theorem wr_bootstat (s : State) (r : Reg) (v : Word) : (wr s r v).bootstat = s.bootstat := rfl
@[simp] theorem wr_bmeas (s : State) (r : Reg) (v : Word) : (wr s r v).bmeas = s.bmeas := rfl
@[simp] theorem wr_staging (s : State) (r : Reg) (v : Word) : (wr s r v).staging = s.staging := rfl
@[simp] theorem wr_stageAddr (s : State) (r : Reg) (v : Word) : (wr s r v).stageAddr = s.stageAddr := rfl
@[simp] theorem wr_mailbox (s : State) (r : Reg) (v : Word) : (wr s r v).mailbox = s.mailbox := rfl
@[simp] theorem wr_spdm (s : State) (r : Reg) (v : Word) : (wr s r v).spdm = s.spdm := rfl
@[simp] theorem wr_ccLoad (s : State) (r : Reg) (v : Word) : (wr s r v).ccLoad = s.ccLoad := rfl
@[simp] theorem wr_sent (s : State) (r : Reg) (v : Word) : (wr s r v).sent = s.sent := rfl
@[simp] theorem wr_coresOut (s : State) (r : Reg) (v : Word) : (wr s r v).coresOut = s.coresOut := rfl
@[simp] theorem wr_fenced (s : State) (r : Reg) (v : Word) : (wr s r v).fenced = s.fenced := rfl
@[simp] theorem wr_withheld (s : State) (r : Reg) (v : Word) : (wr s r v).withheld = s.withheld := rfl
@[simp] theorem wr_inside (s : State) (r : Reg) (v : Word) : (wr s r v).inside = s.inside := rfl
@[simp] theorem wr_heldFrames (s : State) (r : Reg) (v : Word) : (wr s r v).heldFrames = s.heldFrames := rfl
@[simp] theorem wr_spares (s : State) (r : Reg) (v : Word) : (wr s r v).spares = s.spares := rfl
@[simp] theorem wr_tick (s : State) (r : Reg) (v : Word) : (wr s r v).tick = s.tick := rfl
@[simp] theorem wr_agenda (s : State) (r : Reg) (v : Word) : (wr s r v).agenda = s.agenda := rfl

/-! ### `setPc` -/

@[simp] theorem setPc_others (s : State) (p : Word) : (setPc s p).others = s.others := rfl
@[simp] theorem setPc_mem (s : State) (p : Word) : (setPc s p).mem = s.mem := rfl
@[simp] theorem setPc_poison (s : State) (p : Word) : (setPc s p).poison = s.poison := rfl
@[simp] theorem setPc_istore (s : State) (p : Word) : (setPc s p).istore = s.istore := rfl
@[simp] theorem setPc_tlb (s : State) (p : Word) : (setPc s p).tlb = s.tlb := rfl
@[simp] theorem setPc_laneOwner (s : State) (p : Word) : (setPc s p).laneOwner = s.laneOwner := rfl
@[simp] theorem setPc_tenancies (s : State) (p : Word) : (setPc s p).tenancies = s.tenancies := rfl
@[simp] theorem setPc_shares (s : State) (p : Word) : (setPc s p).shares = s.shares := rfl
@[simp] theorem setPc_aspaces (s : State) (p : Word) : (setPc s p).aspaces = s.aspaces := rfl
@[simp] theorem setPc_queues (s : State) (p : Word) : (setPc s p).queues = s.queues := rfl
@[simp] theorem setPc_ports (s : State) (p : Word) : (setPc s p).ports = s.ports := rfl
@[simp] theorem setPc_groups (s : State) (p : Word) : (setPc s p).groups = s.groups := rfl
@[simp] theorem setPc_migrations (s : State) (p : Word) : (setPc s p).migrations = s.migrations := rfl
@[simp] theorem setPc_debug (s : State) (p : Word) : (setPc s p).debug = s.debug := rfl
@[simp] theorem setPc_links (s : State) (p : Word) : (setPc s p).links = s.links := rfl
@[simp] theorem setPc_entries (s : State) (p : Word) : (setPc s p).entries = s.entries := rfl
@[simp] theorem setPc_delivered (s : State) (p : Word) : (setPc s p).delivered = s.delivered := rfl
@[simp] theorem setPc_rotation (s : State) (p : Word) : (setPc s p).rotation = s.rotation := rfl
@[simp] theorem setPc_scanNext (s : State) (p : Word) : (setPc s p).scanNext = s.scanNext := rfl
@[simp] theorem setPc_scanAt (s : State) (p : Word) : (setPc s p).scanAt = s.scanAt := rfl
@[simp] theorem setPc_drain (s : State) (p : Word) : (setPc s p).drain = s.drain := rfl
@[simp] theorem setPc_records (s : State) (p : Word) : (setPc s p).records = s.records := rfl
@[simp] theorem setPc_cmds (s : State) (p : Word) : (setPc s p).cmds = s.cmds := rfl
@[simp] theorem setPc_colls (s : State) (p : Word) : (setPc s p).colls = s.colls := rfl
@[simp] theorem setPc_early (s : State) (p : Word) : (setPc s p).early = s.early := rfl
@[simp] theorem setPc_groupSeq (s : State) (p : Word) : (setPc s p).groupSeq = s.groupSeq := rfl
@[simp] theorem setPc_kclock (s : State) (p : Word) : (setPc s p).kclock = s.kclock := rfl
@[simp] theorem setPc_cycles (s : State) (p : Word) : (setPc s p).cycles = s.cycles := rfl
@[simp] theorem setPc_clockStep (s : State) (p : Word) : (setPc s p).clockStep = s.clockStep := rfl
@[simp] theorem setPc_bootstat (s : State) (p : Word) : (setPc s p).bootstat = s.bootstat := rfl
@[simp] theorem setPc_bmeas (s : State) (p : Word) : (setPc s p).bmeas = s.bmeas := rfl
@[simp] theorem setPc_staging (s : State) (p : Word) : (setPc s p).staging = s.staging := rfl
@[simp] theorem setPc_stageAddr (s : State) (p : Word) : (setPc s p).stageAddr = s.stageAddr := rfl
@[simp] theorem setPc_mailbox (s : State) (p : Word) : (setPc s p).mailbox = s.mailbox := rfl
@[simp] theorem setPc_spdm (s : State) (p : Word) : (setPc s p).spdm = s.spdm := rfl
@[simp] theorem setPc_ccLoad (s : State) (p : Word) : (setPc s p).ccLoad = s.ccLoad := rfl
@[simp] theorem setPc_sent (s : State) (p : Word) : (setPc s p).sent = s.sent := rfl
@[simp] theorem setPc_coresOut (s : State) (p : Word) : (setPc s p).coresOut = s.coresOut := rfl
@[simp] theorem setPc_fenced (s : State) (p : Word) : (setPc s p).fenced = s.fenced := rfl
@[simp] theorem setPc_withheld (s : State) (p : Word) : (setPc s p).withheld = s.withheld := rfl
@[simp] theorem setPc_inside (s : State) (p : Word) : (setPc s p).inside = s.inside := rfl
@[simp] theorem setPc_heldFrames (s : State) (p : Word) : (setPc s p).heldFrames = s.heldFrames := rfl
@[simp] theorem setPc_spares (s : State) (p : Word) : (setPc s p).spares = s.spares := rfl
@[simp] theorem setPc_tick (s : State) (p : Word) : (setPc s p).tick = s.tick := rfl
@[simp] theorem setPc_agenda (s : State) (p : Word) : (setPc s p).agenda = s.agenda := rfl

/-! ### `setVec` -/

@[simp] theorem setVec_others (s : State) (v : VecState) : (setVec s v).others = s.others := rfl
@[simp] theorem setVec_mem (s : State) (v : VecState) : (setVec s v).mem = s.mem := rfl
@[simp] theorem setVec_poison (s : State) (v : VecState) : (setVec s v).poison = s.poison := rfl
@[simp] theorem setVec_istore (s : State) (v : VecState) : (setVec s v).istore = s.istore := rfl
@[simp] theorem setVec_tlb (s : State) (v : VecState) : (setVec s v).tlb = s.tlb := rfl
@[simp] theorem setVec_laneOwner (s : State) (v : VecState) : (setVec s v).laneOwner = s.laneOwner := rfl
@[simp] theorem setVec_tenancies (s : State) (v : VecState) : (setVec s v).tenancies = s.tenancies := rfl
@[simp] theorem setVec_shares (s : State) (v : VecState) : (setVec s v).shares = s.shares := rfl
@[simp] theorem setVec_aspaces (s : State) (v : VecState) : (setVec s v).aspaces = s.aspaces := rfl
@[simp] theorem setVec_queues (s : State) (v : VecState) : (setVec s v).queues = s.queues := rfl
@[simp] theorem setVec_ports (s : State) (v : VecState) : (setVec s v).ports = s.ports := rfl
@[simp] theorem setVec_groups (s : State) (v : VecState) : (setVec s v).groups = s.groups := rfl
@[simp] theorem setVec_migrations (s : State) (v : VecState) : (setVec s v).migrations = s.migrations := rfl
@[simp] theorem setVec_debug (s : State) (v : VecState) : (setVec s v).debug = s.debug := rfl
@[simp] theorem setVec_links (s : State) (v : VecState) : (setVec s v).links = s.links := rfl
@[simp] theorem setVec_entries (s : State) (v : VecState) : (setVec s v).entries = s.entries := rfl
@[simp] theorem setVec_delivered (s : State) (v : VecState) : (setVec s v).delivered = s.delivered := rfl
@[simp] theorem setVec_rotation (s : State) (v : VecState) : (setVec s v).rotation = s.rotation := rfl
@[simp] theorem setVec_scanNext (s : State) (v : VecState) : (setVec s v).scanNext = s.scanNext := rfl
@[simp] theorem setVec_scanAt (s : State) (v : VecState) : (setVec s v).scanAt = s.scanAt := rfl
@[simp] theorem setVec_drain (s : State) (v : VecState) : (setVec s v).drain = s.drain := rfl
@[simp] theorem setVec_records (s : State) (v : VecState) : (setVec s v).records = s.records := rfl
@[simp] theorem setVec_cmds (s : State) (v : VecState) : (setVec s v).cmds = s.cmds := rfl
@[simp] theorem setVec_colls (s : State) (v : VecState) : (setVec s v).colls = s.colls := rfl
@[simp] theorem setVec_early (s : State) (v : VecState) : (setVec s v).early = s.early := rfl
@[simp] theorem setVec_groupSeq (s : State) (v : VecState) : (setVec s v).groupSeq = s.groupSeq := rfl
@[simp] theorem setVec_kclock (s : State) (v : VecState) : (setVec s v).kclock = s.kclock := rfl
@[simp] theorem setVec_cycles (s : State) (v : VecState) : (setVec s v).cycles = s.cycles := rfl
@[simp] theorem setVec_clockStep (s : State) (v : VecState) : (setVec s v).clockStep = s.clockStep := rfl
@[simp] theorem setVec_bootstat (s : State) (v : VecState) : (setVec s v).bootstat = s.bootstat := rfl
@[simp] theorem setVec_bmeas (s : State) (v : VecState) : (setVec s v).bmeas = s.bmeas := rfl
@[simp] theorem setVec_staging (s : State) (v : VecState) : (setVec s v).staging = s.staging := rfl
@[simp] theorem setVec_stageAddr (s : State) (v : VecState) : (setVec s v).stageAddr = s.stageAddr := rfl
@[simp] theorem setVec_mailbox (s : State) (v : VecState) : (setVec s v).mailbox = s.mailbox := rfl
@[simp] theorem setVec_spdm (s : State) (v : VecState) : (setVec s v).spdm = s.spdm := rfl
@[simp] theorem setVec_ccLoad (s : State) (v : VecState) : (setVec s v).ccLoad = s.ccLoad := rfl
@[simp] theorem setVec_sent (s : State) (v : VecState) : (setVec s v).sent = s.sent := rfl
@[simp] theorem setVec_coresOut (s : State) (v : VecState) : (setVec s v).coresOut = s.coresOut := rfl
@[simp] theorem setVec_fenced (s : State) (v : VecState) : (setVec s v).fenced = s.fenced := rfl
@[simp] theorem setVec_withheld (s : State) (v : VecState) : (setVec s v).withheld = s.withheld := rfl
@[simp] theorem setVec_inside (s : State) (v : VecState) : (setVec s v).inside = s.inside := rfl
@[simp] theorem setVec_heldFrames (s : State) (v : VecState) : (setVec s v).heldFrames = s.heldFrames := rfl
@[simp] theorem setVec_spares (s : State) (v : VecState) : (setVec s v).spares = s.spares := rfl
@[simp] theorem setVec_tick (s : State) (v : VecState) : (setVec s v).tick = s.tick := rfl
@[simp] theorem setVec_agenda (s : State) (v : VecState) : (setVec s v).agenda = s.agenda := rfl

/-! ### `raiseFlags` -/

@[simp] theorem raiseFlags_others (s : State) (f : BitVec 5) : (raiseFlags s f).others = s.others := rfl
@[simp] theorem raiseFlags_mem (s : State) (f : BitVec 5) : (raiseFlags s f).mem = s.mem := rfl
@[simp] theorem raiseFlags_poison (s : State) (f : BitVec 5) : (raiseFlags s f).poison = s.poison := rfl
@[simp] theorem raiseFlags_istore (s : State) (f : BitVec 5) : (raiseFlags s f).istore = s.istore := rfl
@[simp] theorem raiseFlags_tlb (s : State) (f : BitVec 5) : (raiseFlags s f).tlb = s.tlb := rfl
@[simp] theorem raiseFlags_laneOwner (s : State) (f : BitVec 5) : (raiseFlags s f).laneOwner = s.laneOwner := rfl
@[simp] theorem raiseFlags_tenancies (s : State) (f : BitVec 5) : (raiseFlags s f).tenancies = s.tenancies := rfl
@[simp] theorem raiseFlags_shares (s : State) (f : BitVec 5) : (raiseFlags s f).shares = s.shares := rfl
@[simp] theorem raiseFlags_aspaces (s : State) (f : BitVec 5) : (raiseFlags s f).aspaces = s.aspaces := rfl
@[simp] theorem raiseFlags_queues (s : State) (f : BitVec 5) : (raiseFlags s f).queues = s.queues := rfl
@[simp] theorem raiseFlags_ports (s : State) (f : BitVec 5) : (raiseFlags s f).ports = s.ports := rfl
@[simp] theorem raiseFlags_groups (s : State) (f : BitVec 5) : (raiseFlags s f).groups = s.groups := rfl
@[simp] theorem raiseFlags_migrations (s : State) (f : BitVec 5) : (raiseFlags s f).migrations = s.migrations := rfl
@[simp] theorem raiseFlags_debug (s : State) (f : BitVec 5) : (raiseFlags s f).debug = s.debug := rfl
@[simp] theorem raiseFlags_links (s : State) (f : BitVec 5) : (raiseFlags s f).links = s.links := rfl
@[simp] theorem raiseFlags_entries (s : State) (f : BitVec 5) : (raiseFlags s f).entries = s.entries := rfl
@[simp] theorem raiseFlags_delivered (s : State) (f : BitVec 5) : (raiseFlags s f).delivered = s.delivered := rfl
@[simp] theorem raiseFlags_rotation (s : State) (f : BitVec 5) : (raiseFlags s f).rotation = s.rotation := rfl
@[simp] theorem raiseFlags_scanNext (s : State) (f : BitVec 5) : (raiseFlags s f).scanNext = s.scanNext := rfl
@[simp] theorem raiseFlags_scanAt (s : State) (f : BitVec 5) : (raiseFlags s f).scanAt = s.scanAt := rfl
@[simp] theorem raiseFlags_drain (s : State) (f : BitVec 5) : (raiseFlags s f).drain = s.drain := rfl
@[simp] theorem raiseFlags_records (s : State) (f : BitVec 5) : (raiseFlags s f).records = s.records := rfl
@[simp] theorem raiseFlags_cmds (s : State) (f : BitVec 5) : (raiseFlags s f).cmds = s.cmds := rfl
@[simp] theorem raiseFlags_colls (s : State) (f : BitVec 5) : (raiseFlags s f).colls = s.colls := rfl
@[simp] theorem raiseFlags_early (s : State) (f : BitVec 5) : (raiseFlags s f).early = s.early := rfl
@[simp] theorem raiseFlags_groupSeq (s : State) (f : BitVec 5) : (raiseFlags s f).groupSeq = s.groupSeq := rfl
@[simp] theorem raiseFlags_kclock (s : State) (f : BitVec 5) : (raiseFlags s f).kclock = s.kclock := rfl
@[simp] theorem raiseFlags_cycles (s : State) (f : BitVec 5) : (raiseFlags s f).cycles = s.cycles := rfl
@[simp] theorem raiseFlags_clockStep (s : State) (f : BitVec 5) : (raiseFlags s f).clockStep = s.clockStep := rfl
@[simp] theorem raiseFlags_bootstat (s : State) (f : BitVec 5) : (raiseFlags s f).bootstat = s.bootstat := rfl
@[simp] theorem raiseFlags_bmeas (s : State) (f : BitVec 5) : (raiseFlags s f).bmeas = s.bmeas := rfl
@[simp] theorem raiseFlags_staging (s : State) (f : BitVec 5) : (raiseFlags s f).staging = s.staging := rfl
@[simp] theorem raiseFlags_stageAddr (s : State) (f : BitVec 5) : (raiseFlags s f).stageAddr = s.stageAddr := rfl
@[simp] theorem raiseFlags_mailbox (s : State) (f : BitVec 5) : (raiseFlags s f).mailbox = s.mailbox := rfl
@[simp] theorem raiseFlags_spdm (s : State) (f : BitVec 5) : (raiseFlags s f).spdm = s.spdm := rfl
@[simp] theorem raiseFlags_ccLoad (s : State) (f : BitVec 5) : (raiseFlags s f).ccLoad = s.ccLoad := rfl
@[simp] theorem raiseFlags_sent (s : State) (f : BitVec 5) : (raiseFlags s f).sent = s.sent := rfl
@[simp] theorem raiseFlags_coresOut (s : State) (f : BitVec 5) : (raiseFlags s f).coresOut = s.coresOut := rfl
@[simp] theorem raiseFlags_fenced (s : State) (f : BitVec 5) : (raiseFlags s f).fenced = s.fenced := rfl
@[simp] theorem raiseFlags_withheld (s : State) (f : BitVec 5) : (raiseFlags s f).withheld = s.withheld := rfl
@[simp] theorem raiseFlags_inside (s : State) (f : BitVec 5) : (raiseFlags s f).inside = s.inside := rfl
@[simp] theorem raiseFlags_heldFrames (s : State) (f : BitVec 5) : (raiseFlags s f).heldFrames = s.heldFrames := rfl
@[simp] theorem raiseFlags_spares (s : State) (f : BitVec 5) : (raiseFlags s f).spares = s.spares := rfl
@[simp] theorem raiseFlags_tick (s : State) (f : BitVec 5) : (raiseFlags s f).tick = s.tick := rfl
@[simp] theorem raiseFlags_agenda (s : State) (f : BitVec 5) : (raiseFlags s f).agenda = s.agenda := rfl

@[simp] theorem setPc_me_id (s : State) (p : Word) : (setPc s p).me.id = s.me.id := rfl
@[simp] theorem setPc_me_g (s : State) (p : Word) : (setPc s p).me.g = s.me.g := rfl
@[simp] theorem setPc_me_pg (s : State) (p : Word) : (setPc s p).me.pg = s.me.pg := rfl
@[simp] theorem setPc_me_mode (s : State) (p : Word) : (setPc s p).me.mode = s.me.mode := rfl
@[simp] theorem setPc_me_xpc (s : State) (p : Word) : (setPc s p).me.xpc = s.me.xpc := rfl
@[simp] theorem setPc_me_xasync (s : State) (p : Word) : (setPc s p).me.xasync = s.me.xasync := rfl
@[simp] theorem setPc_me_xcause (s : State) (p : Word) : (setPc s p).me.xcause = s.me.xcause := rfl
@[simp] theorem setPc_me_xval (s : State) (p : Word) : (setPc s p).me.xval = s.me.xval := rfl
@[simp] theorem setPc_me_runrep (s : State) (p : Word) : (setPc s p).me.runrep = s.me.runrep := rfl
@[simp] theorem setPc_me_fof (s : State) (p : Word) : (setPc s p).me.fof = s.me.fof := rfl
@[simp] theorem setPc_me_pm (s : State) (p : Word) : (setPc s p).me.pm = s.me.pm := rfl
@[simp] theorem setPc_me_rmode (s : State) (p : Word) : (setPc s p).me.rmode = s.me.rmode := rfl
@[simp] theorem setPc_me_fflags (s : State) (p : Word) : (setPc s p).me.fflags = s.me.fflags := rfl
@[simp] theorem setPc_me_vec (s : State) (p : Word) : (setPc s p).me.vec = s.me.vec := rfl
@[simp] theorem setPc_me_lanes (s : State) (p : Word) : (setPc s p).me.lanes = s.me.lanes := rfl
@[simp] theorem setPc_me_first (s : State) (p : Word) : (setPc s p).me.first = s.me.first := rfl
@[simp] theorem setPc_me_nlanes (s : State) (p : Word) : (setPc s p).me.nlanes = s.me.nlanes := rfl
@[simp] theorem setPc_me_nfirst (s : State) (p : Word) : (setPc s p).me.nfirst = s.me.nfirst := rfl
@[simp] theorem setPc_me_ten (s : State) (p : Word) : (setPc s p).me.ten = s.me.ten := rfl
@[simp] theorem setPc_me_asid (s : State) (p : Word) : (setPc s p).me.asid = s.me.asid := rfl
@[simp] theorem setPc_me_srcq (s : State) (p : Word) : (setPc s p).me.srcq = s.me.srcq := rfl
@[simp] theorem setPc_me_seq (s : State) (p : Word) : (setPc s p).me.seq = s.me.seq := rfl
@[simp] theorem setPc_me_task (s : State) (p : Word) : (setPc s p).me.task = s.me.task := rfl
@[simp] theorem setPc_me_status (s : State) (p : Word) : (setPc s p).me.status = s.me.status := rfl
@[simp] theorem setPc_me_held (s : State) (p : Word) : (setPc s p).me.held = s.me.held := rfl
@[simp] theorem setPc_me_overrun (s : State) (p : Word) : (setPc s p).me.overrun = s.me.overrun := rfl
@[simp] theorem setPc_me_overdue (s : State) (p : Word) : (setPc s p).me.overdue = s.me.overdue := rfl
@[simp] theorem setPc_me_stopped (s : State) (p : Word) : (setPc s p).me.stopped = s.me.stopped := rfl
@[simp] theorem setPc_me_halted (s : State) (p : Word) : (setPc s p).me.halted = s.me.halted := rfl
@[simp] theorem setPc_me_garr (s : State) (p : Word) : (setPc s p).me.garr = s.me.garr := rfl
@[simp] theorem setPc_me_tarr (s : State) (p : Word) : (setPc s p).me.tarr = s.me.tarr := rfl
@[simp] theorem setPc_me_gwait (s : State) (p : Word) : (setPc s p).me.gwait = s.me.gwait := rfl
@[simp] theorem setPc_me_twait (s : State) (p : Word) : (setPc s p).me.twait = s.me.twait := rfl
@[simp] theorem setPc_me_inRows (s : State) (p : Word) : (setPc s p).me.inRows = s.me.inRows := rfl
@[simp] theorem setPc_me_saveRows (s : State) (p : Word) : (setPc s p).me.saveRows = s.me.saveRows := rfl
@[simp] theorem setPc_me_reclaimed (s : State) (p : Word) : (setPc s p).me.reclaimed = s.me.reclaimed := rfl
@[simp] theorem setPc_me_kept (s : State) (p : Word) : (setPc s p).me.kept = s.me.kept := rfl
@[simp] theorem setPc_me_cc (s : State) (p : Word) : (setPc s p).me.cc = s.me.cc := rfl

@[simp] theorem setVec_me_id (s : State) (v : VecState) : (setVec s v).me.id = s.me.id := rfl
@[simp] theorem setVec_me_g (s : State) (v : VecState) : (setVec s v).me.g = s.me.g := rfl
@[simp] theorem setVec_me_pg (s : State) (v : VecState) : (setVec s v).me.pg = s.me.pg := rfl
@[simp] theorem setVec_me_pc (s : State) (v : VecState) : (setVec s v).me.pc = s.me.pc := rfl
@[simp] theorem setVec_me_mode (s : State) (v : VecState) : (setVec s v).me.mode = s.me.mode := rfl
@[simp] theorem setVec_me_xpc (s : State) (v : VecState) : (setVec s v).me.xpc = s.me.xpc := rfl
@[simp] theorem setVec_me_xasync (s : State) (v : VecState) : (setVec s v).me.xasync = s.me.xasync := rfl
@[simp] theorem setVec_me_xcause (s : State) (v : VecState) : (setVec s v).me.xcause = s.me.xcause := rfl
@[simp] theorem setVec_me_xval (s : State) (v : VecState) : (setVec s v).me.xval = s.me.xval := rfl
@[simp] theorem setVec_me_runrep (s : State) (v : VecState) : (setVec s v).me.runrep = s.me.runrep := rfl
@[simp] theorem setVec_me_fof (s : State) (v : VecState) : (setVec s v).me.fof = s.me.fof := rfl
@[simp] theorem setVec_me_pm (s : State) (v : VecState) : (setVec s v).me.pm = s.me.pm := rfl
@[simp] theorem setVec_me_rmode (s : State) (v : VecState) : (setVec s v).me.rmode = s.me.rmode := rfl
@[simp] theorem setVec_me_fflags (s : State) (v : VecState) : (setVec s v).me.fflags = s.me.fflags := rfl
@[simp] theorem setVec_me_lanes (s : State) (v : VecState) : (setVec s v).me.lanes = s.me.lanes := rfl
@[simp] theorem setVec_me_first (s : State) (v : VecState) : (setVec s v).me.first = s.me.first := rfl
@[simp] theorem setVec_me_nlanes (s : State) (v : VecState) : (setVec s v).me.nlanes = s.me.nlanes := rfl
@[simp] theorem setVec_me_nfirst (s : State) (v : VecState) : (setVec s v).me.nfirst = s.me.nfirst := rfl
@[simp] theorem setVec_me_ten (s : State) (v : VecState) : (setVec s v).me.ten = s.me.ten := rfl
@[simp] theorem setVec_me_asid (s : State) (v : VecState) : (setVec s v).me.asid = s.me.asid := rfl
@[simp] theorem setVec_me_srcq (s : State) (v : VecState) : (setVec s v).me.srcq = s.me.srcq := rfl
@[simp] theorem setVec_me_seq (s : State) (v : VecState) : (setVec s v).me.seq = s.me.seq := rfl
@[simp] theorem setVec_me_task (s : State) (v : VecState) : (setVec s v).me.task = s.me.task := rfl
@[simp] theorem setVec_me_status (s : State) (v : VecState) : (setVec s v).me.status = s.me.status := rfl
@[simp] theorem setVec_me_held (s : State) (v : VecState) : (setVec s v).me.held = s.me.held := rfl
@[simp] theorem setVec_me_overrun (s : State) (v : VecState) : (setVec s v).me.overrun = s.me.overrun := rfl
@[simp] theorem setVec_me_overdue (s : State) (v : VecState) : (setVec s v).me.overdue = s.me.overdue := rfl
@[simp] theorem setVec_me_stopped (s : State) (v : VecState) : (setVec s v).me.stopped = s.me.stopped := rfl
@[simp] theorem setVec_me_halted (s : State) (v : VecState) : (setVec s v).me.halted = s.me.halted := rfl
@[simp] theorem setVec_me_garr (s : State) (v : VecState) : (setVec s v).me.garr = s.me.garr := rfl
@[simp] theorem setVec_me_tarr (s : State) (v : VecState) : (setVec s v).me.tarr = s.me.tarr := rfl
@[simp] theorem setVec_me_gwait (s : State) (v : VecState) : (setVec s v).me.gwait = s.me.gwait := rfl
@[simp] theorem setVec_me_twait (s : State) (v : VecState) : (setVec s v).me.twait = s.me.twait := rfl
@[simp] theorem setVec_me_inRows (s : State) (v : VecState) : (setVec s v).me.inRows = s.me.inRows := rfl
@[simp] theorem setVec_me_saveRows (s : State) (v : VecState) : (setVec s v).me.saveRows = s.me.saveRows := rfl
@[simp] theorem setVec_me_reclaimed (s : State) (v : VecState) : (setVec s v).me.reclaimed = s.me.reclaimed := rfl
@[simp] theorem setVec_me_kept (s : State) (v : VecState) : (setVec s v).me.kept = s.me.kept := rfl
@[simp] theorem setVec_me_cc (s : State) (v : VecState) : (setVec s v).me.cc = s.me.cc := rfl

@[simp] theorem raiseFlags_me_id (s : State) (f : BitVec 5) : (raiseFlags s f).me.id = s.me.id := rfl
@[simp] theorem raiseFlags_me_g (s : State) (f : BitVec 5) : (raiseFlags s f).me.g = s.me.g := rfl
@[simp] theorem raiseFlags_me_pg (s : State) (f : BitVec 5) : (raiseFlags s f).me.pg = s.me.pg := rfl
@[simp] theorem raiseFlags_me_pc (s : State) (f : BitVec 5) : (raiseFlags s f).me.pc = s.me.pc := rfl
@[simp] theorem raiseFlags_me_mode (s : State) (f : BitVec 5) : (raiseFlags s f).me.mode = s.me.mode := rfl
@[simp] theorem raiseFlags_me_xpc (s : State) (f : BitVec 5) : (raiseFlags s f).me.xpc = s.me.xpc := rfl
@[simp] theorem raiseFlags_me_xasync (s : State) (f : BitVec 5) : (raiseFlags s f).me.xasync = s.me.xasync := rfl
@[simp] theorem raiseFlags_me_xcause (s : State) (f : BitVec 5) : (raiseFlags s f).me.xcause = s.me.xcause := rfl
@[simp] theorem raiseFlags_me_xval (s : State) (f : BitVec 5) : (raiseFlags s f).me.xval = s.me.xval := rfl
@[simp] theorem raiseFlags_me_runrep (s : State) (f : BitVec 5) : (raiseFlags s f).me.runrep = s.me.runrep := rfl
@[simp] theorem raiseFlags_me_fof (s : State) (f : BitVec 5) : (raiseFlags s f).me.fof = s.me.fof := rfl
@[simp] theorem raiseFlags_me_pm (s : State) (f : BitVec 5) : (raiseFlags s f).me.pm = s.me.pm := rfl
@[simp] theorem raiseFlags_me_rmode (s : State) (f : BitVec 5) : (raiseFlags s f).me.rmode = s.me.rmode := rfl
@[simp] theorem raiseFlags_me_vec (s : State) (f : BitVec 5) : (raiseFlags s f).me.vec = s.me.vec := rfl
@[simp] theorem raiseFlags_me_lanes (s : State) (f : BitVec 5) : (raiseFlags s f).me.lanes = s.me.lanes := rfl
@[simp] theorem raiseFlags_me_first (s : State) (f : BitVec 5) : (raiseFlags s f).me.first = s.me.first := rfl
@[simp] theorem raiseFlags_me_nlanes (s : State) (f : BitVec 5) : (raiseFlags s f).me.nlanes = s.me.nlanes := rfl
@[simp] theorem raiseFlags_me_nfirst (s : State) (f : BitVec 5) : (raiseFlags s f).me.nfirst = s.me.nfirst := rfl
@[simp] theorem raiseFlags_me_ten (s : State) (f : BitVec 5) : (raiseFlags s f).me.ten = s.me.ten := rfl
@[simp] theorem raiseFlags_me_asid (s : State) (f : BitVec 5) : (raiseFlags s f).me.asid = s.me.asid := rfl
@[simp] theorem raiseFlags_me_srcq (s : State) (f : BitVec 5) : (raiseFlags s f).me.srcq = s.me.srcq := rfl
@[simp] theorem raiseFlags_me_seq (s : State) (f : BitVec 5) : (raiseFlags s f).me.seq = s.me.seq := rfl
@[simp] theorem raiseFlags_me_task (s : State) (f : BitVec 5) : (raiseFlags s f).me.task = s.me.task := rfl
@[simp] theorem raiseFlags_me_status (s : State) (f : BitVec 5) : (raiseFlags s f).me.status = s.me.status := rfl
@[simp] theorem raiseFlags_me_held (s : State) (f : BitVec 5) : (raiseFlags s f).me.held = s.me.held := rfl
@[simp] theorem raiseFlags_me_overrun (s : State) (f : BitVec 5) : (raiseFlags s f).me.overrun = s.me.overrun := rfl
@[simp] theorem raiseFlags_me_overdue (s : State) (f : BitVec 5) : (raiseFlags s f).me.overdue = s.me.overdue := rfl
@[simp] theorem raiseFlags_me_stopped (s : State) (f : BitVec 5) : (raiseFlags s f).me.stopped = s.me.stopped := rfl
@[simp] theorem raiseFlags_me_halted (s : State) (f : BitVec 5) : (raiseFlags s f).me.halted = s.me.halted := rfl
@[simp] theorem raiseFlags_me_garr (s : State) (f : BitVec 5) : (raiseFlags s f).me.garr = s.me.garr := rfl
@[simp] theorem raiseFlags_me_tarr (s : State) (f : BitVec 5) : (raiseFlags s f).me.tarr = s.me.tarr := rfl
@[simp] theorem raiseFlags_me_gwait (s : State) (f : BitVec 5) : (raiseFlags s f).me.gwait = s.me.gwait := rfl
@[simp] theorem raiseFlags_me_twait (s : State) (f : BitVec 5) : (raiseFlags s f).me.twait = s.me.twait := rfl
@[simp] theorem raiseFlags_me_inRows (s : State) (f : BitVec 5) : (raiseFlags s f).me.inRows = s.me.inRows := rfl
@[simp] theorem raiseFlags_me_saveRows (s : State) (f : BitVec 5) : (raiseFlags s f).me.saveRows = s.me.saveRows := rfl
@[simp] theorem raiseFlags_me_reclaimed (s : State) (f : BitVec 5) : (raiseFlags s f).me.reclaimed = s.me.reclaimed := rfl
@[simp] theorem raiseFlags_me_kept (s : State) (f : BitVec 5) : (raiseFlags s f).me.kept = s.me.kept := rfl
@[simp] theorem raiseFlags_me_cc (s : State) (f : BitVec 5) : (raiseFlags s f).me.cc = s.me.cc := rfl

@[simp] theorem setPc_me_pc (s : State) (p : Word) : (setPc s p).me.pc = p := rfl
@[simp] theorem setVec_me_vec (s : State) (v : VecState) : (setVec s v).me.vec = v := rfl
@[simp] theorem raiseFlags_me_fflags (s : State) (f : BitVec 5) : (raiseFlags s f).me.fflags = s.me.fflags ||| f := rfl

/-! ### `setG` and `wr` on the acting agent -/

@[simp] theorem setG_id (a : Agent) (r : Reg) (v : Word) : (setG a r v).id = a.id := by
  unfold setG; split <;> rfl
@[simp] theorem wr_me_id (s : State) (r : Reg) (v : Word) : (wr s r v).me.id = s.me.id := setG_id s.me r v
@[simp] theorem setG_pc (a : Agent) (r : Reg) (v : Word) : (setG a r v).pc = a.pc := by
  unfold setG; split <;> rfl
@[simp] theorem wr_me_pc (s : State) (r : Reg) (v : Word) : (wr s r v).me.pc = s.me.pc := setG_pc s.me r v
@[simp] theorem setG_mode (a : Agent) (r : Reg) (v : Word) : (setG a r v).mode = a.mode := by
  unfold setG; split <;> rfl
@[simp] theorem wr_me_mode (s : State) (r : Reg) (v : Word) : (wr s r v).me.mode = s.me.mode := setG_mode s.me r v
@[simp] theorem setG_xpc (a : Agent) (r : Reg) (v : Word) : (setG a r v).xpc = a.xpc := by
  unfold setG; split <;> rfl
@[simp] theorem wr_me_xpc (s : State) (r : Reg) (v : Word) : (wr s r v).me.xpc = s.me.xpc := setG_xpc s.me r v
@[simp] theorem setG_xasync (a : Agent) (r : Reg) (v : Word) : (setG a r v).xasync = a.xasync := by
  unfold setG; split <;> rfl
@[simp] theorem wr_me_xasync (s : State) (r : Reg) (v : Word) : (wr s r v).me.xasync = s.me.xasync := setG_xasync s.me r v
@[simp] theorem setG_xcause (a : Agent) (r : Reg) (v : Word) : (setG a r v).xcause = a.xcause := by
  unfold setG; split <;> rfl
@[simp] theorem wr_me_xcause (s : State) (r : Reg) (v : Word) : (wr s r v).me.xcause = s.me.xcause := setG_xcause s.me r v
@[simp] theorem setG_xval (a : Agent) (r : Reg) (v : Word) : (setG a r v).xval = a.xval := by
  unfold setG; split <;> rfl
@[simp] theorem wr_me_xval (s : State) (r : Reg) (v : Word) : (wr s r v).me.xval = s.me.xval := setG_xval s.me r v
@[simp] theorem setG_runrep (a : Agent) (r : Reg) (v : Word) : (setG a r v).runrep = a.runrep := by
  unfold setG; split <;> rfl
@[simp] theorem wr_me_runrep (s : State) (r : Reg) (v : Word) : (wr s r v).me.runrep = s.me.runrep := setG_runrep s.me r v
@[simp] theorem setG_fof (a : Agent) (r : Reg) (v : Word) : (setG a r v).fof = a.fof := by
  unfold setG; split <;> rfl
@[simp] theorem wr_me_fof (s : State) (r : Reg) (v : Word) : (wr s r v).me.fof = s.me.fof := setG_fof s.me r v
@[simp] theorem setG_pm (a : Agent) (r : Reg) (v : Word) : (setG a r v).pm = a.pm := by
  unfold setG; split <;> rfl
@[simp] theorem wr_me_pm (s : State) (r : Reg) (v : Word) : (wr s r v).me.pm = s.me.pm := setG_pm s.me r v
@[simp] theorem setG_rmode (a : Agent) (r : Reg) (v : Word) : (setG a r v).rmode = a.rmode := by
  unfold setG; split <;> rfl
@[simp] theorem wr_me_rmode (s : State) (r : Reg) (v : Word) : (wr s r v).me.rmode = s.me.rmode := setG_rmode s.me r v
@[simp] theorem setG_fflags (a : Agent) (r : Reg) (v : Word) : (setG a r v).fflags = a.fflags := by
  unfold setG; split <;> rfl
@[simp] theorem wr_me_fflags (s : State) (r : Reg) (v : Word) : (wr s r v).me.fflags = s.me.fflags := setG_fflags s.me r v
@[simp] theorem setG_vec (a : Agent) (r : Reg) (v : Word) : (setG a r v).vec = a.vec := by
  unfold setG; split <;> rfl
@[simp] theorem wr_me_vec (s : State) (r : Reg) (v : Word) : (wr s r v).me.vec = s.me.vec := setG_vec s.me r v
@[simp] theorem setG_lanes (a : Agent) (r : Reg) (v : Word) : (setG a r v).lanes = a.lanes := by
  unfold setG; split <;> rfl
@[simp] theorem wr_me_lanes (s : State) (r : Reg) (v : Word) : (wr s r v).me.lanes = s.me.lanes := setG_lanes s.me r v
@[simp] theorem setG_first (a : Agent) (r : Reg) (v : Word) : (setG a r v).first = a.first := by
  unfold setG; split <;> rfl
@[simp] theorem wr_me_first (s : State) (r : Reg) (v : Word) : (wr s r v).me.first = s.me.first := setG_first s.me r v
@[simp] theorem setG_nlanes (a : Agent) (r : Reg) (v : Word) : (setG a r v).nlanes = a.nlanes := by
  unfold setG; split <;> rfl
@[simp] theorem wr_me_nlanes (s : State) (r : Reg) (v : Word) : (wr s r v).me.nlanes = s.me.nlanes := setG_nlanes s.me r v
@[simp] theorem setG_nfirst (a : Agent) (r : Reg) (v : Word) : (setG a r v).nfirst = a.nfirst := by
  unfold setG; split <;> rfl
@[simp] theorem wr_me_nfirst (s : State) (r : Reg) (v : Word) : (wr s r v).me.nfirst = s.me.nfirst := setG_nfirst s.me r v
@[simp] theorem setG_ten (a : Agent) (r : Reg) (v : Word) : (setG a r v).ten = a.ten := by
  unfold setG; split <;> rfl
@[simp] theorem wr_me_ten (s : State) (r : Reg) (v : Word) : (wr s r v).me.ten = s.me.ten := setG_ten s.me r v
@[simp] theorem setG_asid (a : Agent) (r : Reg) (v : Word) : (setG a r v).asid = a.asid := by
  unfold setG; split <;> rfl
@[simp] theorem wr_me_asid (s : State) (r : Reg) (v : Word) : (wr s r v).me.asid = s.me.asid := setG_asid s.me r v
@[simp] theorem setG_srcq (a : Agent) (r : Reg) (v : Word) : (setG a r v).srcq = a.srcq := by
  unfold setG; split <;> rfl
@[simp] theorem wr_me_srcq (s : State) (r : Reg) (v : Word) : (wr s r v).me.srcq = s.me.srcq := setG_srcq s.me r v
@[simp] theorem setG_seq (a : Agent) (r : Reg) (v : Word) : (setG a r v).seq = a.seq := by
  unfold setG; split <;> rfl
@[simp] theorem wr_me_seq (s : State) (r : Reg) (v : Word) : (wr s r v).me.seq = s.me.seq := setG_seq s.me r v
@[simp] theorem setG_task (a : Agent) (r : Reg) (v : Word) : (setG a r v).task = a.task := by
  unfold setG; split <;> rfl
@[simp] theorem wr_me_task (s : State) (r : Reg) (v : Word) : (wr s r v).me.task = s.me.task := setG_task s.me r v
@[simp] theorem setG_status (a : Agent) (r : Reg) (v : Word) : (setG a r v).status = a.status := by
  unfold setG; split <;> rfl
@[simp] theorem wr_me_status (s : State) (r : Reg) (v : Word) : (wr s r v).me.status = s.me.status := setG_status s.me r v
@[simp] theorem setG_held (a : Agent) (r : Reg) (v : Word) : (setG a r v).held = a.held := by
  unfold setG; split <;> rfl
@[simp] theorem wr_me_held (s : State) (r : Reg) (v : Word) : (wr s r v).me.held = s.me.held := setG_held s.me r v
@[simp] theorem setG_overrun (a : Agent) (r : Reg) (v : Word) : (setG a r v).overrun = a.overrun := by
  unfold setG; split <;> rfl
@[simp] theorem wr_me_overrun (s : State) (r : Reg) (v : Word) : (wr s r v).me.overrun = s.me.overrun := setG_overrun s.me r v
@[simp] theorem setG_overdue (a : Agent) (r : Reg) (v : Word) : (setG a r v).overdue = a.overdue := by
  unfold setG; split <;> rfl
@[simp] theorem wr_me_overdue (s : State) (r : Reg) (v : Word) : (wr s r v).me.overdue = s.me.overdue := setG_overdue s.me r v
@[simp] theorem setG_stopped (a : Agent) (r : Reg) (v : Word) : (setG a r v).stopped = a.stopped := by
  unfold setG; split <;> rfl
@[simp] theorem wr_me_stopped (s : State) (r : Reg) (v : Word) : (wr s r v).me.stopped = s.me.stopped := setG_stopped s.me r v
@[simp] theorem setG_halted (a : Agent) (r : Reg) (v : Word) : (setG a r v).halted = a.halted := by
  unfold setG; split <;> rfl
@[simp] theorem wr_me_halted (s : State) (r : Reg) (v : Word) : (wr s r v).me.halted = s.me.halted := setG_halted s.me r v
@[simp] theorem setG_garr (a : Agent) (r : Reg) (v : Word) : (setG a r v).garr = a.garr := by
  unfold setG; split <;> rfl
@[simp] theorem wr_me_garr (s : State) (r : Reg) (v : Word) : (wr s r v).me.garr = s.me.garr := setG_garr s.me r v
@[simp] theorem setG_tarr (a : Agent) (r : Reg) (v : Word) : (setG a r v).tarr = a.tarr := by
  unfold setG; split <;> rfl
@[simp] theorem wr_me_tarr (s : State) (r : Reg) (v : Word) : (wr s r v).me.tarr = s.me.tarr := setG_tarr s.me r v
@[simp] theorem setG_gwait (a : Agent) (r : Reg) (v : Word) : (setG a r v).gwait = a.gwait := by
  unfold setG; split <;> rfl
@[simp] theorem wr_me_gwait (s : State) (r : Reg) (v : Word) : (wr s r v).me.gwait = s.me.gwait := setG_gwait s.me r v
@[simp] theorem setG_twait (a : Agent) (r : Reg) (v : Word) : (setG a r v).twait = a.twait := by
  unfold setG; split <;> rfl
@[simp] theorem wr_me_twait (s : State) (r : Reg) (v : Word) : (wr s r v).me.twait = s.me.twait := setG_twait s.me r v
@[simp] theorem setG_inRows (a : Agent) (r : Reg) (v : Word) : (setG a r v).inRows = a.inRows := by
  unfold setG; split <;> rfl
@[simp] theorem wr_me_inRows (s : State) (r : Reg) (v : Word) : (wr s r v).me.inRows = s.me.inRows := setG_inRows s.me r v
@[simp] theorem setG_saveRows (a : Agent) (r : Reg) (v : Word) : (setG a r v).saveRows = a.saveRows := by
  unfold setG; split <;> rfl
@[simp] theorem wr_me_saveRows (s : State) (r : Reg) (v : Word) : (wr s r v).me.saveRows = s.me.saveRows := setG_saveRows s.me r v
@[simp] theorem setG_reclaimed (a : Agent) (r : Reg) (v : Word) : (setG a r v).reclaimed = a.reclaimed := by
  unfold setG; split <;> rfl
@[simp] theorem wr_me_reclaimed (s : State) (r : Reg) (v : Word) : (wr s r v).me.reclaimed = s.me.reclaimed := setG_reclaimed s.me r v
@[simp] theorem setG_kept (a : Agent) (r : Reg) (v : Word) : (setG a r v).kept = a.kept := by
  unfold setG; split <;> rfl
@[simp] theorem wr_me_kept (s : State) (r : Reg) (v : Word) : (wr s r v).me.kept = s.me.kept := setG_kept s.me r v
@[simp] theorem setG_cc (a : Agent) (r : Reg) (v : Word) : (setG a r v).cc = a.cc := by
  unfold setG; split <;> rfl
@[simp] theorem wr_me_cc (s : State) (r : Reg) (v : Word) : (wr s r v).me.cc = s.me.cc := setG_cc s.me r v

/-- What a register reads after a write: g0 reads zero (spec/02_encoding.md R35). -/
theorem getG_setG (a : Agent) (d r : Reg) (v : Word) :
    getG (setG a d v) r = if r = 0 then 0#64 else if r = d then v else getG a r := by
  unfold getG setG
  by_cases hr : r = 0
  · simp [hr]
  · by_cases hd : d = 0
    · have : r ≠ d := fun h => hr (h.trans hd)
      simp [hr, hd]
    · by_cases h : r = d
      · subst h; simp [hr]
      · have h' : d ≠ r := fun e => h e.symm
        have h'' : d.val ≠ r.val := fun e => h' (Fin.ext e)
        simp [hr, hd, h, h'']

/-- A register that another register's write leaves. -/
theorem getG_setG_other (a : Agent) {d r : Reg} (v : Word) (h : r ≠ d) : getG (setG a d v) r = getG a r := by
  rw [getG_setG]
  by_cases hr : r = 0
  · simp [hr, getG]
  · simp [hr, h]

/-- A write to g0 changes nothing (R35). -/
@[simp] theorem wr_zero (s : State) (v : Word) : wr s 0 v = s := by simp [wr, setG]

/-- What the acting agent's registers read after a write. -/
theorem rd_wr (s : State) (d r : Reg) (v : Word) :
    rd (wr s d v) r = if r = 0 then 0#64 else if r = d then v else rd s r := getG_setG s.me d r v

@[simp] theorem rd_setPc (s : State) (p : Word) (r : Reg) : rd (setPc s p) r = rd s r := rfl
@[simp] theorem rd_setVec (s : State) (v : VecState) (r : Reg) : rd (setVec s v) r = rd s r := rfl
@[simp] theorem rd_raiseFlags (s : State) (f : BitVec 5) (r : Reg) : rd (raiseFlags s f) r = rd s r := rfl

end Machine
end Sys2Proof
end

