-- ==== Sys2Proof/Laws/Scalar.lean ====
section
/-! SUPPORT. The shared shape of the 32-bit instructions: what `scalar` answers, and the effect of one that writes a
register. -/

namespace Sys2Proof
namespace Machine

/-- Unpoisoned registers stop nothing. -/
theorem poisonedG_none {s : State} {rs : List Reg} (h : Clean s rs) : poisonedG s.me rs = none := by
  simp only [poisonedG, Option.map_eq_none_iff, List.find?_eq_none]
  intro r hr
  by_cases h0 : r = 0
  · simp [h0]
  · have := h r hr h0
    simp only [BitVec.getLsbD_eq_getElem r.isLt] at this
    simp [this]

/-- An instruction whose registers are unpoisoned has its own effect. -/
theorem withG_clean {s : State} {rs : List Reg} (h : Clean s rs) (k : Ans) : withG s rs k = k := by
  simp [withG, poisonedG_none h]

theorem scalar_clean {s : State} {rs : List Reg} (h : Clean s rs) (k : Ans) : scalar s rs k = finish 4 k := by
  simp [scalar, withG_clean h]

/-- A poisoned register among those an instruction reads: `POISON`, with the register's number. -/
theorem scalar_poisoned {s : State} {rs : List Reg} {t : Trap} (h : poisonedG s.me rs = some t) (k : Ans) :
    scalar s rs k = .next (takeTrap s t) := by
  simp [scalar, withG, h, finish]

@[simp] theorem finish_done (n : Nat) (s : State) : finish n (.done s) = .next (setPc s (s.me.pc + BitVec.ofNat 64 n)) := rfl
@[simp] theorem finish_jump (n : Nat) (s : State) (p : Word) : finish n (.jump s p) = .next (setPc s p) := rfl
@[simp] theorem finish_trap (n : Nat) (s : State) (t : Trap) : finish n (.trap s t) = .next (takeTrap s t) := rfl
@[simp] theorem finish_wait (n : Nat) (s : State) : finish n (.wait s) = .next s := rfl

/-- The poison bits after a write of a register. -/
theorem setG_pg (a : Agent) (d r : Reg) (v : Word) :
    (setG a d v).pg.getLsbD r.val = (a.pg.getLsbD r.val && (r != d || d == 0)) := by
  unfold setG
  split
  · next h => simp [h]
  · next h =>
    have hr := r.isLt
    by_cases e : r = d
    · subst e; simp [h, hr]
    · have e' : ¬ r.val = d.val := fun x => e (Fin.ext x)
      have e'' : (r != d) = true := by simpa using e
      simp [hr, e', e'']

/-- Adding no flags changes nothing. -/
@[simp] theorem raiseFlags_zero (s : State) : raiseFlags s 0#5 = s := by
  have : s.me.fflags ||| 0#5 = s.me.fflags := by simp
  unfold raiseFlags
  rw [this]

/-- Writing a register, adding flags and moving the PC by 4 is the effect of `RegEffect`. -/
theorem regEffect_of (s : State) (d : Reg) (v : Word) (fl : BitVec 5) :
    RegEffect s d v fl (setPc (raiseFlags (wr s d v) fl) (s.me.pc + 4#64)) := by
  refine ⟨fun r => getG_setG s.me d r v, fun r => setG_pg s.me d r v, ?_⟩
  by_cases h : d = 0
  · simp [wr, setG, h, setPc, raiseFlags]
  · simp [wr, setG, h, setPc, raiseFlags]

/-- The shape of an instruction that writes one register and adds flags. -/
theorem gives_flags {i : Instr} {s : State} {rs : List Reg} {d : Reg} {v : Word} {fl : BitVec 5}
    (h : exec i s = scalar s rs (.done (raiseFlags (wr s d v) fl))) : Gives i rs s d v fl := by
  intro hc
  refine ⟨_, ?_, regEffect_of s d v fl⟩
  rw [h, scalar_clean hc]
  simp

/-- The shape of an instruction that writes one register. -/
theorem gives_plain {i : Instr} {s : State} {rs : List Reg} {d : Reg} {v : Word}
    (h : exec i s = scalar s rs (.done (wr s d v))) : Gives i rs s d v 0#5 := by
  apply gives_flags
  rw [h, raiseFlags_zero]

end Machine
end Sys2Proof
end

