-- ==== Sys2Proof/Laws/Guards.lean ====
section
/-! SUPPORT. The checks before a vector instruction: what Kiln's service changes, and that a ready word has its own effect. -/

namespace Sys2Proof
namespace Machine

/-- An agent found by its name has it. -/
theorem agentOf_id (s : State) (i : AgentId) : (agentOf s i).id = i := by
  unfold agentOf
  split
  · assumption
  · cases h : s.others.find? (fun a => decide (a.id = i)) with
    | none => rfl
    | some a => simpa using List.find?_some h

/-- Putting back an agent of another name leaves the acting one. -/
theorem putAgent_me {s : State} {a : Agent} (h : s.me.id ≠ a.id) : (putAgent s a).me = s.me := by
  simp [putAgent, h]

/-- Releasing rows changes memory and poison only. -/
theorem releaseRows_me (s : State) (core : Nat) (rows : List Nat) : (releaseRows s core rows).me = s.me := by
  unfold releaseRows
  induction rows generalizing s with
  | nil => rfl
  | cons r l ih => exact ih (releaseRange s _ _)

/-- Poison leaves an agent its name. -/
@[simp] theorem poisonAgent_id (a : Agent) (u : RegUnit) : (poisonAgent a u).id = a.id := by cases u <;> rfl

/-- So does the poison that save rows hold. -/
@[simp] theorem poisonSaved_id (s : State) (core : Nat) (a : Agent) : (poisonSaved s core a).id = a.id := by
  unfold poisonSaved
  generalize (a.saveRows.flatMap _) = l
  induction l generalizing a with
  | nil => rfl
  | cons x l ih =>
    rw [List.foldl_cons, ih]
    split <;> simp

/-- What Kiln's service changes of the acting hart: its state no longer lies in save rows (spec/17_traps.md R404). -/
theorem vsave_me {s : State} {h : HartId} (hid : s.me.id = .hart h) :
    (vsave s).me = { s.me with inRows := false, saveRows := if s.me.inRows && !s.me.reclaimed then [] else s.me.saveRows } := by
  have hf : ∀ (l : List HartId) (t : State), (∀ o ∈ l, o ≠ h) → t.me = s.me →
      (l.foldl (fun s o => if keepsState s o then
        putAgent s (poisonSaved s (hartCore o) { hartOf s o with inRows := true }) else s) t).me = s.me := by
    intro l
    induction l with
    | nil => intro t _ ht; exact ht
    | cons o l ih =>
      intro t hl ht
      simp only [List.foldl_cons]
      apply ih _ (fun o' ho' => hl o' (List.mem_cons_of_mem _ ho'))
      split
      · rw [putAgent_me, ht]
        rw [ht, hid]
        simp only [hartOf, agentOf_id, poisonSaved_id]
        intro e
        exact hl o List.mem_cons_self (by cases e; rfl)
      · exact ht
  unfold vsave
  split
  · next n hn => rw [hid] at hn; cases hn
  · next h' hn =>
    have : h' = h := by rw [hid] at hn; cases hn; rfl
    subst this
    have key := hf ((s.laneOwner.filter (fun p => (lanesOf s.me h').contains p.1 && p.2 != h')).map (fun p => p.2)).eraseDups s
      (by
        intro o ho
        have ho := List.mem_eraseDups.mp ho
        simp only [List.mem_map, List.mem_filter, Bool.and_eq_true, bne_iff_ne] at ho
        obtain ⟨p, ⟨-, -, hp⟩, rfl⟩ := ho
        exact hp) rfl
    simp only [key]
    split
    · simp only [releaseRows_me]
    · rfl

/-- A ready word has its own effect, on the state after the service. -/
theorem node_ready {op : VOp} {w : VWord} {s : State} {h : HartId} (hr : Ready op w s h) (k : State → Ans) :
    node op w s k = finish 8 (k (vsave s)) := by
  obtain ⟨h1, h2, h3, h4, -⟩ := hr
  have hv := vsave_me h1
  simp [node, h2, hartOnly, h1, vectorState, runGate, hv, h3, h4]

/-- A ready word meets no poison. -/
theorem withUnits_ready {op : VOp} {w : VWord} {s : State} {h : HartId} (hr : Ready op w s h) (us : List RegUnit) (k : Ans) :
    withUnits (vsave s) us k = k := by
  have hc : cleanAgent (vsave s).me = true := by
    rw [vsave_me hr.1]
    exact hr.2.2.2.2
  simp [withUnits, hc]

end Machine
end Sys2Proof
end

