-- ==== Sys2Proof/Laws/Memory.lean ====
section
/-! SUPPORT. Memory: a read after a write, and every operation keeps the canonical form. -/

namespace Sys2Proof
namespace Machine

@[simp] theorem Memory.read_nil (k : Nat) : Memory.read [] k = 0#8 := rfl

/-- The canonical form above a bound holds above a lower one. -/
theorem Memory.wfFrom_mono {m : Memory} {lo lo' : Nat} (h : Memory.wfFrom lo m = true) (hle : lo' ≤ lo) :
    Memory.wfFrom lo' m = true := by
  cases m with
  | nil => rfl
  | cons c l => simp [Memory.wfFrom] at h ⊢; exact ⟨⟨by omega, h.1.2⟩, h.2⟩

/-- Below its bound, a memory reads zero. -/
theorem Memory.read_below {m : Memory} {lo k : Nat} (h : Memory.wfFrom lo m = true) (hk : k < lo) : m.read k = 0#8 := by
  cases m with
  | nil => rfl
  | cons c l =>
    simp [Memory.wfFrom] at h
    simp [Memory.read, show c.1 ≠ k by omega, show k < c.1 by omega]

/-- A write keeps the canonical form above a bound. -/
theorem Memory.wfFrom_write {m : Memory} {lo : Nat} (k : Nat) (v : Byte) (h : Memory.wfFrom lo m = true) (hk : lo ≤ k) :
    Memory.wfFrom lo (m.write k v) = true := by
  induction m generalizing lo with
  | nil => by_cases hv : v = 0#8 <;> simp [Memory.write, Memory.wfFrom, hv, hk]
  | cons c l ih =>
    obtain ⟨a, b⟩ := c
    simp only [Memory.wfFrom, Bool.and_eq_true, decide_eq_true_eq] at h
    obtain ⟨⟨h1, h2⟩, h3⟩ := h
    simp only [Memory.write]
    split
    · next e =>
      subst e
      split
      · exact Memory.wfFrom_mono h3 (by omega)
      · next hv => simp [Memory.wfFrom, hk, hv, h3]
    · split
      · split
        · simp [Memory.wfFrom, h1, h2, h3]
        · next hv => simp [Memory.wfFrom, hk, hv, h2, h3]; omega
      · next hne hlt => simp [Memory.wfFrom, h1, h2, ih h3 (by omega)]

/-- A write keeps the canonical form. -/
theorem Memory.wf_write {m : Memory} (k : Nat) (v : Byte) (h : Memory.wf m = true) : Memory.wf (m.write k v) = true :=
  Memory.wfFrom_write k v h (Nat.zero_le k)

/-- A wide write keeps the canonical form. -/
theorem Memory.wf_writeLE {m : Memory} (n : Nat) (k v : Nat) (h : Memory.wf m = true) :
    Memory.wf (m.writeLE k n v) = true := by
  induction n generalizing m k v with
  | zero => exact h
  | succ n ih => exact ih _ _ (Memory.wf_write _ _ h)

/-- Dropping cells keeps the canonical form. -/
theorem Memory.wfFrom_filter {m : Memory} {lo : Nat} (p : Host.Cell → Bool) (h : Memory.wfFrom lo m = true) :
    Memory.wfFrom lo (m.filter p) = true := by
  induction m generalizing lo with
  | nil => rfl
  | cons c l ih =>
    obtain ⟨a, b⟩ := c
    simp only [Memory.wfFrom, Bool.and_eq_true, decide_eq_true_eq] at h
    simp only [List.filter_cons]
    split
    · simp [Memory.wfFrom, h.1.1, h.1.2, ih h.2]
    · exact Memory.wfFrom_mono (ih h.2) (by omega)

/-- Zeroing a range keeps the canonical form. -/
theorem Memory.wf_zeroRange {m : Memory} (k n : Nat) (h : Memory.wf m = true) : Memory.wf (m.zeroRange k n) = true :=
  Memory.wfFrom_filter _ h

/-- A read after a write of one byte. -/
theorem Memory.read_write {m : Memory} (h : Memory.wf m = true) (k j : Nat) (v : Byte) :
    (m.write k v).read j = if j = k then v else m.read j := by
  suffices H : ∀ lo, Memory.wfFrom lo m = true → (m.write k v).read j = if j = k then v else m.read j from H 0 h
  clear h
  induction m with
  | nil =>
    intro lo _
    by_cases hv : v = 0#8
    · simp [Memory.write, hv]
    · simp only [Memory.write, hv, if_false, Memory.read]
      by_cases hj : j = k
      · simp [hj]
      · simp [hj, Ne.symm hj]
  | cons c l ih =>
    obtain ⟨a, b⟩ := c
    intro lo h
    simp only [Memory.wfFrom, Bool.and_eq_true, decide_eq_true_eq] at h
    obtain ⟨⟨h1, h2⟩, h3⟩ := h
    simp only [Memory.write]
    split
    · next e =>
      subst e
      split
      · next hv =>
        subst hv
        by_cases hj : j = a
        · subst hj; simp [Memory.read_below h3 (Nat.lt_succ_self _)]
        · simp only [hj, if_false, Memory.read, Ne.symm hj]
          split
          · exact Memory.read_below h3 (by omega)
          · rfl
      · by_cases hj : j = a
        · simp [Memory.read, hj]
        · simp [Memory.read, hj, Ne.symm hj]
    · next hne =>
      split
      · next hlt =>
        split
        · next hv =>
          by_cases hj : j = k
          · subst hj; simp [Memory.read, hne, hlt, hv]
          · simp [hj]
        · by_cases hj : j = k
          · simp [Memory.read, hj]
          · simp only [hj, if_false, Memory.read, Ne.symm hj]
            split
            · next hjk => simp [show a ≠ j by omega, show j < a by omega]
            · rfl
      · next hlt =>
        by_cases hj : j = a
        · subst hj; simp [Memory.read, hne]
        · simp only [Memory.read, Ne.symm hj, if_false]
          split
          · next hja => simp [show j ≠ k by omega]
          · exact ih _ h3

/-- A wide write leaves the bytes outside it. -/
theorem Memory.read_writeLE_outside {m : Memory} (n : Nat) (k v j : Nat) (h : Memory.wf m = true)
    (hj : j < k ∨ k + n ≤ j) : (m.writeLE k n v).read j = m.read j := by
  induction n generalizing m k v with
  | zero => rfl
  | succ n ih =>
    simp only [Memory.writeLE]
    rw [ih _ _ (Memory.wf_write _ _ h) (by omega), Memory.read_write h]
    simp [show j ≠ k by omega]

/-- Each byte of a wide write. -/
theorem Memory.read_writeLE_inside {m : Memory} (n : Nat) (k v i : Nat) (h : Memory.wf m = true) (hi : i < n) :
    (m.writeLE k n v).read (k + i) = BitVec.ofNat 8 (v / 256 ^ i) := by
  induction n generalizing m k v i with
  | zero => omega
  | succ n ih =>
    simp only [Memory.writeLE]
    cases i with
    | zero =>
      rw [Memory.read_writeLE_outside n _ _ _ (Memory.wf_write _ _ h) (by omega), Memory.read_write h]
      simp
    | succ i =>
      have := ih (m := m.write k (BitVec.ofNat 8 v)) (k + 1) (v / 256) i (Memory.wf_write _ _ h) (by omega)
      rw [show k + (i + 1) = k + 1 + i by omega, this, Nat.div_div_eq_div_mul, Nat.pow_succ, Nat.mul_comm]

/-- A wide read depends only on the bytes it reads. -/
theorem Memory.readLE_congr {m m' : Memory} (n : Nat) (k : Nat) (h : ∀ i < n, m.read (k + i) = m'.read (k + i)) :
    m.readLE k n = m'.readLE k n := by
  induction n generalizing k with
  | zero => rfl
  | succ n ih =>
    simp only [Memory.readLE]
    rw [show m.read k = m'.read k from h 0 (by omega), ih (k + 1) (fun i hi => by
      have := h (i + 1) (by omega)
      rwa [show k + (i + 1) = k + 1 + i by omega] at this)]

/-- A wide read of what was just written gives its low bytes. -/
theorem Memory.readLE_writeLE {m : Memory} (n : Nat) (k v : Nat) (h : Memory.wf m = true) :
    (m.writeLE k n v).readLE k n = v % 256 ^ n := by
  induction n generalizing m k v with
  | zero => simp [Memory.readLE, Nat.mod_one]
  | succ n ih =>
    simp only [Memory.writeLE, Memory.readLE]
    rw [ih _ _ (Memory.wf_write _ _ h), Memory.read_writeLE_outside n _ _ _ (Memory.wf_write _ _ h) (by omega),
      Memory.read_write h, if_pos rfl, Nat.pow_succ, Nat.mul_comm (256 ^ n) 256, Nat.mod_mul]
    simp

/-- A wide read is below its size. -/
theorem Memory.readLE_lt (m : Memory) (k n : Nat) : m.readLE k n < 256 ^ n := by
  induction n generalizing k with
  | zero => simp [Memory.readLE]
  | succ n ih =>
    have := ih (k + 1)
    have hb := (m.read k).isLt
    simp only [Memory.readLE, Nat.pow_succ]
    omega

end Machine
end Sys2Proof
end

