-- ==== Sys2Proof/Laws/PerInstr.lean ====
section
/-! SUPPORT. Per instruction: its word fits its length, and the two top bits of its first parcel say that length
(spec/02_encoding.md R31). -/

set_option Elab.async false

namespace Sys2Proof
namespace Laws
namespace Encoding

/-- The word of an instruction fits its length, and says it. -/
def Statement (i : Instr) : Prop := encode i < 2 ^ (8 * i.len) ∧ (encode i / 2 ^ 30 % 4 = 3 ↔ i.len = 8)

/-- A 32-bit word. -/
theorem scalar_word {i : Instr} (h : nodeOf i = none) (hi : encode i < 3 * 2 ^ 30) : Statement i := by
  have hl : i.len = 4 := by simp [Instr.len, h]
  rw [Statement, hl]
  omega

/-- A step without an encoding has the word 0. -/
theorem event_word {i : Instr} (h : nodeOf i = none) (hi : encode i = 0) : Statement i := scalar_word h (by rw [hi]; decide)

/-- A node word. -/
theorem node_word {i : Instr} {op : VOp} {w : VWord} (h : nodeOf i = some (op, w)) (hm : op.major < 64) (hf : op.fn < 1024)
    (he : encode i = op.encode w) : Statement i := by
  have hl : i.len = 8 := by simp [Instr.len, h]
  rw [Statement, hl, he]
  unfold VOp.encode VWord.encode
  exact ⟨by omega, iff_of_true (by omega) rfl⟩

theorem add (rd : Reg) (rs1 : Reg) (rs2 : Reg) : Statement (.add rd rs1 rs2) := scalar_word rfl (by simp only [encode, encRdRs1Rs2]; omega)
theorem sub (rd : Reg) (rs1 : Reg) (rs2 : Reg) : Statement (.sub rd rs1 rs2) := scalar_word rfl (by simp only [encode, encRdRs1Rs2]; omega)
theorem and (rd : Reg) (rs1 : Reg) (rs2 : Reg) : Statement (.and rd rs1 rs2) := scalar_word rfl (by simp only [encode, encRdRs1Rs2]; omega)
theorem andn (rd : Reg) (rs1 : Reg) (rs2 : Reg) : Statement (.andn rd rs1 rs2) := scalar_word rfl (by simp only [encode, encRdRs1Rs2]; omega)
theorem or (rd : Reg) (rs1 : Reg) (rs2 : Reg) : Statement (.or rd rs1 rs2) := scalar_word rfl (by simp only [encode, encRdRs1Rs2]; omega)
theorem orn (rd : Reg) (rs1 : Reg) (rs2 : Reg) : Statement (.orn rd rs1 rs2) := scalar_word rfl (by simp only [encode, encRdRs1Rs2]; omega)
theorem xor (rd : Reg) (rs1 : Reg) (rs2 : Reg) : Statement (.xor rd rs1 rs2) := scalar_word rfl (by simp only [encode, encRdRs1Rs2]; omega)
theorem xnor (rd : Reg) (rs1 : Reg) (rs2 : Reg) : Statement (.xnor rd rs1 rs2) := scalar_word rfl (by simp only [encode, encRdRs1Rs2]; omega)
theorem sll (rd : Reg) (rs1 : Reg) (rs2 : Reg) : Statement (.sll rd rs1 rs2) := scalar_word rfl (by simp only [encode, encRdRs1Rs2]; omega)
theorem srl (rd : Reg) (rs1 : Reg) (rs2 : Reg) : Statement (.srl rd rs1 rs2) := scalar_word rfl (by simp only [encode, encRdRs1Rs2]; omega)
theorem sra (rd : Reg) (rs1 : Reg) (rs2 : Reg) : Statement (.sra rd rs1 rs2) := scalar_word rfl (by simp only [encode, encRdRs1Rs2]; omega)
theorem rol (rd : Reg) (rs1 : Reg) (rs2 : Reg) : Statement (.rol rd rs1 rs2) := scalar_word rfl (by simp only [encode, encRdRs1Rs2]; omega)
theorem ror (rd : Reg) (rs1 : Reg) (rs2 : Reg) : Statement (.ror rd rs1 rs2) := scalar_word rfl (by simp only [encode, encRdRs1Rs2]; omega)
theorem min (rd : Reg) (rs1 : Reg) (rs2 : Reg) : Statement (.min rd rs1 rs2) := scalar_word rfl (by simp only [encode, encRdRs1Rs2]; omega)
theorem max (rd : Reg) (rs1 : Reg) (rs2 : Reg) : Statement (.max rd rs1 rs2) := scalar_word rfl (by simp only [encode, encRdRs1Rs2]; omega)
theorem minn (rd : Reg) (rs1 : Reg) (rs2 : Reg) : Statement (.minn rd rs1 rs2) := scalar_word rfl (by simp only [encode, encRdRs1Rs2]; omega)
theorem maxn (rd : Reg) (rs1 : Reg) (rs2 : Reg) : Statement (.maxn rd rs1 rs2) := scalar_word rfl (by simp only [encode, encRdRs1Rs2]; omega)
theorem cmplt (rd : Reg) (rs1 : Reg) (rs2 : Reg) : Statement (.cmplt rd rs1 rs2) := scalar_word rfl (by simp only [encode, encRdRs1Rs2]; omega)
theorem cmpltn (rd : Reg) (rs1 : Reg) (rs2 : Reg) : Statement (.cmpltn rd rs1 rs2) := scalar_word rfl (by simp only [encode, encRdRs1Rs2]; omega)
theorem cmpeq (rd : Reg) (rs1 : Reg) (rs2 : Reg) : Statement (.cmpeq rd rs1 rs2) := scalar_word rfl (by simp only [encode, encRdRs1Rs2]; omega)
theorem addI32 (rd : Reg) (rs1 : Reg) (rs2 : Reg) : Statement (.addI32 rd rs1 rs2) := scalar_word rfl (by simp only [encode, encRdRs1Rs2]; omega)
theorem subI32 (rd : Reg) (rs1 : Reg) (rs2 : Reg) : Statement (.subI32 rd rs1 rs2) := scalar_word rfl (by simp only [encode, encRdRs1Rs2]; omega)
theorem sllI32 (rd : Reg) (rs1 : Reg) (rs2 : Reg) : Statement (.sllI32 rd rs1 rs2) := scalar_word rfl (by simp only [encode, encRdRs1Rs2]; omega)
theorem srlI32 (rd : Reg) (rs1 : Reg) (rs2 : Reg) : Statement (.srlI32 rd rs1 rs2) := scalar_word rfl (by simp only [encode, encRdRs1Rs2]; omega)
theorem sraI32 (rd : Reg) (rs1 : Reg) (rs2 : Reg) : Statement (.sraI32 rd rs1 rs2) := scalar_word rfl (by simp only [encode, encRdRs1Rs2]; omega)
theorem rolI32 (rd : Reg) (rs1 : Reg) (rs2 : Reg) : Statement (.rolI32 rd rs1 rs2) := scalar_word rfl (by simp only [encode, encRdRs1Rs2]; omega)
theorem rorI32 (rd : Reg) (rs1 : Reg) (rs2 : Reg) : Statement (.rorI32 rd rs1 rs2) := scalar_word rfl (by simp only [encode, encRdRs1Rs2]; omega)
theorem mul (rd : Reg) (rs1 : Reg) (rs2 : Reg) : Statement (.mul rd rs1 rs2) := scalar_word rfl (by simp only [encode, encRdRs1Rs2]; omega)
theorem mulh (rd : Reg) (rs1 : Reg) (rs2 : Reg) : Statement (.mulh rd rs1 rs2) := scalar_word rfl (by simp only [encode, encRdRs1Rs2]; omega)
theorem mulhu (rd : Reg) (rs1 : Reg) (rs2 : Reg) : Statement (.mulhu rd rs1 rs2) := scalar_word rfl (by simp only [encode, encRdRs1Rs2]; omega)
theorem mulhsu (rd : Reg) (rs1 : Reg) (rs2 : Reg) : Statement (.mulhsu rd rs1 rs2) := scalar_word rfl (by simp only [encode, encRdRs1Rs2]; omega)
theorem mulI32 (rd : Reg) (rs1 : Reg) (rs2 : Reg) : Statement (.mulI32 rd rs1 rs2) := scalar_word rfl (by simp only [encode, encRdRs1Rs2]; omega)
theorem div (rd : Reg) (rs1 : Reg) (rs2 : Reg) : Statement (.div rd rs1 rs2) := scalar_word rfl (by simp only [encode, encRdRs1Rs2]; omega)
theorem divu (rd : Reg) (rs1 : Reg) (rs2 : Reg) : Statement (.divu rd rs1 rs2) := scalar_word rfl (by simp only [encode, encRdRs1Rs2]; omega)
theorem rem (rd : Reg) (rs1 : Reg) (rs2 : Reg) : Statement (.rem rd rs1 rs2) := scalar_word rfl (by simp only [encode, encRdRs1Rs2]; omega)
theorem remu (rd : Reg) (rs1 : Reg) (rs2 : Reg) : Statement (.remu rd rs1 rs2) := scalar_word rfl (by simp only [encode, encRdRs1Rs2]; omega)
theorem divI32 (rd : Reg) (rs1 : Reg) (rs2 : Reg) : Statement (.divI32 rd rs1 rs2) := scalar_word rfl (by simp only [encode, encRdRs1Rs2]; omega)
theorem divuI32 (rd : Reg) (rs1 : Reg) (rs2 : Reg) : Statement (.divuI32 rd rs1 rs2) := scalar_word rfl (by simp only [encode, encRdRs1Rs2]; omega)
theorem remI32 (rd : Reg) (rs1 : Reg) (rs2 : Reg) : Statement (.remI32 rd rs1 rs2) := scalar_word rfl (by simp only [encode, encRdRs1Rs2]; omega)
theorem remuI32 (rd : Reg) (rs1 : Reg) (rs2 : Reg) : Statement (.remuI32 rd rs1 rs2) := scalar_word rfl (by simp only [encode, encRdRs1Rs2]; omega)
theorem addi (rd : Reg) (rs1 : Reg) (imm : Fin 16384) : Statement (.addi rd rs1 imm) := scalar_word rfl (by simp only [encode, encRdRs1Imm]; omega)
theorem andi (rd : Reg) (rs1 : Reg) (imm : Fin 16384) : Statement (.andi rd rs1 imm) := scalar_word rfl (by simp only [encode, encRdRs1Imm]; omega)
theorem ori (rd : Reg) (rs1 : Reg) (imm : Fin 16384) : Statement (.ori rd rs1 imm) := scalar_word rfl (by simp only [encode, encRdRs1Imm]; omega)
theorem xori (rd : Reg) (rs1 : Reg) (imm : Fin 16384) : Statement (.xori rd rs1 imm) := scalar_word rfl (by simp only [encode, encRdRs1Imm]; omega)
theorem cmplti (rd : Reg) (rs1 : Reg) (imm : Fin 16384) : Statement (.cmplti rd rs1 imm) := scalar_word rfl (by simp only [encode, encRdRs1Imm]; omega)
theorem cmpltni (rd : Reg) (rs1 : Reg) (imm : Fin 16384) : Statement (.cmpltni rd rs1 imm) := scalar_word rfl (by simp only [encode, encRdRs1Imm]; omega)
theorem addiI32 (rd : Reg) (rs1 : Reg) (imm : Fin 16384) : Statement (.addiI32 rd rs1 imm) := scalar_word rfl (by simp only [encode, encRdRs1Imm]; omega)
theorem slli (rd : Reg) (rs1 : Reg) (sh : Fin 64) : Statement (.slli rd rs1 sh) := scalar_word rfl (by simp only [encode, encRdRs1Sh]; omega)
theorem srli (rd : Reg) (rs1 : Reg) (sh : Fin 64) : Statement (.srli rd rs1 sh) := scalar_word rfl (by simp only [encode, encRdRs1Sh]; omega)
theorem srai (rd : Reg) (rs1 : Reg) (sh : Fin 64) : Statement (.srai rd rs1 sh) := scalar_word rfl (by simp only [encode, encRdRs1Sh]; omega)
theorem rori (rd : Reg) (rs1 : Reg) (sh : Fin 64) : Statement (.rori rd rs1 sh) := scalar_word rfl (by simp only [encode, encRdRs1Sh]; omega)
theorem slliI32 (rd : Reg) (rs1 : Reg) (sh : Fin 32) : Statement (.slliI32 rd rs1 sh) := scalar_word rfl (by simp only [encode, encRdRs1Sh']; omega)
theorem srliI32 (rd : Reg) (rs1 : Reg) (sh : Fin 32) : Statement (.srliI32 rd rs1 sh) := scalar_word rfl (by simp only [encode, encRdRs1Sh']; omega)
theorem sraiI32 (rd : Reg) (rs1 : Reg) (sh : Fin 32) : Statement (.sraiI32 rd rs1 sh) := scalar_word rfl (by simp only [encode, encRdRs1Sh']; omega)
theorem lui (rd : Reg) (imm : Fin 524288) : Statement (.lui rd imm) := scalar_word rfl (by simp only [encode, encRdImm]; omega)
theorem lhi (rd : Reg) (imm : Fin 524288) : Statement (.lhi rd imm) := scalar_word rfl (by simp only [encode, encRdImm]; omega)
theorem auipc (rd : Reg) (imm : Fin 524288) : Statement (.auipc rd imm) := scalar_word rfl (by simp only [encode, encRdImm]; omega)
theorem lb (rd : Reg) (rs1 : Reg) (imm : Fin 16384) : Statement (.lb rd rs1 imm) := scalar_word rfl (by simp only [encode, encRdRs1Imm]; omega)
theorem lbu (rd : Reg) (rs1 : Reg) (imm : Fin 16384) : Statement (.lbu rd rs1 imm) := scalar_word rfl (by simp only [encode, encRdRs1Imm]; omega)
theorem lh (rd : Reg) (rs1 : Reg) (imm : Fin 16384) : Statement (.lh rd rs1 imm) := scalar_word rfl (by simp only [encode, encRdRs1Imm]; omega)
theorem lhu (rd : Reg) (rs1 : Reg) (imm : Fin 16384) : Statement (.lhu rd rs1 imm) := scalar_word rfl (by simp only [encode, encRdRs1Imm]; omega)
theorem lw (rd : Reg) (rs1 : Reg) (imm : Fin 16384) : Statement (.lw rd rs1 imm) := scalar_word rfl (by simp only [encode, encRdRs1Imm]; omega)
theorem lwu (rd : Reg) (rs1 : Reg) (imm : Fin 16384) : Statement (.lwu rd rs1 imm) := scalar_word rfl (by simp only [encode, encRdRs1Imm]; omega)
theorem ld (rd : Reg) (rs1 : Reg) (imm : Fin 16384) : Statement (.ld rd rs1 imm) := scalar_word rfl (by simp only [encode, encRdRs1Imm]; omega)
theorem sb (rs2 : Reg) (rs1 : Reg) (imm : Fin 16384) : Statement (.sb rs2 rs1 imm) := scalar_word rfl (by simp only [encode, encRs2Rs1Imm]; omega)
theorem sh (rs2 : Reg) (rs1 : Reg) (imm : Fin 16384) : Statement (.sh rs2 rs1 imm) := scalar_word rfl (by simp only [encode, encRs2Rs1Imm]; omega)
theorem sw (rs2 : Reg) (rs1 : Reg) (imm : Fin 16384) : Statement (.sw rs2 rs1 imm) := scalar_word rfl (by simp only [encode, encRs2Rs1Imm]; omega)
theorem sd (rs2 : Reg) (rs1 : Reg) (imm : Fin 16384) : Statement (.sd rs2 rs1 imm) := scalar_word rfl (by simp only [encode, encRs2Rs1Imm]; omega)
theorem clz (rd : Reg) (rs1 : Reg) : Statement (.clz rd rs1) := scalar_word rfl (by simp only [encode, encRdRs1]; omega)
theorem ctz (rd : Reg) (rs1 : Reg) : Statement (.ctz rd rs1) := scalar_word rfl (by simp only [encode, encRdRs1]; omega)
theorem popc (rd : Reg) (rs1 : Reg) : Statement (.popc rd rs1) := scalar_word rfl (by simp only [encode, encRdRs1]; omega)
theorem clzw (rd : Reg) (rs1 : Reg) : Statement (.clzw rd rs1) := scalar_word rfl (by simp only [encode, encRdRs1]; omega)
theorem ctzw (rd : Reg) (rs1 : Reg) : Statement (.ctzw rd rs1) := scalar_word rfl (by simp only [encode, encRdRs1]; omega)
theorem popcw (rd : Reg) (rs1 : Reg) : Statement (.popcw rd rs1) := scalar_word rfl (by simp only [encode, encRdRs1]; omega)
theorem rev8 (rd : Reg) (rs1 : Reg) : Statement (.rev8 rd rs1) := scalar_word rfl (by simp only [encode, encRdRs1]; omega)
theorem brev (rd : Reg) (rs1 : Reg) : Statement (.brev rd rs1) := scalar_word rfl (by simp only [encode, encRdRs1]; omega)
theorem sextb (rd : Reg) (rs1 : Reg) : Statement (.sextb rd rs1) := scalar_word rfl (by simp only [encode, encRdRs1]; omega)
theorem sexth (rd : Reg) (rs1 : Reg) : Statement (.sexth rd rs1) := scalar_word rfl (by simp only [encode, encRdRs1]; omega)
theorem sextw (rd : Reg) (rs1 : Reg) : Statement (.sextw rd rs1) := scalar_word rfl (by simp only [encode, encRdRs1]; omega)
theorem zextb (rd : Reg) (rs1 : Reg) : Statement (.zextb rd rs1) := scalar_word rfl (by simp only [encode, encRdRs1]; omega)
theorem zexth (rd : Reg) (rs1 : Reg) : Statement (.zexth rd rs1) := scalar_word rfl (by simp only [encode, encRdRs1]; omega)
theorem zextw (rd : Reg) (rs1 : Reg) : Statement (.zextw rd rs1) := scalar_word rfl (by simp only [encode, encRdRs1]; omega)
theorem faddF32 (rd : Reg) (rs1 : Reg) (rs2 : Reg) (rm : Fin 8) : Statement (.faddF32 rd rs1 rs2 rm) := scalar_word rfl (by simp only [encode, encRdRs1Rs2Rm]; omega)
theorem fsubF32 (rd : Reg) (rs1 : Reg) (rs2 : Reg) (rm : Fin 8) : Statement (.fsubF32 rd rs1 rs2 rm) := scalar_word rfl (by simp only [encode, encRdRs1Rs2Rm]; omega)
theorem fmulF32 (rd : Reg) (rs1 : Reg) (rs2 : Reg) (rm : Fin 8) : Statement (.fmulF32 rd rs1 rs2 rm) := scalar_word rfl (by simp only [encode, encRdRs1Rs2Rm]; omega)
theorem fdivF32 (rd : Reg) (rs1 : Reg) (rs2 : Reg) (rm : Fin 8) : Statement (.fdivF32 rd rs1 rs2 rm) := scalar_word rfl (by simp only [encode, encRdRs1Rs2Rm]; omega)
theorem fsqrtF32 (rd : Reg) (rs1 : Reg) (rm : Fin 8) : Statement (.fsqrtF32 rd rs1 rm) := scalar_word rfl (by simp only [encode, encRdRs1Rm]; omega)
theorem fminF32 (rd : Reg) (rs1 : Reg) (rs2 : Reg) : Statement (.fminF32 rd rs1 rs2) := scalar_word rfl (by simp only [encode, encRdRs1Rs2]; omega)
theorem fmaxF32 (rd : Reg) (rs1 : Reg) (rs2 : Reg) : Statement (.fmaxF32 rd rs1 rs2) := scalar_word rfl (by simp only [encode, encRdRs1Rs2]; omega)
theorem fsgnjF32 (rd : Reg) (rs1 : Reg) (rs2 : Reg) : Statement (.fsgnjF32 rd rs1 rs2) := scalar_word rfl (by simp only [encode, encRdRs1Rs2]; omega)
theorem fsgnjnF32 (rd : Reg) (rs1 : Reg) (rs2 : Reg) : Statement (.fsgnjnF32 rd rs1 rs2) := scalar_word rfl (by simp only [encode, encRdRs1Rs2]; omega)
theorem fsgnjxF32 (rd : Reg) (rs1 : Reg) (rs2 : Reg) : Statement (.fsgnjxF32 rd rs1 rs2) := scalar_word rfl (by simp only [encode, encRdRs1Rs2]; omega)
theorem feqF32 (rd : Reg) (rs1 : Reg) (rs2 : Reg) : Statement (.feqF32 rd rs1 rs2) := scalar_word rfl (by simp only [encode, encRdRs1Rs2]; omega)
theorem fltF32 (rd : Reg) (rs1 : Reg) (rs2 : Reg) : Statement (.fltF32 rd rs1 rs2) := scalar_word rfl (by simp only [encode, encRdRs1Rs2]; omega)
theorem fleF32 (rd : Reg) (rs1 : Reg) (rs2 : Reg) : Statement (.fleF32 rd rs1 rs2) := scalar_word rfl (by simp only [encode, encRdRs1Rs2]; omega)
theorem fclassF32 (rd : Reg) (rs1 : Reg) : Statement (.fclassF32 rd rs1) := scalar_word rfl (by simp only [encode, encRdRs1]; omega)
theorem faddF64 (rd : Reg) (rs1 : Reg) (rs2 : Reg) (rm : Fin 8) : Statement (.faddF64 rd rs1 rs2 rm) := scalar_word rfl (by simp only [encode, encRdRs1Rs2Rm]; omega)
theorem fsubF64 (rd : Reg) (rs1 : Reg) (rs2 : Reg) (rm : Fin 8) : Statement (.fsubF64 rd rs1 rs2 rm) := scalar_word rfl (by simp only [encode, encRdRs1Rs2Rm]; omega)
theorem fmulF64 (rd : Reg) (rs1 : Reg) (rs2 : Reg) (rm : Fin 8) : Statement (.fmulF64 rd rs1 rs2 rm) := scalar_word rfl (by simp only [encode, encRdRs1Rs2Rm]; omega)
theorem fdivF64 (rd : Reg) (rs1 : Reg) (rs2 : Reg) (rm : Fin 8) : Statement (.fdivF64 rd rs1 rs2 rm) := scalar_word rfl (by simp only [encode, encRdRs1Rs2Rm]; omega)
theorem fsqrtF64 (rd : Reg) (rs1 : Reg) (rm : Fin 8) : Statement (.fsqrtF64 rd rs1 rm) := scalar_word rfl (by simp only [encode, encRdRs1Rm]; omega)
theorem fminF64 (rd : Reg) (rs1 : Reg) (rs2 : Reg) : Statement (.fminF64 rd rs1 rs2) := scalar_word rfl (by simp only [encode, encRdRs1Rs2]; omega)
theorem fmaxF64 (rd : Reg) (rs1 : Reg) (rs2 : Reg) : Statement (.fmaxF64 rd rs1 rs2) := scalar_word rfl (by simp only [encode, encRdRs1Rs2]; omega)
theorem fsgnjF64 (rd : Reg) (rs1 : Reg) (rs2 : Reg) : Statement (.fsgnjF64 rd rs1 rs2) := scalar_word rfl (by simp only [encode, encRdRs1Rs2]; omega)
theorem fsgnjnF64 (rd : Reg) (rs1 : Reg) (rs2 : Reg) : Statement (.fsgnjnF64 rd rs1 rs2) := scalar_word rfl (by simp only [encode, encRdRs1Rs2]; omega)
theorem fsgnjxF64 (rd : Reg) (rs1 : Reg) (rs2 : Reg) : Statement (.fsgnjxF64 rd rs1 rs2) := scalar_word rfl (by simp only [encode, encRdRs1Rs2]; omega)
theorem feqF64 (rd : Reg) (rs1 : Reg) (rs2 : Reg) : Statement (.feqF64 rd rs1 rs2) := scalar_word rfl (by simp only [encode, encRdRs1Rs2]; omega)
theorem fltF64 (rd : Reg) (rs1 : Reg) (rs2 : Reg) : Statement (.fltF64 rd rs1 rs2) := scalar_word rfl (by simp only [encode, encRdRs1Rs2]; omega)
theorem fleF64 (rd : Reg) (rs1 : Reg) (rs2 : Reg) : Statement (.fleF64 rd rs1 rs2) := scalar_word rfl (by simp only [encode, encRdRs1Rs2]; omega)
theorem fclassF64 (rd : Reg) (rs1 : Reg) : Statement (.fclassF64 rd rs1) := scalar_word rfl (by simp only [encode, encRdRs1]; omega)
theorem fmadd (rd : Reg) (rs1 : Reg) (rs2 : Reg) (rs3 : Reg) (rm : Fin 8) (ty : Fin 2) : Statement (.fmadd rd rs1 rs2 rs3 rm ty) := scalar_word rfl (by simp only [encode, encRdRs1Rs2Rs3RmTy]; omega)
theorem fmsub (rd : Reg) (rs1 : Reg) (rs2 : Reg) (rs3 : Reg) (rm : Fin 8) (ty : Fin 2) : Statement (.fmsub rd rs1 rs2 rs3 rm ty) := scalar_word rfl (by simp only [encode, encRdRs1Rs2Rs3RmTy]; omega)
theorem fnmadd (rd : Reg) (rs1 : Reg) (rs2 : Reg) (rs3 : Reg) (rm : Fin 8) (ty : Fin 2) : Statement (.fnmadd rd rs1 rs2 rs3 rm ty) := scalar_word rfl (by simp only [encode, encRdRs1Rs2Rs3RmTy]; omega)
theorem fnmsub (rd : Reg) (rs1 : Reg) (rs2 : Reg) (rs3 : Reg) (rm : Fin 8) (ty : Fin 2) : Statement (.fnmsub rd rs1 rs2 rs3 rm ty) := scalar_word rfl (by simp only [encode, encRdRs1Rs2Rs3RmTy]; omega)
theorem fcvtF32I32 (rd : Reg) (rs1 : Reg) (rm : Fin 8) : Statement (.fcvtF32I32 rd rs1 rm) := scalar_word rfl (by simp only [encode, encRdRs1Rm]; omega)
theorem fcvtF32N32 (rd : Reg) (rs1 : Reg) (rm : Fin 8) : Statement (.fcvtF32N32 rd rs1 rm) := scalar_word rfl (by simp only [encode, encRdRs1Rm]; omega)
theorem fcvtF32I64 (rd : Reg) (rs1 : Reg) (rm : Fin 8) : Statement (.fcvtF32I64 rd rs1 rm) := scalar_word rfl (by simp only [encode, encRdRs1Rm]; omega)
theorem fcvtF32N64 (rd : Reg) (rs1 : Reg) (rm : Fin 8) : Statement (.fcvtF32N64 rd rs1 rm) := scalar_word rfl (by simp only [encode, encRdRs1Rm]; omega)
theorem fcvtF64I32 (rd : Reg) (rs1 : Reg) (rm : Fin 8) : Statement (.fcvtF64I32 rd rs1 rm) := scalar_word rfl (by simp only [encode, encRdRs1Rm]; omega)
theorem fcvtF64N32 (rd : Reg) (rs1 : Reg) (rm : Fin 8) : Statement (.fcvtF64N32 rd rs1 rm) := scalar_word rfl (by simp only [encode, encRdRs1Rm]; omega)
theorem fcvtF64I64 (rd : Reg) (rs1 : Reg) (rm : Fin 8) : Statement (.fcvtF64I64 rd rs1 rm) := scalar_word rfl (by simp only [encode, encRdRs1Rm]; omega)
theorem fcvtF64N64 (rd : Reg) (rs1 : Reg) (rm : Fin 8) : Statement (.fcvtF64N64 rd rs1 rm) := scalar_word rfl (by simp only [encode, encRdRs1Rm]; omega)
theorem fcvtI32F32 (rd : Reg) (rs1 : Reg) (rm : Fin 8) : Statement (.fcvtI32F32 rd rs1 rm) := scalar_word rfl (by simp only [encode, encRdRs1Rm]; omega)
theorem fcvtN32F32 (rd : Reg) (rs1 : Reg) (rm : Fin 8) : Statement (.fcvtN32F32 rd rs1 rm) := scalar_word rfl (by simp only [encode, encRdRs1Rm]; omega)
theorem fcvtI64F32 (rd : Reg) (rs1 : Reg) (rm : Fin 8) : Statement (.fcvtI64F32 rd rs1 rm) := scalar_word rfl (by simp only [encode, encRdRs1Rm]; omega)
theorem fcvtN64F32 (rd : Reg) (rs1 : Reg) (rm : Fin 8) : Statement (.fcvtN64F32 rd rs1 rm) := scalar_word rfl (by simp only [encode, encRdRs1Rm]; omega)
theorem fcvtI32F64 (rd : Reg) (rs1 : Reg) (rm : Fin 8) : Statement (.fcvtI32F64 rd rs1 rm) := scalar_word rfl (by simp only [encode, encRdRs1Rm]; omega)
theorem fcvtN32F64 (rd : Reg) (rs1 : Reg) (rm : Fin 8) : Statement (.fcvtN32F64 rd rs1 rm) := scalar_word rfl (by simp only [encode, encRdRs1Rm]; omega)
theorem fcvtI64F64 (rd : Reg) (rs1 : Reg) (rm : Fin 8) : Statement (.fcvtI64F64 rd rs1 rm) := scalar_word rfl (by simp only [encode, encRdRs1Rm]; omega)
theorem fcvtN64F64 (rd : Reg) (rs1 : Reg) (rm : Fin 8) : Statement (.fcvtN64F64 rd rs1 rm) := scalar_word rfl (by simp only [encode, encRdRs1Rm]; omega)
theorem fcvtF32F64 (rd : Reg) (rs1 : Reg) (rm : Fin 8) : Statement (.fcvtF32F64 rd rs1 rm) := scalar_word rfl (by simp only [encode, encRdRs1Rm]; omega)
theorem fcvtF64F32 (rd : Reg) (rs1 : Reg) (rm : Fin 8) : Statement (.fcvtF64F32 rd rs1 rm) := scalar_word rfl (by simp only [encode, encRdRs1Rm]; omega)
theorem fcvtF32Bf16 (rd : Reg) (rs1 : Reg) (rm : Fin 8) : Statement (.fcvtF32Bf16 rd rs1 rm) := scalar_word rfl (by simp only [encode, encRdRs1Rm]; omega)
theorem fcvtBf16F32 (rd : Reg) (rs1 : Reg) (rm : Fin 8) : Statement (.fcvtBf16F32 rd rs1 rm) := scalar_word rfl (by simp only [encode, encRdRs1Rm]; omega)
theorem fcvtF32F16 (rd : Reg) (rs1 : Reg) (rm : Fin 8) : Statement (.fcvtF32F16 rd rs1 rm) := scalar_word rfl (by simp only [encode, encRdRs1Rm]; omega)
theorem fcvtF16F32 (rd : Reg) (rs1 : Reg) (rm : Fin 8) : Statement (.fcvtF16F32 rd rs1 rm) := scalar_word rfl (by simp only [encode, encRdRs1Rm]; omega)
theorem fcvtF64F16 (rd : Reg) (rs1 : Reg) (rm : Fin 8) : Statement (.fcvtF64F16 rd rs1 rm) := scalar_word rfl (by simp only [encode, encRdRs1Rm]; omega)
theorem fcvtF16F64 (rd : Reg) (rs1 : Reg) (rm : Fin 8) : Statement (.fcvtF16F64 rd rs1 rm) := scalar_word rfl (by simp only [encode, encRdRs1Rm]; omega)
theorem csrld (rd : Reg) (csr : Fin 4096) : Statement (.csrld rd csr) := scalar_word rfl (by simp only [encode, encRdCsr]; omega)
theorem csrst (rd : Reg) (rs1 : Reg) (csr : Fin 4096) : Statement (.csrst rd rs1 csr) := scalar_word rfl (by simp only [encode, encRdRs1Csr]; omega)
theorem csrbset (rd : Reg) (rs1 : Reg) (csr : Fin 4096) : Statement (.csrbset rd rs1 csr) := scalar_word rfl (by simp only [encode, encRdRs1Csr]; omega)
theorem csrbclr (rd : Reg) (rs1 : Reg) (csr : Fin 4096) : Statement (.csrbclr rd rs1 csr) := scalar_word rfl (by simp only [encode, encRdRs1Csr]; omega)
theorem csrsti (rd : Reg) (uimm : Fin 32) (csr : Fin 4096) : Statement (.csrsti rd uimm csr) := scalar_word rfl (by simp only [encode, encRdUimmCsr]; omega)
theorem csrbseti (rd : Reg) (uimm : Fin 32) (csr : Fin 4096) : Statement (.csrbseti rd uimm csr) := scalar_word rfl (by simp only [encode, encRdUimmCsr]; omega)
theorem csrbclri (rd : Reg) (uimm : Fin 32) (csr : Fin 4096) : Statement (.csrbclri rd uimm csr) := scalar_word rfl (by simp only [encode, encRdUimmCsr]; omega)
theorem ecall : Statement .ecall := scalar_word rfl (by simp only [encode]; omega)
theorem ebreak : Statement .ebreak := scalar_word rfl (by simp only [encode]; omega)
theorem xret : Statement .xret := scalar_word rfl (by simp only [encode]; omega)
theorem wait (rd : Reg) (rs1 : Reg) (rs2 : Reg) : Statement (.wait rd rs1 rs2) := scalar_word rfl (by simp only [encode, encRdRs1Rs2]; omega)
theorem hexit : Statement .hexit := scalar_word rfl (by simp only [encode]; omega)
theorem vcsave (rs1 : Reg) : Statement (.vcsave rs1) := scalar_word rfl (by simp only [encode, encRs1]; omega)
theorem vcrest (rs1 : Reg) : Statement (.vcrest rs1) := scalar_word rfl (by simp only [encode, encRs1]; omega)
theorem tlbinv (rs1 : Reg) (rs2 : Reg) : Statement (.tlbinv rs1 rs2) := scalar_word rfl (by simp only [encode, encRs1Rs2]; omega)
theorem ifence : Statement .ifence := scalar_word rfl (by simp only [encode]; omega)
theorem beq (rs1 : Reg) (rs2 : Reg) (off : Fin 16384) : Statement (.beq rs1 rs2 off) := scalar_word rfl (by simp only [encode, encRs1Rs2Off]; omega)
theorem bne (rs1 : Reg) (rs2 : Reg) (off : Fin 16384) : Statement (.bne rs1 rs2 off) := scalar_word rfl (by simp only [encode, encRs1Rs2Off]; omega)
theorem blt (rs1 : Reg) (rs2 : Reg) (off : Fin 16384) : Statement (.blt rs1 rs2 off) := scalar_word rfl (by simp only [encode, encRs1Rs2Off]; omega)
theorem bge (rs1 : Reg) (rs2 : Reg) (off : Fin 16384) : Statement (.bge rs1 rs2 off) := scalar_word rfl (by simp only [encode, encRs1Rs2Off]; omega)
theorem bltu (rs1 : Reg) (rs2 : Reg) (off : Fin 16384) : Statement (.bltu rs1 rs2 off) := scalar_word rfl (by simp only [encode, encRs1Rs2Off]; omega)
theorem bgeu (rs1 : Reg) (rs2 : Reg) (off : Fin 16384) : Statement (.bgeu rs1 rs2 off) := scalar_word rfl (by simp only [encode, encRs1Rs2Off]; omega)
theorem jal (rd : Reg) (off : Fin 524288) : Statement (.jal rd off) := scalar_word rfl (by simp only [encode, encRdOff]; omega)
theorem jalr (rd : Reg) (rs1 : Reg) (imm : Fin 16384) : Statement (.jalr rd rs1 imm) := scalar_word rfl (by simp only [encode, encRdRs1Imm]; omega)
theorem amoswap (rd : Reg) (rs1 : Reg) (rs2 : Reg) (dw : Fin 2) (ord : Fin 8) : Statement (.amoswap rd rs1 rs2 dw ord) := scalar_word rfl (by simp only [encode, encRdRs1Rs2DwOrd]; omega)
theorem amoadd (rd : Reg) (rs1 : Reg) (rs2 : Reg) (dw : Fin 2) (ord : Fin 8) : Statement (.amoadd rd rs1 rs2 dw ord) := scalar_word rfl (by simp only [encode, encRdRs1Rs2DwOrd]; omega)
theorem amoand (rd : Reg) (rs1 : Reg) (rs2 : Reg) (dw : Fin 2) (ord : Fin 8) : Statement (.amoand rd rs1 rs2 dw ord) := scalar_word rfl (by simp only [encode, encRdRs1Rs2DwOrd]; omega)
theorem amoor (rd : Reg) (rs1 : Reg) (rs2 : Reg) (dw : Fin 2) (ord : Fin 8) : Statement (.amoor rd rs1 rs2 dw ord) := scalar_word rfl (by simp only [encode, encRdRs1Rs2DwOrd]; omega)
theorem amoxor (rd : Reg) (rs1 : Reg) (rs2 : Reg) (dw : Fin 2) (ord : Fin 8) : Statement (.amoxor rd rs1 rs2 dw ord) := scalar_word rfl (by simp only [encode, encRdRs1Rs2DwOrd]; omega)
theorem amomin (rd : Reg) (rs1 : Reg) (rs2 : Reg) (dw : Fin 2) (ord : Fin 8) : Statement (.amomin rd rs1 rs2 dw ord) := scalar_word rfl (by simp only [encode, encRdRs1Rs2DwOrd]; omega)
theorem amomax (rd : Reg) (rs1 : Reg) (rs2 : Reg) (dw : Fin 2) (ord : Fin 8) : Statement (.amomax rd rs1 rs2 dw ord) := scalar_word rfl (by simp only [encode, encRdRs1Rs2DwOrd]; omega)
theorem amominu (rd : Reg) (rs1 : Reg) (rs2 : Reg) (dw : Fin 2) (ord : Fin 8) : Statement (.amominu rd rs1 rs2 dw ord) := scalar_word rfl (by simp only [encode, encRdRs1Rs2DwOrd]; omega)
theorem amomaxu (rd : Reg) (rs1 : Reg) (rs2 : Reg) (dw : Fin 2) (ord : Fin 8) : Statement (.amomaxu rd rs1 rs2 dw ord) := scalar_word rfl (by simp only [encode, encRdRs1Rs2DwOrd]; omega)
theorem amocas (rd : Reg) (rs1 : Reg) (rs2 : Reg) (dw : Fin 2) (ord : Fin 8) : Statement (.amocas rd rs1 rs2 dw ord) := scalar_word rfl (by simp only [encode, encRdRs1Rs2DwOrd]; omega)
theorem fenceSv (scope : Fin 8) : Statement (.fenceSv scope) := scalar_word rfl (by simp only [encode, encScope]; omega)
theorem fenceVs (scope : Fin 8) : Statement (.fenceVs scope) := scalar_word rfl (by simp only [encode, encScope]; omega)
theorem fenceVv (scope : Fin 8) : Statement (.fenceVv scope) := scalar_word rfl (by simp only [encode, encScope]; omega)
theorem fenceAll (scope : Fin 8) : Statement (.fenceAll scope) := scalar_word rfl (by simp only [encode, encScope]; omega)
theorem setvl (rd : Reg) (rs1 : Reg) (ty : Fin 32) (bal : Fin 2) (gexp : Fin 16) : Statement (.setvl rd rs1 ty bal gexp) := scalar_word rfl (by simp only [encode, encRdRs1TyBalGexp]; omega)
theorem setvli (rd : Reg) (ty : Fin 32) (len : Fin 16384) : Statement (.setvli rd ty len) := scalar_word rfl (by simp only [encode, encRdTyLen]; omega)
theorem enq (rd : Reg) (rs1 : Reg) (rs2 : Reg) : Statement (.enq rd rs1 rs2) := scalar_word rfl (by simp only [encode, encRdRs1Rs2]; omega)
theorem qstat (rd : Reg) (rs1 : Reg) : Statement (.qstat rd rs1) := scalar_word rfl (by simp only [encode, encRdRs1]; omega)
theorem depdec (rd : Reg) (rs1 : Reg) : Statement (.depdec rd rs1) := scalar_word rfl (by simp only [encode, encRdRs1]; omega)
theorem gbar (rd : Reg) (rs1 : Reg) : Statement (.gbar rd rs1) := scalar_word rfl (by simp only [encode, encRdRs1]; omega)
theorem tbar (rd : Reg) (rs1 : Reg) : Statement (.tbar rd rs1) := scalar_word rfl (by simp only [encode, encRdRs1]; omega)
theorem vadd (w : VWord) : Statement (.vadd w) := node_word rfl (by decide) (by decide) rfl
theorem vsub (w : VWord) : Statement (.vsub w) := node_word rfl (by decide) (by decide) rfl
theorem vrsub (w : VWord) : Statement (.vrsub w) := node_word rfl (by decide) (by decide) rfl
theorem vmul (w : VWord) : Statement (.vmul w) := node_word rfl (by decide) (by decide) rfl
theorem vmulh (w : VWord) : Statement (.vmulh w) := node_word rfl (by decide) (by decide) rfl
theorem vdiv (w : VWord) : Statement (.vdiv w) := node_word rfl (by decide) (by decide) rfl
theorem vrem (w : VWord) : Statement (.vrem w) := node_word rfl (by decide) (by decide) rfl
theorem vand (w : VWord) : Statement (.vand w) := node_word rfl (by decide) (by decide) rfl
theorem vor (w : VWord) : Statement (.vor w) := node_word rfl (by decide) (by decide) rfl
theorem vxor (w : VWord) : Statement (.vxor w) := node_word rfl (by decide) (by decide) rfl
theorem vsll (w : VWord) : Statement (.vsll w) := node_word rfl (by decide) (by decide) rfl
theorem vsrl (w : VWord) : Statement (.vsrl w) := node_word rfl (by decide) (by decide) rfl
theorem vsra (w : VWord) : Statement (.vsra w) := node_word rfl (by decide) (by decide) rfl
theorem vmin (w : VWord) : Statement (.vmin w) := node_word rfl (by decide) (by decide) rfl
theorem vmax (w : VWord) : Statement (.vmax w) := node_word rfl (by decide) (by decide) rfl
theorem vsadd (w : VWord) : Statement (.vsadd w) := node_word rfl (by decide) (by decide) rfl
theorem vssub (w : VWord) : Statement (.vssub w) := node_word rfl (by decide) (by decide) rfl
theorem vabs (w : VWord) : Statement (.vabs w) := node_word rfl (by decide) (by decide) rfl
theorem vneg (w : VWord) : Statement (.vneg w) := node_word rfl (by decide) (by decide) rfl
theorem vnot (w : VWord) : Statement (.vnot w) := node_word rfl (by decide) (by decide) rfl
theorem vmv (w : VWord) : Statement (.vmv w) := node_word rfl (by decide) (by decide) rfl
theorem vsel (w : VWord) : Statement (.vsel w) := node_word rfl (by decide) (by decide) rfl
theorem vclz (w : VWord) : Statement (.vclz w) := node_word rfl (by decide) (by decide) rfl
theorem vpopc (w : VWord) : Statement (.vpopc w) := node_word rfl (by decide) (by decide) rfl
theorem vmacc (w : VWord) : Statement (.vmacc w) := node_word rfl (by decide) (by decide) rfl
theorem vfadd (w : VWord) : Statement (.vfadd w) := node_word rfl (by decide) (by decide) rfl
theorem vfsub (w : VWord) : Statement (.vfsub w) := node_word rfl (by decide) (by decide) rfl
theorem vfmul (w : VWord) : Statement (.vfmul w) := node_word rfl (by decide) (by decide) rfl
theorem vfdiv (w : VWord) : Statement (.vfdiv w) := node_word rfl (by decide) (by decide) rfl
theorem vfsqrt (w : VWord) : Statement (.vfsqrt w) := node_word rfl (by decide) (by decide) rfl
theorem vfmin (w : VWord) : Statement (.vfmin w) := node_word rfl (by decide) (by decide) rfl
theorem vfmax (w : VWord) : Statement (.vfmax w) := node_word rfl (by decide) (by decide) rfl
theorem vfabs (w : VWord) : Statement (.vfabs w) := node_word rfl (by decide) (by decide) rfl
theorem vfneg (w : VWord) : Statement (.vfneg w) := node_word rfl (by decide) (by decide) rfl
theorem vfsgnj (w : VWord) : Statement (.vfsgnj w) := node_word rfl (by decide) (by decide) rfl
theorem vfsgnjn (w : VWord) : Statement (.vfsgnjn w) := node_word rfl (by decide) (by decide) rfl
theorem vfsgnjx (w : VWord) : Statement (.vfsgnjx w) := node_word rfl (by decide) (by decide) rfl
theorem vfclass (w : VWord) : Statement (.vfclass w) := node_word rfl (by decide) (by decide) rfl
theorem vfma (w : VWord) : Statement (.vfma w) := node_word rfl (by decide) (by decide) rfl
theorem vfms (w : VWord) : Statement (.vfms w) := node_word rfl (by decide) (by decide) rfl
theorem vfnma (w : VWord) : Statement (.vfnma w) := node_word rfl (by decide) (by decide) rfl
theorem vfnms (w : VWord) : Statement (.vfnms w) := node_word rfl (by decide) (by decide) rfl
theorem vceq (w : VWord) : Statement (.vceq w) := node_word rfl (by decide) (by decide) rfl
theorem vcne (w : VWord) : Statement (.vcne w) := node_word rfl (by decide) (by decide) rfl
theorem vclt (w : VWord) : Statement (.vclt w) := node_word rfl (by decide) (by decide) rfl
theorem vcle (w : VWord) : Statement (.vcle w) := node_word rfl (by decide) (by decide) rfl
theorem vcgt (w : VWord) : Statement (.vcgt w) := node_word rfl (by decide) (by decide) rfl
theorem vcge (w : VWord) : Statement (.vcge w) := node_word rfl (by decide) (by decide) rfl
theorem vcun (w : VWord) : Statement (.vcun w) := node_word rfl (by decide) (by decide) rfl
theorem mand (w : VWord) : Statement (.mand w) := node_word rfl (by decide) (by decide) rfl
theorem mor (w : VWord) : Statement (.mor w) := node_word rfl (by decide) (by decide) rfl
theorem mxor (w : VWord) : Statement (.mxor w) := node_word rfl (by decide) (by decide) rfl
theorem mandn (w : VWord) : Statement (.mandn w) := node_word rfl (by decide) (by decide) rfl
theorem mnot (w : VWord) : Statement (.mnot w) := node_word rfl (by decide) (by decide) rfl
theorem mmv (w : VWord) : Statement (.mmv w) := node_word rfl (by decide) (by decide) rfl
theorem mset (w : VWord) : Statement (.mset w) := node_word rfl (by decide) (by decide) rfl
theorem mclr (w : VWord) : Statement (.mclr w) := node_word rfl (by decide) (by decide) rfl
theorem vcvt (w : VWord) : Statement (.vcvt w) := node_word rfl (by decide) (by decide) rfl
theorem vpack (w : VWord) : Statement (.vpack w) := node_word rfl (by decide) (by decide) rfl
theorem vunpack (w : VWord) : Statement (.vunpack w) := node_word rfl (by decide) (by decide) rfl
theorem vsget (w : VWord) : Statement (.vsget w) := node_word rfl (by decide) (by decide) rfl
theorem vsput (w : VWord) : Statement (.vsput w) := node_word rfl (by decide) (by decide) rfl
theorem vexp2 (w : VWord) : Statement (.vexp2 w) := node_word rfl (by decide) (by decide) rfl
theorem vlog2 (w : VWord) : Statement (.vlog2 w) := node_word rfl (by decide) (by decide) rfl
theorem vrcp (w : VWord) : Statement (.vrcp w) := node_word rfl (by decide) (by decide) rfl
theorem vrsqrt (w : VWord) : Statement (.vrsqrt w) := node_word rfl (by decide) (by decide) rfl
theorem vtanh (w : VWord) : Statement (.vtanh w) := node_word rfl (by decide) (by decide) rfl
theorem vsigm (w : VWord) : Statement (.vsigm w) := node_word rfl (by decide) (by decide) rfl
theorem vredosum (w : VWord) : Statement (.vredosum w) := node_word rfl (by decide) (by decide) rfl
theorem vredtsum (w : VWord) : Statement (.vredtsum w) := node_word rfl (by decide) (by decide) rfl
theorem vredmin (w : VWord) : Statement (.vredmin w) := node_word rfl (by decide) (by decide) rfl
theorem vredmax (w : VWord) : Statement (.vredmax w) := node_word rfl (by decide) (by decide) rfl
theorem vredand (w : VWord) : Statement (.vredand w) := node_word rfl (by decide) (by decide) rfl
theorem vredor (w : VWord) : Statement (.vredor w) := node_word rfl (by decide) (by decide) rfl
theorem vredxor (w : VWord) : Statement (.vredxor w) := node_word rfl (by decide) (by decide) rfl
theorem vshup (w : VWord) : Statement (.vshup w) := node_word rfl (by decide) (by decide) rfl
theorem vshdn (w : VWord) : Statement (.vshdn w) := node_word rfl (by decide) (by decide) rfl
theorem vjoinup (w : VWord) : Statement (.vjoinup w) := node_word rfl (by decide) (by decide) rfl
theorem vjoindn (w : VWord) : Statement (.vjoindn w) := node_word rfl (by decide) (by decide) rfl
theorem vrgatherX1 (w : VWord) : Statement (.vrgatherX1 w) := node_word rfl (by decide) (by decide) rfl
theorem vrgatherX2 (w : VWord) : Statement (.vrgatherX2 w) := node_word rfl (by decide) (by decide) rfl
theorem vrgatherX4 (w : VWord) : Statement (.vrgatherX4 w) := node_word rfl (by decide) (by decide) rfl
theorem vrgatherX8 (w : VWord) : Statement (.vrgatherX8 w) := node_word rfl (by decide) (by decide) rfl
theorem vcompress (w : VWord) : Statement (.vcompress w) := node_word rfl (by decide) (by decide) rfl
theorem vexpand (w : VWord) : Statement (.vexpand w) := node_word rfl (by decide) (by decide) rfl
theorem vpcnt (w : VWord) : Statement (.vpcnt w) := node_word rfl (by decide) (by decide) rfl
theorem vpcntInc (w : VWord) : Statement (.vpcntInc w) := node_word rfl (by decide) (by decide) rfl
theorem vfirst (w : VWord) : Statement (.vfirst w) := node_word rfl (by decide) (by decide) rfl
theorem vconflict (w : VWord) : Statement (.vconflict w) := node_word rfl (by decide) (by decide) rfl
theorem vsscanAdd (w : VWord) : Statement (.vsscanAdd w) := node_word rfl (by decide) (by decide) rfl
theorem vsscanMin (w : VWord) : Statement (.vsscanMin w) := node_word rfl (by decide) (by decide) rfl
theorem vsscanMax (w : VWord) : Statement (.vsscanMax w) := node_word rfl (by decide) (by decide) rfl
theorem vsscanAnd (w : VWord) : Statement (.vsscanAnd w) := node_word rfl (by decide) (by decide) rfl
theorem vsscanOr (w : VWord) : Statement (.vsscanOr w) := node_word rfl (by decide) (by decide) rfl
theorem vsscanXor (w : VWord) : Statement (.vsscanXor w) := node_word rfl (by decide) (by decide) rfl
theorem vextr (w : VWord) : Statement (.vextr w) := node_word rfl (by decide) (by decide) rfl
theorem vinsrt (w : VWord) : Statement (.vinsrt w) := node_word rfl (by decide) (by decide) rfl
theorem vld (w : VWord) : Statement (.vld w) := node_word rfl (by decide) (by decide) rfl
theorem vldSt (w : VWord) : Statement (.vldSt w) := node_word rfl (by decide) (by decide) rfl
theorem vldIx (w : VWord) : Statement (.vldIx w) := node_word rfl (by decide) (by decide) rfl
theorem vldff (w : VWord) : Statement (.vldff w) := node_word rfl (by decide) (by decide) rfl
theorem vst (w : VWord) : Statement (.vst w) := node_word rfl (by decide) (by decide) rfl
theorem vstSt (w : VWord) : Statement (.vstSt w) := node_word rfl (by decide) (by decide) rfl
theorem vstIx (w : VWord) : Statement (.vstIx w) := node_word rfl (by decide) (by decide) rfl
theorem vcompressSt (w : VWord) : Statement (.vcompressSt w) := node_word rfl (by decide) (by decide) rfl
theorem vwload (w : VWord) : Statement (.vwload w) := node_word rfl (by decide) (by decide) rfl
theorem vmmaX1 (w : VWord) : Statement (.vmmaX1 w) := node_word rfl (by decide) (by decide) rfl
theorem vmmaX2 (w : VWord) : Statement (.vmmaX2 w) := node_word rfl (by decide) (by decide) rfl
theorem vmmaX4 (w : VWord) : Statement (.vmmaX4 w) := node_word rfl (by decide) (by decide) rfl
theorem vmmaX8 (w : VWord) : Statement (.vmmaX8 w) := node_word rfl (by decide) (by decide) rfl
theorem vaccrd (w : VWord) : Statement (.vaccrd w) := node_word rfl (by decide) (by decide) rfl
theorem vaccwr (w : VWord) : Statement (.vaccwr w) := node_word rfl (by decide) (by decide) rfl
theorem vaccz (w : VWord) : Statement (.vaccz w) := node_word rfl (by decide) (by decide) rfl
theorem dmk (w : VWord) : Statement (.dmk w) := node_word rfl (by decide) (by decide) rfl
theorem cpy (w : VWord) : Statement (.cpy w) := node_word rfl (by decide) (by decide) rfl
theorem cpyt (w : VWord) : Statement (.cpyt w) := node_word rfl (by decide) (by decide) rfl
theorem gsg (w : VWord) : Statement (.gsg w) := node_word rfl (by decide) (by decide) rfl
theorem gss (w : VWord) : Statement (.gss w) := node_word rfl (by decide) (by decide) rfl
theorem ewait (w : VWord) : Statement (.ewait w) := node_word rfl (by decide) (by decide) rfl
theorem estat (w : VWord) : Statement (.estat w) := node_word rfl (by decide) (by decide) rfl
theorem winnow (w : VWord) : Statement (.winnow w) := node_word rfl (by decide) (by decide) rfl
theorem vsrdoAdd (w : VWord) : Statement (.vsrdoAdd w) := node_word rfl (by decide) (by decide) rfl
theorem vsrduAdd (w : VWord) : Statement (.vsrduAdd w) := node_word rfl (by decide) (by decide) rfl
theorem vsrduMin (w : VWord) : Statement (.vsrduMin w) := node_word rfl (by decide) (by decide) rfl
theorem vsrduMax (w : VWord) : Statement (.vsrduMax w) := node_word rfl (by decide) (by decide) rfl
theorem vsrduAnd (w : VWord) : Statement (.vsrduAnd w) := node_word rfl (by decide) (by decide) rfl
theorem vsrduOr (w : VWord) : Statement (.vsrduOr w) := node_word rfl (by decide) (by decide) rfl
theorem vsrduXor (w : VWord) : Statement (.vsrduXor w) := node_word rfl (by decide) (by decide) rfl
theorem chain (w : VWord) : Statement (.chain w) := node_word rfl (by decide) (by decide) rfl
theorem run (w : VWord) : Statement (.run w) := node_word rfl (by decide) (by decide) rfl
theorem chwait (w : VWord) : Statement (.chwait w) := node_word rfl (by decide) (by decide) rfl
theorem chquit (w : VWord) : Statement (.chquit w) := node_word rfl (by decide) (by decide) rfl
theorem stop (w : VWord) : Statement (.stop w) := node_word rfl (by decide) (by decide) rfl
theorem lnkin (w : VWord) : Statement (.lnkin w) := node_word rfl (by decide) (by decide) rfl
theorem lnkout (w : VWord) : Statement (.lnkout w) := node_word rfl (by decide) (by decide) rfl
theorem delay (w : VWord) : Statement (.delay w) := node_word rfl (by decide) (by decide) rfl
theorem ereq (w : VWord) : Statement (.ereq w) := node_word rfl (by decide) (by decide) rfl
theorem eresp (w : VWord) : Statement (.eresp w) := node_word rfl (by decide) (by decide) rfl
theorem clred (w : VWord) : Statement (.clred w) := node_word rfl (by decide) (by decide) rfl
theorem clbcast (w : VWord) : Statement (.clbcast w) := node_word rfl (by decide) (by decide) rfl
theorem clagat (w : VWord) : Statement (.clagat w) := node_word rfl (by decide) (by decide) rfl
theorem clrsc (w : VWord) : Statement (.clrsc w) := node_word rfl (by decide) (by decide) rfl
theorem clwait (w : VWord) : Statement (.clwait w) := node_word rfl (by decide) (by decide) rfl
theorem thdec (w : VWord) : Statement (.thdec w) := node_word rfl (by decide) (by decide) rfl
theorem thand (w : VWord) : Statement (.thand w) := node_word rfl (by decide) (by decide) rfl
theorem thor (w : VWord) : Statement (.thor w) := node_word rfl (by decide) (by decide) rfl
theorem thwand (w : VWord) : Statement (.thwand w) := node_word rfl (by decide) (by decide) rfl
theorem thscore (w : VWord) : Statement (.thscore w) := node_word rfl (by decide) (by decide) rfl
theorem thfuse (w : VWord) : Statement (.thfuse w) := node_word rfl (by decide) (by decide) rfl
theorem thtopk (w : VWord) : Statement (.thtopk w) := node_word rfl (by decide) (by decide) rfl
theorem stripCommit (h : HartId) : Statement (.stripCommit h) := event_word rfl rfl
theorem stripFault (h : HartId) : Statement (.stripFault h) := event_word rfl rfl
theorem breakRun (h : HartId) : Statement (.breakRun h) := event_word rfl rfl
theorem temporalStrip (h : HartId) : Statement (.temporalStrip h) := event_word rfl rfl
theorem reForm (h : HartId) : Statement (.reForm h) := event_word rfl rfl
theorem linkPacket (h : HartId) (dir : Fin 4) : Statement (.linkPacket h dir) := event_word rfl rfl
theorem scannerPoll (q : Fin 4096) : Statement (.scannerPoll q) := event_word rfl rfl
theorem delivery (die : Fin 8) : Statement (.delivery die) := event_word rfl rfl
theorem dispatchPass (die : Fin 8) : Statement (.dispatchPass die) := event_word rfl rfl
theorem hartStop (h : HartId) : Statement (.hartStop h) := event_word rfl rfl
theorem reclaimTimeout (h : HartId) : Statement (.reclaimTimeout h) := event_word rfl rfl
theorem taskCompletion (e : EntryId) : Statement (.taskCompletion e) := event_word rfl rfl
theorem decrementRetry (e : EntryId) : Statement (.decrementRetry e) := event_word rfl rfl
theorem budgetExhausted (e : EntryId) : Statement (.budgetExhausted e) := event_word rfl rfl
theorem overrun (e : EntryId) : Statement (.overrun e) := event_word rfl rfl
theorem deadline (e : EntryId) : Statement (.deadline e) := event_word rfl rfl
theorem watchdog (e : EntryId) : Statement (.watchdog e) := event_word rfl rfl
theorem commandAccept (h : HartId) (ticket : Nat) : Statement (.commandAccept h ticket) := event_word rfl rfl
theorem commandEnd (h : HartId) (ticket : Nat) : Statement (.commandEnd h ticket) := event_word rfl rfl
theorem checkpointPause (h : HartId) (ticket : Nat) : Statement (.checkpointPause h ticket) := event_word rfl rfl
theorem engineStall (h : HartId) (ticket : Nat) : Statement (.engineStall h ticket) := event_word rfl rfl
theorem dataFrame (port : Fin 16) (f : Frame) : Statement (.dataFrame port f) := event_word rfl rfl
theorem creditFrame (port : Fin 16) (f : Frame) : Statement (.creditFrame port f) := event_word rfl rfl
theorem abortFrame (port : Fin 16) (f : Frame) : Statement (.abortFrame port f) := event_word rfl rfl
theorem probeFrame (port : Fin 16) (f : Frame) : Statement (.probeFrame port f) := event_word rfl rfl
theorem replyFrame (port : Fin 16) (f : Frame) : Statement (.replyFrame port f) := event_word rfl rfl
theorem resendTimeout (h : HartId) (ticket : Nat) (peer chunk : Nat) : Statement (.resendTimeout h ticket peer chunk) := event_word rfl rfl
theorem silenceTimeout (h : HartId) (ticket : Nat) (peer : Nat) : Statement (.silenceTimeout h ticket peer) := event_word rfl rfl
theorem unreachablePeer (h : HartId) (ticket : Nat) (peer : Nat) : Statement (.unreachablePeer h ticket peer) := event_word rfl rfl
theorem collectiveEnd (h : HartId) (ticket : Nat) : Statement (.collectiveEnd h ticket) := event_word rfl rfl
theorem collectiveCheckpoint (h : HartId) (ticket : Nat) : Statement (.collectiveCheckpoint h ticket) := event_word rfl rfl
theorem portReceive (port : Fin 16) (frame : List Byte) : Statement (.portReceive port frame) := event_word rfl rfl
theorem portTransmit (port : Fin 16) : Statement (.portTransmit port) := event_word rfl rfl
theorem mgmtRead (tag off len : Nat) : Statement (.mgmtRead tag off len) := event_word rfl rfl
theorem mgmtWrite (tag off : Nat) (data : List Byte) : Statement (.mgmtWrite tag off data) := event_word rfl rfl
theorem getVersion (req : SpdmReq) : Statement (.getVersion req) := event_word rfl rfl
theorem getCapabilities (req : SpdmReq) : Statement (.getCapabilities req) := event_word rfl rfl
theorem negotiateAlgorithms (req : SpdmReq) : Statement (.negotiateAlgorithms req) := event_word rfl rfl
theorem getDigests (req : SpdmReq) : Statement (.getDigests req) := event_word rfl rfl
theorem getCertificate (req : SpdmReq) : Statement (.getCertificate req) := event_word rfl rfl
theorem challenge (req : SpdmReq) : Statement (.challenge req) := event_word rfl rfl
theorem getMeasurements (req : SpdmReq) : Statement (.getMeasurements req) := event_word rfl rfl
theorem unsupportedRequest (req : SpdmReq) : Statement (.unsupportedRequest req) := event_word rfl rfl
theorem resetN : Statement .resetN := event_word rfl rfl
theorem cmdRead (cc : Fin 32) : Statement (.cmdRead cc) := event_word rfl rfl
theorem cmdWrite (cc : Fin 32) : Statement (.cmdWrite cc) := event_word rfl rfl
theorem halted (h : HartId) : Statement (.halted h) := event_word rfl rfl
theorem treset (cc : Fin 32) : Statement (.treset cc) := event_word rfl rfl
theorem quiescence (ten : Fin 64) : Statement (.quiescence ten) := event_word rfl rfl
theorem trelease (cc : Fin 32) : Statement (.trelease cc) := event_word rfl rfl
theorem endEntry (cc : Fin 32) : Statement (.endEntry cc) := event_word rfl rfl
theorem answerRetry (cc : Fin 32) : Statement (.answerRetry cc) := event_word rfl rfl
theorem answerDecline (cc : Fin 32) : Statement (.answerDecline cc) := event_word rfl rfl
theorem fqueue (cc : Fin 32) : Statement (.fqueue cc) := event_word rfl rfl
theorem migrationEnd (obj : Fin 8) (lasting : List (Fin 1024)) : Statement (.migrationEnd obj lasting) := event_word rfl rfl
theorem uncorrectableError (u : ErrUnit) (secondOk : Bool) : Statement (.uncorrectableError u secondOk) := event_word rfl rfl
theorem configRestore (h : HartId) : Statement (.configRestore h) := event_word rfl rfl
theorem repair (u : SpareUnit) : Statement (.repair u) := event_word rfl rfl
theorem powerSample (milliwatts decidegrees : Nat) : Statement (.powerSample milliwatts decidegrees) := event_word rfl rfl
theorem priorityFlowControl (port : Fin 16) (prio : Fin 8) (pause : Bool) : Statement (.priorityFlowControl port prio pause) := event_word rfl rfl

end Encoding
end Laws
end Sys2Proof
end

