-- ==== Sys2Proof/Tests/Slice0.lean ====
section
/-! SUPPORT. Tests of the model against the manual: ill-formed words, words written out from the encoding tables, results the
manual gives, and for every statement states and operands that meet its hypotheses. -/

set_option Elab.async false
set_option maxRecDepth 100000

namespace Sys2Proof
namespace Tests
open Sys2Proof.Machine

/-! ### Ill-formed words -/

/-- Field rules (spec/02_encoding.md R36, R39, R51 test 3): a nonzero field that the form does not use, a source that no mask
names, an ordering code past 3 and a scope past 4 are refused. -/
theorem test_ill_formed_fields :
    (Instr.amoadd 1 2 3 1 4).wellFormed = false ∧ (Instr.amoadd 1 2 3 1 3).wellFormed = true ∧
    (Instr.fenceAll 5).wellFormed = false ∧ (Instr.fenceAll 4).wellFormed = true ∧
    (Instr.vadd (node8 1 8 8 8 0 2 0 0)).wellFormed = false ∧ (Instr.vadd (node8 1 8 8 0 0 2 0 0)).wellFormed = true ∧
    (Instr.vadd (node8 1 8 8 0 8 2 0 0)).wellFormed = false ∧ (Instr.vadd (node8 1 8 0x109 0 0 2 0 1)).wellFormed = false ∧
    (Instr.mand (node8 8 8 8 0 0 0 0 0)).wellFormed = false ∧ (Instr.vmmaX2 (node8 2 0x040 0x048 0 0 20 0 0)).wellFormed = false := by
  decide +kernel

/-- Absent types (test 4): type code 22 and later name a feature that the ZM3 lacks. -/
theorem test_ill_formed_type : (Instr.vfadd (node8 0 0 0 0 0 22 0 0)).wellFormed = false ∧
    check4 (.vfadd (node8 0 0 0 0 0 22 0 0)) = some 150 ∧ check4 (.setvl 1 2 31 0 0) = some 159 := by decide +kernel

/-- Types, rounding codes and places (test 5): an integer type in a floating-point form, rm 5 and 6 in a scalar form, rm 7 in
none but those that round, a chain-only word inline and an inline-only word in a chain block, a queue inline. -/
theorem test_ill_formed_place :
    (Instr.vfadd (node8 0 0 0 0 0 0 0 0)).wellFormed = false ∧ (Instr.vadd (node8 0 0 0 0 0 9 0 0)).wellFormed = false ∧
    (Instr.faddF64 1 2 3 5).wellFormed = false ∧ (Instr.faddF64 1 2 3 6).wellFormed = false ∧
    (Instr.faddF64 1 2 3 7).wellFormed = true ∧
    wellFormedAt .inline (.stop (node8 0 0 0 0 0 0 0 0)) = false ∧ wellFormedAt .chain (.stop (node8 0 0 0 0 0 0 0 0)) = true ∧
    wellFormedAt .chain (.vfirst (node8 1 8 0 0 0 2 0 0)) = false ∧
    wellFormedAt .inline (.vadd (node8 1 0x100 8 0 0 2 0 0)) = false ∧ wellFormedAt .chain (.vadd (node8 33 0x100 8 0 0 2 0 0)) = true ∧
    wellFormedAt .chain (.chwait (node8 1 0 0 0 0 0 0 0)) = false := by
  decide +kernel

/-! ### Words that the manual writes out, or that its encoding tables give -/

/-- spec/02_encoding.md: the bytes of `vfma.f32 v4, v2, v5.rep1, v3, m2` in memory. -/
theorem test_bytes_of_vfma : decode .inline [0x14, 0x10, 0x10, 0xC2, 0x10, 0x40, 0x12, 0x0C] =
    .instr (.vfma (node8 4 0x008 0x014 0x018 2 9 0 0)) 8 := by decide +kernel

/-- spec/02_encoding.md R53: the fates of the words of its table. -/
theorem test_fates :
    decode .inline (leBytes 8 0x0005_8000_C200_0000) = .fate (.feature 150) 0x0005_8000_C200_0000 8 ∧
    decode .inline (leBytes 8 0x0000_0000_C200_0000) = .fate .illegal 0x0000_0000_C200_0000 8 := by decide +kernel

/-- Integer, memory and control words (spec/02_encoding.md R34; spec/05_scalar_ops.md; spec/10_memory.md R217). -/
theorem test_words_scalar : ∀ x ∈ [
    (0x04000000, Instr.addi 0 0 0), (0x02610A08, .remu 12 4 5), (0x0D47FF80, .lhi 8 0x7FF80), (0x81280005, .beq 5 0 5),
    (0x82283FFD, .bne 5 0 16381), (0x89004000, .jalr 0 1 0), (0x4452D6C0, .fmadd 10 11 11 12 0 0), (0x16408010, .ld 8 2 16),
    (0x1A48BFFC, .sw 9 2 16380),
    (0x01 * 2 ^ 24 + 7 * 2 ^ 19 + 8 * 2 ^ 14 + 9 * 2 ^ 9 + 0x001, .sub 7 8 9),
    (0x90425418, .amoadd 8 9 10 1 0), (0x90625A9B, .amocas 12 9 13 1 3)],
    decode .inline (leBytes 4 x.1) = .instr x.2 4 := by decide +kernel

/-- System words (spec/05_scalar_ops.md R118; spec/14_harts_kiln.md; spec/17_traps.md). -/
theorem test_words_system : ∀ x ∈ [
    (0x51004011, Instr.csrsti 0 1 4), (0x50403C08, .csrld 8 0xF02), (0x50400104, .csrld 8 0x041), (0x50020081, .csrst 0 8 0x020),
    (0x98425200, .setvl 8 9 9 0 0), (0x99431000, .setvli 8 12 4096), (0xA0652C00, .enq 12 20 22), (0xA06D8001, .qstat 13 22),
    (0x91000000, .fenceSv 0), (0x91000008, .fenceVs 0), (0x9100000A, .fenceVs 2), (0x91000011, .fenceVv 1), (0x9100001C, .fenceAll 4),
    (0x60000002, .xret)], decode .inline (leBytes 4 x.1) = .instr x.2 4 := by decide +kernel

/-- Vector words inline. -/
theorem test_words_vector : ∀ x ∈ [
    (0x0000_8404_C304_1000, Instr.vcgt (node8 1 0x008 0 0 0 2 0 1)), (0x0400_800A_C808_1000, .vpcntInc (node8 2 0x008 0 0x008 0 2 0 0)),
    (0x0068_8400_C10C_1048, .vadd (node8 3 0x008 0x048 0 13 2 0 1)), (0x0010_8003_CA12_8000, .vcompressSt (node8 4 0x140 0 0 2 2 0 0)),
    (0x0000_C000_C906_8000, .vld (node8 1 0x140 0 0 0 3 0 0)), (0x0000_C000_CA0E_A000, .vst (node8 3 0x150 0 0 0 3 0 0)),
    (0x0000_C40F_C80C_0068, .vinsrt (node8 3 0 0x068 0 0 3 0 1)), (0x0003_2800_C518_2009, .vcvt (node8 6 0x010 0x009 0 0 12 5 0)),
    (0x0030_800D_C824_1020, .vsscanAdd (node8 9 0x008 0x020 0 6 2 0 0)), (0x0002_4005_C61C_4000, .vsigm (node8 7 0x020 0 0 0 9 0 0))],
    decode .inline (leBytes 8 x.1) = .instr x.2 8 := by decide +kernel

/-- Engine, link, collective, Thresher and chain words. -/
theorem test_words_units : ∀ x ∈ [
    (0x5800_0000_CC42_5403, Instr.dmk (node8 16 0x12A 0x003 0x0B0 0 0 0 0)), (0x0000_0001_CC40_0012, .cpy (node8 16 0 0x012 0 0 0 0 0)),
    (0x0000_0000_E442_5454, .winnow (node8 16 0x12A 0x054 0 0 0 0 0)), (0x0002_4000_E242_5412, .clred (node8 16 0x12A 0x012 0 0 9 0 0)),
    (0x0000_0004_E25A_0000, .clwait (node8 22 0x100 0 0 0 0 0 0)), (0x0000_0000_E308_1000, .thdec (node8 2 0x008 0 0 0 0 0 0)),
    (0x0000_0006_E320_3020, .thtopk (node8 8 0x018 0x020 0 0 0 0 0)), (0x0000_0000_E003_8000, .chain (node8 0 0x1C0 0 0 0 0 0 0)),
    (0x0000_0001_E001_C000, .run (node8 0 0x0E0 0 0 0 0 0 0)), (0x0000_0002_E078_0000, .chwait (node8 30 0 0 0 0 0 0 0)),
    (0x0000_0003_E000_0000, .chquit (node8 0 0 0 0 0 0 0 0))], decode .inline (leBytes 8 x.1) = .instr x.2 8 := by decide +kernel

/-- Words in a chain block. -/
theorem test_words_chain : ∀ x ∈ [
    (0x0000_0000_E100_0000, Instr.stop (node8 0 0 0 0 0 0 0 0)), (0x0002_4001_E180_0003, .lnkin (node8 32 0 0x003 0 0 9 0 0)),
    (0x0002_4002_E102_3001, .lnkout (node8 0 0x118 0x001 0 0 9 0 0)), (0x0002_4003_E186_2000, .delay (node8 33 0x110 0 0 0 9 0 0)),
    (0x0001_8004_E102_4009, .ereq (node8 0 0x120 0x009 0 0 6 0 0)), (0x0002_4005_E194_0009, .eresp (node8 37 0 0x009 0 0 9 0 0)),
    (0x0000_0004_E38E_1030, .thscore (node8 35 0x108 0x030 0 0 0 0 0)), (0x8402_4010_C28A_002C, .vfma (node8 34 0x100 0x02C 0x108 0 9 0 0)),
    (0x0002_4000_C980_8000, .vld (node8 32 0x040 0 0 0 9 0 0)), (0x0004_4000_CA95_0000, .vst (node8 37 0x080 0 0 0 17 0 0))],
    decode .chain (leBytes 8 x.1) = .instr x.2 8 := by decide +kernel

/-! ### Small states -/

/-- Hart context 0 of core 0 of die 0, in U mode at 0x30000; the first 512 MiB are mapped to themselves. -/
def hart : State := State.reset.withFetchWord 32 0x04000000
/-- The hart with something of its own changed. -/
def with_ (f : Agent → Agent) : State := { hart with me := f hart.me }
/-- A state with g registers set. -/
def gs (l : List (Fin 32 × Word)) (s : State) : State :=
  { s with me := { s.me with g := l.foldl (fun g x => g.set x.1 x.2) s.me.g } }
/-- The hart with g8 and g9 set. -/
def two (a b : Word) : State := gs [(8, a), (9, b)] hart
/-- The hart with its vector state changed. -/
def vec (f : VecState → VecState) (s : State) : State := { s with me := { s.me with vec := f s.me.vec } }
/-- `VL` set to a type and a length. -/
def vl (t n : Nat) (s : State) : State := vec (fun v => { v with vlTy := BitVec.ofNat 5 t, vlLen := BitVec.ofNat 17 n }) s
/-- The first elements of a vector register, on 4 lanes. -/
def elems (t : Nat) (r : Reg) (l : List Nat) (s : State) : State :=
  vec (fun v => { v with regs := { v.regs with
    data := v.regs.data.set r (l.zipIdx.foldl (fun x p => putElem t 4 x p.2 p.1) v.regs.data[r]) } }) s
/-- A mask. -/
def mask (n : Fin 8) (x : Nat) (s : State) : State := vec (fun v => { v with masks := v.masks.set n (BitVec.ofNat 65536 x) }) s
/-- Doublewords or smaller units in memory. -/
def place (k n : Nat) (l : List Nat) (s : State) : State :=
  { s with mem := l.zipIdx.foldl (fun m p => Memory.writeLE m (k + n * p.2) n p.1) s.mem }

/-- A g register and the flags after an instruction. -/
def gOut (o : Host.Outcome State Fault Refusal) (r : Reg) : Option (Word × BitVec 5) :=
  match o with
  | .next t => some (getG t.me r, t.me.fflags)
  | _ => none
/-- The first elements of a vector register after an instruction. -/
def vOut (o : Host.Outcome State Fault Refusal) (t r n : Nat) : Option (List Nat × BitVec 5) :=
  match o with
  | .next s => some ((List.range n).map (elemAt s.me.vec.regs t 4 r), s.me.fflags)
  | _ => none
/-- Units of memory after an instruction. -/
def mOut (o : Host.Outcome State Fault Refusal) (k n c : Nat) : Option (List Nat) :=
  match o with
  | .next s => some ((List.range c).map (fun i => Memory.readLE s.mem (k + n * i) n))
  | _ => none
/-- The cause and the value of the trap after an instruction. -/
def tOut (o : Host.Outcome State Fault Refusal) : Option (BitVec 8 × Word) :=
  match o with
  | .next s => some (s.me.xcause, s.me.xval)
  | _ => none

/-! ### Results that the manual gives -/

/-- The table of exact results of spec/05_scalar_ops.md R110, and its examples of R106 and R109. -/
theorem test_integer_edges :
    gOut (exec (.div 10 8 9) (two 0x8000000000000000 0xFFFFFFFFFFFFFFFF)) 10 = some (0x8000000000000000, 0) ∧
    gOut (exec (.rem 10 8 9) (two 0x8000000000000000 0xFFFFFFFFFFFFFFFF)) 10 = some (0, 0) ∧
    gOut (exec (.divu 10 8 9) (two 0x1234 0)) 10 = some (0xFFFFFFFFFFFFFFFF, 0) ∧
    gOut (exec (.remI32 10 8 9) (two 0x80000007 0)) 10 = some (0xFFFFFFFF80000007, 0) ∧
    gOut (exec (.divuI32 10 8 9) (two 5 0xFFFFFFFF00000000)) 10 = some (0xFFFFFFFFFFFFFFFF, 0) ∧
    gOut (exec (.mulh 10 8 9) (two 0xFFFFFFFFFFFFFFFF 2)) 10 = some (0xFFFFFFFFFFFFFFFF, 0) ∧
    gOut (exec (.mulhu 10 8 9) (two 0xFFFFFFFFFFFFFFFF 2)) 10 = some (1, 0) ∧
    gOut (exec (.mulhsu 10 8 9) (two 0xFFFFFFFFFFFFFFFF 2)) 10 = some (0xFFFFFFFFFFFFFFFF, 0) ∧
    gOut (exec (.rorI32 10 8 9) (two 0x12 8)) 10 = some (0x12000000, 0) ∧
    gOut (exec (.srlI32 10 8 9) (two 0x80000000 0)) 10 = some (0xFFFFFFFF80000000, 0) ∧
    gOut (exec (.lhi 8 0x7FF80) (two 0 0)) 8 = some (0xFFF0000000000000, 0) := by decide +kernel

/-- The class codes of R115. -/
theorem test_fclass :
    gOut (exec (.fclassF32 10 8) (two 0 0)) 10 = some (0x10, 0) ∧
    gOut (exec (.fclassF32 10 8) (two 0x80000000 0)) 10 = some (0x18, 0) ∧
    gOut (exec (.fclassF32 10 8) (two 0x3FC00000 0)) 10 = some (0x02, 0) ∧
    gOut (exec (.fclassF32 10 8) (two 0xC0000000 0)) 10 = some (0x1A, 0) ∧
    gOut (exec (.fclassF32 10 8) (two 1 0)) 10 = some (0x01, 0) ∧
    gOut (exec (.fclassF32 10 8) (two 0xFF800000 0)) 10 = some (0x0B, 0) ∧
    gOut (exec (.fclassF32 10 8) (two 0x7FC00000 0)) 10 = some (0x04, 0) ∧
    gOut (exec (.fclassF32 10 8) (two 0xFF800001 0)) 10 = some (0x0D, 0) := by decide +kernel

/-- One rounding against two (spec/05_scalar_ops.md), and the conversions of R116. -/
theorem test_fused_and_converted :
    gOut (exec (.fmulF32 13 8 8 0) (two 0x3F800800 0)) 13 = some (0x3F801000, 1) ∧
    gOut (exec (.faddF32 13 8 9 0) (two 0x3F801000 0xBF800000)) 13 = some (0x3A000000, 0) ∧
    gOut (exec (.fmadd 10 8 8 9 0 0) (two 0x3F800800 0xBF800000)) 10 = some (0x3A000400, 0) ∧
    gOut (exec (.fcvtN32F64 10 8 0) (two 0xFFF0000000000000 0)) 10 = some (0, 16) ∧
    gOut (exec (.fcvtI32F32 10 8 0) (two 0x4F32D05E 0)) 10 = some (0x7FFFFFFF, 16) := by decide +kernel

/-- The grants of spec/06_vector_arith.md R126 on 32 lanes. -/
theorem test_setvl :
    let s := with_ (fun a => { a with nlanes := 32, g := a.g.set 9 5000 })
    let s' := with_ (fun a => { a with nlanes := 32, g := a.g.set 9 3333 })
    gOut (exec (.setvl 8 9 9 0 0) s) 8 = some (2048, 0) ∧ gOut (exec (.setvli 8 12 4096) s) 8 = some (4096, 0) ∧
    gOut (exec (.setvl 8 9 9 1 0) s) 8 = some (1667, 0) ∧ gOut (exec (.setvl 8 9 9 1 0) s') 8 = some (1667, 0) ∧
    gOut (exec (.setvl 8 9 9 1 5) s) 8 = some (1664, 0) := by decide +kernel

/-- A masked add resumed part-way (spec/06_vector_arith.md). -/
theorem test_masked_add :
    let s := gs [(9, 5)] (mask 5 0b101101 (vl 2 6 (elems 2 1 [0x0A, 0x14, 0x1E, 0x28, 0x32, 0x3C, 0x46]
      (elems 2 3 (List.replicate 7 0xFFFFFFFF) (vec (fun v => { v with vstart := 2 }) hart)))))
    vOut (exec (.vadd (node8 3 0x008 0x048 0 13 2 0 1)) s) 2 3 7 =
      some ([0xFFFFFFFF, 0xFFFFFFFF, 0x23, 0x2D, 0, 0x41, 0xFFFFFFFF], 0) := by decide +kernel

/-- Two special-function results (spec/06_vector_arith.md). -/
theorem test_special_functions :
    vOut (exec (.vexp2 (node8 7 0x020 0 0 0 9 0 0)) (vl 9 1 (elems 9 4 [0x3F000000] hart))) 9 7 1 = some ([0x3FB504F3], 1) ∧
    vOut (exec (.vexp2 (node8 7 0x020 0 0 0 10 0 0)) (vl 10 1 (elems 10 4 [0x3F00] hart))) 10 7 1 = some ([0x3FB5], 1) ∧
    vOut (exec (.vsigm (node8 7 0x020 0 0 0 9 0 0)) (vl 9 1 (elems 9 4 [0] hart))) 9 7 1 = some ([0x3F000000], 0) := by
  decide +kernel

/-- Stochastic rounding (spec/04_formats.md R94): element 1 of an inline conversion from f32 to e4m3 under `SRSEED` = 0. -/
theorem test_stochastic :
    (vOut (exec (.vcvt (node8 6 0x010 0x009 0 0 12 5 0)) (vl 12 2 (elems 9 2 [0, 0x3F880000] hart))) 12 6 2).map
      (fun x => (x.1[1]?, x.2)) = some (some 0x38, 1) := by decide +kernel

/-- A gather across a group (spec/08_permute_sparse.md). -/
theorem test_gather :
    let s := mask 2 0b11111 (vl 2 6 (elems 2 4 [0x10, 0x11, 0x12, 0x13, 0x14, 0x15, 0x99] (elems 2 5 [0x20, 0x21, 0x22, 0x23, 0x24, 0x25]
      (elems 2 7 [2, 6, 11, 12, 0xFFFFFFFF, 1] (elems 2 10 (List.replicate 7 0xAAAAAAAA) hart)))))
    vOut (exec (.vrgatherX2 (node8 10 0x020 0x038 0 2 2 0 0)) s) 2 10 7 =
      some ([0x12, 0x20, 0x25, 0, 0, 0xAAAAAAAA, 0xAAAAAAAA], 0) := by decide +kernel

/-- Compress in place, and its resumption from element 5 (spec/08_permute_sparse.md). -/
theorem test_compress :
    let w := node8 1 0x008 0 0 3 2 0 0
    let s := mask 3 0b10010110 (vl 2 8 (elems 2 1 [0xA0, 0xA1, 0xA2, 0xA3, 0xA4, 0xA5, 0xA6, 0xA7] hart))
    let r := mask 3 0b10010110 (vl 2 8 (elems 2 1 [0xA1, 0xA2, 0xA4, 0xA3, 0xA4, 0xA5, 0xA6, 0xA7] (vec (fun v => { v with vstart := 5 }) hart)))
    vOut (exec (.vcompress w) s) 2 1 8 = some ([0xA1, 0xA2, 0xA4, 0xA7, 0xA4, 0xA5, 0xA6, 0xA7], 0) ∧
    vOut (exec (.vcompress w) r) 2 1 8 = some ([0xA1, 0xA2, 0xA4, 0xA7, 0xA4, 0xA5, 0xA6, 0xA7], 0) := by decide +kernel

/-- A segmented scan (R182), and its resumption from element 4. -/
theorem test_scan :
    let w := node8 9 0x008 0x020 0 6 2 0 0
    let s := mask 4 0b100100 (mask 6 0b11110111 (vl 2 8 (elems 2 1 [1, 2, 3, 4, 5, 6, 7, 8] hart)))
    let r := vec (fun v => { v with vstart := 4 }) (elems 2 9 [1, 3, 3, 0] s)
    vOut (exec (.vsscanAdd w) s) 2 9 8 = some ([1, 3, 3, 0, 8, 6, 0xD, 0x15], 0) ∧
    vOut (exec (.vsscanAdd w) r) 2 9 8 = some ([1, 3, 3, 0, 8, 6, 0xD, 0x15], 0) := by decide +kernel

/-- Repeated indices in element order (spec/12_atomics_engines.md R259). -/
theorem test_scatter_reduce :
    let s := place 0x40000 4 [0x4B800000] (gs [(8, 0x40000)] (vl 9 2 (elems 9 5 [0x3F800000, 0x40000000] hart)))
    mOut (exec (.vsrdoAdd (node8 5 0x080 0x300 0 0 9 0 0)) s) 0x40000 4 1 = some [0x4B800001] ∧
    (vOut (exec (.vsrdoAdd (node8 5 0x080 0x300 0 0 9 0 0)) s) 9 5 1).map (fun x => x.2) = some 1 := by decide +kernel

/-- A block of five postings (spec/09_thresher.md R187, R190). -/
theorem test_postings :
    let s := place 0x40000 4 [0x000003E8, 0x00000514, 0x01010384, 0x00030001, 0x00000342, 0x00000012, 4, 0x24, 4, 0x13]
      (vl 7 1 (elems 7 1 [0x8000000000040002] hart))
    vOut (exec (.thdec (node8 2 0x008 0 0 0 0 0 0)) s) 7 2 5 = some ([0x02000001000003E8, 0x02000002000003EB,
      0x02000001000003EC, 0x02000001000003F2, 0x0200002800000514], 0) := by decide +kernel

/-- Ranking (spec/09_thresher.md R200). -/
theorem test_rank :
    let s := elems 6 4 [3] (vl 7 5 (elems 7 3 [0x4000000000000007, 0x4000000000000003, 0x40A0000000000009, 0x7FC0000000000004,
      0x3F80000000000005] hart))
    vOut (exec (.thtopk (node8 8 0x018 0x020 0 0 0 0 0)) s) 7 8 3 =
      some ([0x40A0000000000009, 0x4000000000000003, 0x4000000000000007], 0) := by decide +kernel


/-! ### Witnesses: states and operands that meet the hypotheses of the statements, clause by clause -/

/-- A page fault or other fault with no more to say. -/
def flt (cause va : Nat) (acc : Acc) : Flt := { cause := cause, va := va, acc := acc, perm := false, peer := false }
/-- The hart in S mode. -/
def sup : State := with_ (fun a => { a with mode := .s })
/-- Control core 0 after boot, in M mode. -/
def core0 : State := { State.reset with bootstat := 4 }
/-- The hart with g7 poisoned. -/
def badG : State := with_ (fun a => { a with pg := 0x80 })

/-- The words of the example entry of spec/14_harts_kiln.md. -/
def image0 : Vector Word 8 := #v[0, 0x10000, 0x200000, 0x80053000, 0x16E360, 0x30D40, 0x201000, 0]
/-- Entry 0 of queue 0, running on core 0 of die 0. -/
def entry0 : Entry where
  id := entryId 0 0
  words := image0
  die := 0
  ten := 0
  asid := 0
  slot := none
  state := .running
  code := 0
  depUnder := false
  counter := 0
  deadline := 1500000
  watch := 6000000
  watched := 0
  delivNo := 0
  skips := 0
  gangs := [{ core := 0, row := 0, rows := 256, gbar := Barrier.new 1, pool := [] }]
  tbar := Barrier.new 1
  left := 128 * 200000
  ext := false
  overdraft := 0
  exhausted := false
  target := none
  missed := false
  retry := false
/-- The hart as the one hart of entry 0. -/
def ran : State := { with_ (fun a => { a with task := some (entryId 0 0) }) with entries := [entry0] }

/-- Register forms, shifts, bit manipulation, upper immediates and conversions: unpoisoned sources, also where another register is
poisoned, and g0 whatever its bit. -/
theorem witness_clean : Clean hart [8, 9] ∧ Clean badG [6, 8, 31] ∧ Clean (with_ (fun a => { a with pg := 1 })) [0] ∧
    ¬ Clean badG [8, 7] := by unfold Clean; decide +kernel

/-- Loads, stores and atomics: an aligned address at the end of the mapped space, one that is misaligned, one past it, one of a
window that no task has. -/
theorem witness_scalar_memory :
    let s := gs [(8, 0x1FFFFFF8), (9, 7)] hart
    Clean s [8, 9] ∧ (effAddr s 8 0).toNat % 8 = 0 ∧ resolveScalar s .read (effAddr s 8 0).toNat = .ok (.mem 0x1FFFFFF8) ∧
    resolveScalar s .write (effAddr s 8 7).toNat = .ok (.mem 0x1FFFFFFF) ∧
    resolveScalar s .both (getG s.me 8).toNat = .ok (.mem 0x1FFFFFF8) ∧ Memory.wf s.mem = true ∧
    (effAddr s 8 1).toNat % 2 ≠ 0 ∧ (effAddr s 8 8).toNat % 8 = 0 ∧
    resolveScalar s .read (effAddr s 8 8).toNat = .error (flt cPfault 0x20000000 .read) ∧
    resolveScalar s .write winBase = .error (flt cPfault winBase .write) ∧
    resolveScalar s .both (effAddr s 8 8).toNat = .error (flt cPfault 0x20000000 .both) := by
  unfold Clean; decide +kernel

/-- Branches: taken, not taken, and a target that is not a multiple of 4, for a branch from a misplaced PC and for `jalr`. -/
theorem witness_branches :
    let s := gs [(8, 0x30002)] hart
    Clean s [8, 9] ∧ getG s.me 8 ≠ getG s.me 9 ∧ getG s.me 9 = getG s.me 0 ∧
    (s.me.pc + BitVec.ofInt 64 (4 * simm 8191)).toNat % 4 = 0 ∧ (s.me.pc + BitVec.ofInt 64 (4 * simm19 262144)).toNat % 4 = 0 ∧
    ((setPc s 0x30002).me.pc + BitVec.ofInt 64 (4 * simm 8192)).toNat % 4 ≠ 0 ∧
    (BitVec.ofInt 64 ((getG s.me 8).toInt + simm 2)).toNat % 4 = 0 ∧ (BitVec.ofInt 64 ((getG s.me 8).toInt + simm 0)).toNat % 4 ≠ 0 := by
  unfold Clean; decide +kernel

/-- Rounding codes at the edges of what a scalar form accepts, and codes of finite numbers: zero, a subnormal, the largest. -/
theorem witness_rounding : RmOk 0 ∧ RmOk 4 ∧ RmOk 7 ∧ ¬ RmOk 5 ∧ Clean hart [8] ∧
    (RMode.plain 4).bits < 2 ^ 32 ∧ ({ mode := 5, bits := 2 ^ 32 - 1 } : RMode).bits < 2 ^ 32 ∧
    (8 ∈ [8, 9, 10, 11] ∧ 11 ∈ [8, 9, 10, 11]) ∧
    (∀ c ∈ [0, 1, 0x7BFF, 0xFBFF], c < 2 ^ (fmtOf 11).width ∧ c / 2 ^ (fmtOf 11).f % 2 ^ (fmtOf 11).eb ≠ 2 ^ (fmtOf 11).eb - 1) ∧
    (∀ c ∈ [0, 0x7FEFFFFFFFFFFFFF], c < 2 ^ (fmtOf 8).width ∧ c / 2 ^ (fmtOf 8).f % 2 ^ (fmtOf 8).eb ≠ 2 ^ (fmtOf 8).eb - 1) := by
  unfold RmOk Clean; decide +kernel

/-- What an Except answers. -/
def okE {ε α : Type} : Except ε α → Bool
  | .ok _ => true
  | .error _ => false

/-- Special registers: open and closed by mode, agent and number; `FFLAGS` while a run has been issued and while none has. -/
theorem witness_special_registers :
    CsrReady hart 4 [8] ∧ CsrReady hart 2 [8] ∧ CsrReady sup 0x43 [8] ∧ CsrReady core0 0x803 [8] ∧
    CsrReady hart 5 [8] ∧ (csrState hart 5).me.vec.rRun = false ∧
    (let s := vec (fun v => { v with rRun := true }) hart
     CsrReady s 5 [8] ∧ (csrState s 5).me.vec.rRun = true) ∧
    csrOk hart.me 0x41 = false ∧ csrOk sup.me 0x800 = false ∧ csrOk hart.me 0x7FF = false := by
  refine ⟨?_, ?_, ?_, ?_, ?_, ?_, ⟨?_, ?_⟩, ?_⟩ <;> (try unfold CsrReady Clean) <;> decide +kernel

/-- Writes of special registers that are taken, and one that traps. -/
theorem witness_special_register_writes :
    (∀ n ∈ [2, 3, 4, 5, 6], okE (storeCsr (csrState hart n) n 0xFFFFFFFFFFFFFFFD true) = true) ∧
    (∀ n ∈ [0x40, 0x41, 0x42, 0x43], okE (storeCsr sup n 0xFFFFFFFFFFFFFFFF true) = true) ∧ isHart sup.me = true ∧
    okE (storeCsr (csrState hart 0) 0 0x16000000 true) = false ∧ okE (storeCsr (csrState hart 0) 0 0x15000001 true) = true := by
  decide +kernel

/-- Traps: from U mode, from S mode, a page fault, the report of a run, on a control core; `xret` in each of its cases. -/
theorem witness_traps :
    let h : HartId := ⟨0, 0, 0⟩
    let r : Trap := { cause := cPfault, xval := 0#64, async := false, runrep := true, access := 0 }
    (hart.me.id = .hart h ∧ hart.me.mode = .u ∧ (Trap.sync cIllegal 0#64).cause ≠ cPfault ∧ r.runrep = true ∧ hart.me.pc.toNat % 4 = 0) ∧
    (core0.me.id = .cc 0 ∧ core0.me.pc.toNat % 4 = 0) ∧
    ((Trap.sync cPfault 0#64).cause < 256 ∧ (Trap.sync cPfault 0#64).cause = cPfault ∧ (Trap.sync cPfault 0#64).runrep = false ∧
      (Trap.sync 255 0#64).cause < 256 ∧ sup.me.id = .hart h ∧ sup.me.mode = .s) ∧
    (hart.me.mode = .u ∧ (with_ (fun a => { a with mode := .s, pm := 3 })).me.pm = 3#2 ∧ sup.me.mode.code < Mode.m.code ∧
      sup.me.pm = 0#2 ∧ Mode.u.code ≤ sup.me.mode.code ∧ sup.me.status ≠ .idle) := by decide +kernel

/-- An `xret` that ends the last OVERRUN handler of a task ends the task and leaves the context idle. -/
theorem witness_xret_ends_task :
    let s := { ran with me := { ran.me with mode := .s, xcause := 15, xasync := true } }
    s.me.mode ≠ .u ∧ Mode.u.code ≤ s.me.mode.code ∧ isHart s.me = true ∧
    (isHart s.me && s.me.xcause == 15#8 && s.me.xasync) = true ∧ (endOverrun s).me.status = .idle := by decide +kernel

/-- `wait`, the fences, `ifence` and `tlbinv`. -/
theorem witness_wait_and_fences :
    let s := gs [(8, 0x30000), (9, 0x04000000), (10, 1)] hart
    let run := vec (fun v => { v with rRun := true }) hart
    let e : TlbEntry := { unit := .scalar (.hart ⟨0, 0, 0⟩), asid := 0, level := 1, path := 0, entry := 0x20001 }
    let t := { sup with tlb := [e] }
    (Clean s [8, 9] ∧ (getG s.me 8).toNat % 8 = 0 ∧ resolveScalar s .read (getG s.me 8).toNat = .ok (.mem 0x30000) ∧
      BitVec.ofNat 64 (readLoc s (.mem 0x30000) 8) = getG s.me 9 ∧ BitVec.ofNat 64 (readLoc s (.mem 0x30000) 8) ≠ getG s.me 10) ∧
    (hart.me.vec.rRun = false ∧ hart.me.vec.rPend = false ∧ isHart run.me = true ∧ run.me.vec.rRun = true ∧ isHart core0.me = false) ∧
    (.fenceVs 0 ∈ [Instr.fenceVs 0, .fenceVv 0, .fenceAll 0]) ∧
    resolveScalar (setPc s 0x30000) .fetch 0x30000 = .ok (.mem 0x30000) ∧
    (hart.me.mode = .u ∧ t.me.mode ≠ .u ∧ Clean t [8, 9]) ∧ e ∈ t.tlb := by
  unfold Clean; decide +kernel

/-- `hexit`, `setvl` and `setvli`. -/
theorem witness_hexit_and_setvl :
    let h : HartId := ⟨0, 0, 0⟩
    let g := gs [(9, 5000)] hart
    (hart.me.id = .hart h ∧ hart.me.vec.rRun = false ∧ hart.me.vec.rPend = false ∧ hart.me.task = none) ∧
    (vec (fun v => { v with rRun := true }) hart).me.vec.rRun = true ∧ core0.me.id = .cc 0 ∧
    ((22 : Fin 32).val ≥ 22 ∧ (21 : Fin 32).val < 22 ∧ Clean g [9] ∧ g.me.vec.rPend = false) := by
  unfold Clean; decide +kernel

/-- Grants that keep the lanes, that halve them and that double them, the whole core the last; and a hart with save rows, its state in
them or lanes of it taken, with the first and the last byte of a row and those beside it. -/
theorem witness_grants :
    let at_ (l n : BitVec 8) : State := with_ (fun a => { a with lanes := l, nlanes := n })
    let rows : State := with_ (fun a => { a with saveRows := [6143], inRows := true })
    let cut : State := with_ (fun a => { a with saveRows := [6143], lanes := 4, nlanes := 2, reclaimed := true })
    (at_ 2 2).me.lanes.toNat = (at_ 2 2).me.nlanes.toNat ∧ (at_ 2 1).me.lanes.toNat ≠ (at_ 2 1).me.nlanes.toNat ∧
    (at_ 64 128).me.nlanes.toNat = 128 ∧ hart.me.inRows = false ∧ hart.me.reclaimed = false ∧
    (rows.me.inRows = true ∧ rows.me.reclaimed = false ∧ cut.me.reclaimed = true ∧ Memory.wf rows.mem = true) ∧
    (let k := tileKey 0 + 6143 * 8192
     inRowsOf (hartCore ⟨0, 0, 0⟩) rows.me.saveRows k = true ∧ inRowsOf (hartCore ⟨0, 0, 0⟩) rows.me.saveRows (k + 8191) = true ∧
     inRowsOf (hartCore ⟨0, 0, 0⟩) rows.me.saveRows (k - 1) = false ∧ inRowsOf (hartCore ⟨0, 0, 0⟩) rows.me.saveRows (k + 8192) = false) := by
  decide +kernel

/-- Barriers: a hart that waits and has been released, one that still waits, another tag, the last to arrive, one before it. -/
theorem witness_barriers :
    let h : HartId := ⟨0, 0, 0⟩
    let g : Gang := { core := 0, row := 0, rows := 0, gbar := { gen := 5, tag := 7, arr := 1, live := 2 }, pool := [] }
    let e := { entry0 with gangs := [g], tbar := { gen := 5, tag := 0, arr := 0, live := 1 } }
    let s := gs [(8, 7), (9, 8)] { ran with entries := [e] }
    (s.me.id = .hart h ∧ myTask s = some e ∧ gangOf e h.core.val = some g ∧ s.me.vec.rRun = false ∧ s.me.vec.rPend = false ∧
      Clean s [8, 9]) ∧
    (s.me.gwait = none ∧ g.gbar.arr ≠ 0#11 ∧ BitVec.ofNat 16 (getG s.me 9).toNat ≠ g.gbar.tag ∧
      BitVec.ofNat 16 (getG s.me 8).toNat = g.gbar.tag ∧ g.gbar.arr + 1#11 = g.gbar.live ∧ g.gbar.live ≠ 0#11 ∧
      s.me.twait = none ∧ e.tbar.arr = 0#11 ∧ e.tbar.arr + 1#11 = e.tbar.live) ∧
    ({ g.gbar with live := 3 } : Barrier).arr + 1#11 ≠ ({ g.gbar with live := 3 } : Barrier).live ∧
    ({ s with me := { s.me with gwait := some 5, garr := true } }).me.gwait = some 5 := by
  unfold Clean; decide +kernel

/-- `enq`, `qstat` and `depdec`: a queue of another tenancy, past the last, disabled, in ring mode, with a slot free; an entry
whose counter is above 1, 1 and 0. -/
theorem witness_queue_instructions :
    let q : Queue := { Queue.reset with en := true }
    let s := gs [(8, 0x40000), (9, 3), (10, 4096), (11, 4)] { hart with
      queues := [(3, q), (4, { q with asid := 1 }), (5, { q with ring := true })], aspaces := tset 1 { ASpace.reset with ten := 1 } hart.aspaces }
    Clean s [8, 9] ∧ (getG s.me 10).toNat = 4096 ∧ queueOpen s 3 = true ∧ queueOpen s 4 = false ∧ queueOpen s 0 = true ∧
    (getG (gs [(8, 0x40020)] s).me 8).toNat % 64 ≠ 0 ∧ (getG s.me 8).toNat % 64 = 0 ∧
    readScalarWords s 0x40000 8 = .ok (List.replicate 8 0#64) ∧
    readScalarWords s 0x20000000 8 = .error (flt cPfault 0x20000000 .read) ∧
    (queueOf s 0).en = false ∧ (queueOf s 5).en = true ∧ (queueOf s 5).ring = true ∧
    (queueOf s 3).en = true ∧ (queueOf s 3).ring = false ∧ ringCount (queueOf s 3) = 0 ∧ (queueOf s 3).slots.length < 32 ∧
    (∀ c ∈ [0, 1, 2], let t := { s with entries := [{ entry0 with counter := c, state := .waiting }] }
      queueOpen t 0 = true ∧ entryOf t (entryId 0 0) = some { entry0 with counter := c, state := .waiting }) := by
  unfold Clean; decide +kernel

/-- The vector image instructions: in U mode, at a misaligned address, at an aligned one. -/
theorem witness_vector_image :
    let h : HartId := ⟨0, 0, 0⟩
    let s := gs [(8, 0x100020), (9, 0x100000)] sup
    hart.me.id = .hart h ∧ hart.me.mode = .u ∧ s.me.id = .hart h ∧ s.me.mode = .s ∧ s.me.vec.rRun = false ∧ s.me.vec.rPend = false ∧
    Clean s [8, 9] ∧ (getG s.me 8).toNat % 64 ≠ 0 ∧ (getG s.me 9).toNat % 64 = 0 := by unfold Clean; decide +kernel

/-! Vector words. -/

/-- A legal word of each form (inline, or in a chain block for the forms that stand only there). -/
def sample : VOp → VWord
  | .vabs | .vneg | .vnot | .vmv | .vclz | .vpopc | .vcompress | .vexpand | .vfirst | .vconflict => node8 1 8 0 0 0 2 0 0
  | .vmacc => node8 1 8 16 24 0 2 0 0
  | .vfadd | .vfsub | .vfmul | .vfdiv | .vfmin | .vfmax | .vfsgnj | .vfsgnjn | .vfsgnjx | .vcun => node8 1 8 16 0 0 9 0 0
  | .vfsqrt | .vfabs | .vfneg | .vfclass | .vexp2 | .vlog2 | .vrcp | .vrsqrt | .vtanh | .vsigm => node8 1 8 0 0 0 9 0 0
  | .vfma | .vfms | .vfnma | .vfnms => node8 1 8 16 24 0 9 0 0
  | .mand | .mor | .mxor | .mandn => node8 1 16 24 0 0 0 0 0
  | .mnot | .mmv => node8 1 16 0 0 0 0 0 0
  | .mset | .mclr | .vaccz => node8 1 0 0 0 0 0 0 0
  | .vcvt => node8 6 16 9 0 0 12 5 0
  | .vpack => node8 1 16 9 0 0 17 0 0
  | .vunpack => node8 1 16 17 0 0 9 0 0
  | .vsget | .vsput => node8 1 8 0 0 0 17 0 0
  | .vshup | .vshdn | .vextr | .vinsrt => node8 1 8 64 0 0 2 0 1
  | .vjoinup | .vjoindn => node8 1 8 64 24 0 2 0 1
  | .vrgatherX1 | .vrgatherX2 | .vrgatherX4 | .vrgatherX8 => node8 1 64 16 0 0 2 0 0
  | .vpcnt => node8 1 8 0 0 0 2 0 0
  | .vpcntInc => node8 1 8 0 8 0 2 0 0
  | .vsscanAdd => node8 1 8 16 0 0 2 0 0
  | .vsscanMin => node8 1 8 16 8 0 2 0 0
  | .vsscanMax => node8 1 8 16 16 0 2 0 0
  | .vsscanAnd => node8 1 8 16 24 0 2 0 0
  | .vsscanOr => node8 1 8 16 32 0 2 0 0
  | .vsscanXor => node8 1 8 16 40 0 2 0 0
  | .vld | .vldff | .vst | .vcompressSt => node8 1 128 0 0 0 2 0 0
  | .vldSt | .vstSt => node8 1 130 128 0 0 2 0 0
  | .vldIx | .vstIx | .vsrdoAdd | .vsrduAdd | .vsrduMin | .vsrduMax | .vsrduAnd | .vsrduOr | .vsrduXor => node8 1 128 256 0 0 2 0 0
  | .vwload => node8 0 64 0 0 0 20 0 0
  | .vmmaX1 | .vmmaX2 | .vmmaX4 | .vmmaX8 => node8 2 64 64 0 0 20 0 0
  | .vaccrd => node8 6 2 0 40 0 9 0 0
  | .vaccwr => node8 2 8 0 40 0 9 0 0
  | .dmk => node8 16 0x12A 0x003 0x0B0 0 0 0 0
  | .cpy => node8 16 0 0x021 0 0 0 0 0
  | .cpyt | .gsg | .gss => node8 16 0x120 0x021 0 0 0 0 0
  | .winnow => node8 16 0x12A 0x021 0 0 0 0 0
  | .ewait | .estat | .clwait => node8 16 0x100 0 0 0 0 0 0
  | .chain | .run => node8 0 0x100 0 0 0 0 0 0
  | .chwait => node8 16 0 0 0 0 0 0 0
  | .chquit | .stop => node8 0 0 0 0 0 0 0 0
  | .lnkin => node8 32 0 3 0 0 9 0 0
  | .lnkout => node8 0 0x118 1 0 0 9 0 0
  | .delay => node8 33 0x110 0 0 0 9 0 0
  | .ereq => node8 0 0x120 9 0 0 6 0 0
  | .eresp => node8 37 0 9 0 0 9 0 0
  | .clred | .clrsc => node8 16 0x100 0x021 0 0 9 0 0
  | .clbcast | .clagat => node8 16 0x100 0x021 0 0 0 0 0
  | .thdec => node8 2 8 0 0 0 0 0 0
  | .thand | .thor | .thwand | .thscore | .thtopk => node8 2 8 16 0 0 0 0 0
  | .thfuse => node8 2 8 16 24 0 0 0 0
  | _ => node8 1 8 16 0 0 2 0 0

/-- The forms that stand inline. -/
def inlineForms : List VOp :=
  [VOp.vadd, .vsub, .vrsub, .vmul, .vmulh, .vdiv, .vrem, .vand, .vor, .vxor, .vsll, .vsrl, .vsra, .vmin, .vmax, .vsadd,
   .vssub, .vabs, .vneg, .vnot, .vmv, .vsel, .vclz, .vpopc, .vmacc, .vfadd, .vfsub, .vfmul, .vfdiv, .vfsqrt, .vfmin, .vfmax,
   .vfabs, .vfneg, .vfsgnj, .vfsgnjn, .vfsgnjx, .vfclass, .vfma, .vfms, .vfnma, .vfnms, .vceq, .vcne, .vclt, .vcle, .vcgt,
   .vcge, .vcun, .mand, .mor, .mxor, .mandn, .mnot, .mmv, .mset, .mclr, .vcvt, .vpack, .vunpack, .vsget, .vsput, .vexp2,
   .vlog2, .vrcp, .vrsqrt, .vtanh, .vsigm, .vredosum, .vredtsum, .vredmin, .vredmax, .vredand, .vredor, .vredxor, .vshup,
   .vshdn, .vjoinup, .vjoindn, .vrgatherX1, .vrgatherX2, .vrgatherX4, .vrgatherX8, .vcompress, .vexpand, .vpcnt, .vpcntInc,
   .vfirst, .vconflict, .vsscanAdd, .vsscanMin, .vsscanMax, .vsscanAnd, .vsscanOr, .vsscanXor, .vextr, .vinsrt, .vld, .vldSt,
   .vldIx, .vldff, .vst, .vstSt, .vstIx, .vcompressSt, .vwload, .vmmaX1, .vmmaX2, .vmmaX4, .vmmaX8, .vaccrd, .vaccwr, .vaccz,
   .dmk, .cpy, .cpyt, .gsg, .gss, .ewait, .estat, .winnow, .vsrdoAdd, .vsrduAdd, .vsrduMin, .vsrduMax, .vsrduAnd, .vsrduOr,
   .vsrduXor, .chain, .run, .chwait, .chquit, .clred, .clbcast, .clagat, .clrsc, .clwait, .thdec, .thand, .thor, .thwand,
   .thscore, .thfuse, .thtopk]

/-- Every inline form meets `Ready` on the hart. -/
theorem witness_ready : ∀ op ∈ inlineForms, Ready op (sample op) hart ⟨0, 0, 0⟩ := by
  have h : ∀ op ∈ inlineForms, vfate op (sample op) = .ok () := by decide +kernel
  have k : hart.me.id = .hart ⟨0, 0, 0⟩ ∧ hart.me.vec.rRun = false ∧ hart.me.vec.rPend = false ∧ cleanAgent hart.me = true := by
    decide +kernel
  exact fun op ho => ⟨k.1, h op ho, k.2⟩

/-- The words that stand only in a chain block are legal there. -/
theorem witness_chain_only : ∀ op ∈ [VOp.stop, .lnkin, .lnkout, .delay, .ereq, .eresp], vcheck3 .chain (sample op) op = true ∧
    lowestAbsent (vfeatures (sample op) op) = none ∧ vcheck5 .chain (sample op) op = true := by decide +kernel

/-- An access that answers has an answer. -/
theorem ok_of {ε α : Type} {e : Except ε α} (h : okE e = true) : ∃ x, e = .ok x := by
  cases e with
  | ok a => exact ⟨a, rfl⟩
  | error a => cases h

/-- The hart with two i32 elements in force, g8 at the last doubleword of the mapped space and g9 a stride of one. -/
def ends : State := gs [(8, 0x1FFFFFF8), (9, 1)] (vl 2 2 hart)

/-- Loads up to the end of the mapped space complete, by elements, with a stride, with indices, and by blocks. -/
theorem witness_loads : (∀ op ∈ [VOp.vld, .vldSt, .vldIx, .vldff], LoadsOk op (sample op) (switched ends)) ∧
    LoadsOk .vld (node8 1 128 0 0 0 17 0 0) (switched (gs [(8, 0x1FFFFEF0)] (vl 17 32 hart))) := by
  constructor
  · have h : ∀ op ∈ [VOp.vld, .vldSt, .vldIx, .vldff], blkTy (sample op).vt.val = false ∧
        memCheck op (sample op).vt.val (memAt op (sample op) (switched ends)) = none ∧
        arrivalDue op (sample op) (switched ends) (memAt op (sample op) (switched ends))
          (activeOf (switched ends) (sample op) (memBody op (sample op).vt.val (switched ends))) = false ∧
        ∀ k ∈ memBody op (sample op).vt.val (switched ends), activeAt (switched ends) (sample op) k = true →
          okE (elemLoad (switched ends) (memAt op (sample op) (switched ends)) (sample op).vt.val
            (position op (memAt op (sample op) (switched ends)).stride (srcElem (switched ends).me.vec.regs (idxTy (sample op).vt.val)
              (lanesIn (switched ends)) (viFld (sample op))) (idxTy (sample op).vt.val) (fun _ => 0) k)) = true := by decide +kernel
    intro op ho
    obtain ⟨h1, h2, h3, h4⟩ := h op ho
    exact ⟨h2, h3, fun hb => (Bool.false_ne_true (h1.symm.trans hb)).elim, fun _ k hk ha => ok_of (h4 k hk ha)⟩
  · have h : let u := switched (gs [(8, 0x1FFFFEF0)] (vl 17 32 hart))
        let w := node8 1 128 0 0 0 17 0 0
        memCheck .vld 17 (memAt .vld w u) = none ∧ arrivalDue .vld w u (memAt .vld w u) (activeOf u w (memBody .vld 17 u)) = false ∧
        ∀ j ∈ (memBody .vld 17 u).map (· / 32), okE (blockLoad u (memAt .vld w u) 17 j (activeIn u w j)) = true := by decide +kernel
    exact ⟨h.1, h.2.1, fun _ j hj _ => ok_of (h.2.2 j hj), fun hb => (Bool.false_ne_true hb.symm).elim⟩

/-- Stores and scatter-reduces up to the end of the mapped space complete. -/
theorem witness_stores :
    (∀ op ∈ [VOp.vst, .vstSt, .vstIx, .vcompressSt], memCheck op 2 (memAt op (sample op) (switched ends)) = none ∧
      (storeWrites op (sample op) (switched ends)).2 = none) ∧
    (∀ op ∈ [VOp.vsrdoAdd, .vsrduAdd, .vsrduMin, .vsrduMax, .vsrduAnd, .vsrduOr, .vsrduXor],
      memCheck op 2 (memAt op (sample op) (switched ends)) = none ∧ (srdUpdates op (sample op) (switched ends)).2 = none) ∧
    Memory.wf (switched ends).mem = true ∧ (storeWrites .vst (sample .vst) (switched ends)).1.length = 2 := by decide +kernel

/-- The element loop and the reductions: all lanes, one lane block, a body of the whole capacity and an empty one. -/
theorem witness_element_loop :
    (let s := with_ (fun a => { a with lanes := 128 })
     lanesIn s ≤ 128 ∧ 16 < 17 ∧ cap 16 (lanesIn s) ≤ cap 16 (lanesIn s)) ∧ lanesIn hart ≤ 128 ∧
    evlOf (switched hart) 2 = 0 ∧ evlOf (switched ends) 2 = 2 ∧ activeAt ends (sample .vadd) 1 = true ∧
    activeAt ends (node8 1 8 16 0 9 2 0 0) 1 = false ∧ maskZ (node8 1 8 16 0 9 2 0 0) = true := by decide +kernel

/-- Operands of the special functions: infinities, zeros, a negative number and a NaN. -/
theorem witness_special_operands : let F := fmtOf 9
    unpack F 0x7F800000 = .inf false ∧ unpack F 0xFF800000 = .inf true ∧ unpack F 0 = .fin false 0 (-149) ∧
    unpack F 0x80000000 = .fin true 0 (-149) ∧ unpack F 0x80000001 = .fin true 1 (-149) ∧ unpack F 0x7F800001 = .nan true ∧
    unpack F 0x7FC00000 = .nan false ∧ unpack F 0x3F800000 = .fin false (2 ^ 23) (-23) := by decide +kernel

/-- The magnitudes of 1 and of the least subnormal f32, as a significand of 24 bits and an exponent. -/
theorem witness_significands :
    |(FVal.fin false (2 ^ 23) (-23)).q| = ((2 ^ 23 : Int) : ℚ) * 2 ^ ((0 : Int) - 23) ∧
    |(FVal.fin true 1 (-149)).q| = ((2 ^ 23 : Int) : ℚ) * 2 ^ ((-149 : Int) - 23) := by
  constructor <;> norm_num [FVal.q]

/-- Compares of integer and floating types, and tiles and rows at their ends. -/
theorem witness_types : fltTy (sample .vceq).vt.val = false ∧ vfate .vceq (node8 1 8 16 0 0 9 0 0) = .ok () ∧ fltTy 9 = true ∧
    ((7 : Nat) < 8 ∧ (0 : Nat) ≠ (sample .vaccz).vd.val % 8) := by decide +kernel

/-! Engines, collectives, Thresher, chains. -/

/-- A matrix of four columns and three rows of words. -/
def srcDesc0 : Desc := { base := 0x100000, dir := 0, space := 0, esz := 4, dims := [(4, 1), (3, 4)] }
/-- The descriptor image of the transposing copy of spec/12_atomics_engines.md, and a bad one (its space is 3). -/
def desc0 : List Nat := [0x100000, 0xA, 0x100000004, 0x400000003, 0, 0, 0, 0]
/-- g9 at the image in memory, g10 and g11 its bounds, g12 at an image that is refused. -/
def descs : State := place 0x40000 8 (desc0 ++ [0x100000, 0x6A, 0x100000004, 0x400000003, 0, 0, 0, 0])
  (gs [(9, 0x40000), (10, 0x100000), (11, 0x40), (12, 0x40040), (13, 0x40004), (14, 0x1FFFFFF8)] hart)

/-- `dmk`: a misaligned image, one that is not mapped to its end, one that makes a descriptor, one that is refused. -/
theorem witness_dmk :
    (getG descs.me 13).toNat % 8 ≠ 0 ∧ (getG descs.me 14).toNat % 8 = 0 ∧
    readDwords (switched descs) (vectorCtx (switched descs)) 0x1FFFFFF8 8 = .error (flt cPfault 0x20000000 .read) ∧
    readDwords (switched descs) (vectorCtx (switched descs)) 0x40000 8 = .ok (desc0.map (BitVec.ofNat 64)) ∧
    dmkCode (vec8 (desc0.map (BitVec.ofNat 64))) 0x100000 0x40 = 0 ∧
    okE (readDwords (switched descs) (vectorCtx (switched descs)) 0x40040 8) = true ∧
    dmkCode (vec8 [0x100000, 0x6A, 0x100000004, 0x400000003, 0, 0, 0, 0]) 0x100000 0x40 = 4 := by decide +kernel

/-- Images of descriptors, each failing one condition more than the one before it, and the bounds that just hold the footprint. -/
theorem witness_descriptor_codes :
    let im (w1 : Nat) (b sz st : Nat) : List Word := [BitVec.ofNat 64 b, BitVec.ofNat 64 w1, BitVec.ofNat 64 (st * 2 ^ 32 + sz), 0, 0, 0, 0, 0]
    let code (l : List Word) := madeCode l (descOf (vec8 l))
    (∀ l ∈ [im 6 0 1 1, desc0.map (BitVec.ofNat 64)], l.length = 8 ∧ (descOf (vec8 l)).base = wordOf l 0 % 2 ^ 55) ∧
    code (im 0x7A 1 0 1) 0 0 = 1 ∧ code (im 2 1 0 1) 0 0 = 1 ∧ code (im 0x66 1 0 1) 0 0 = 2 ∧ code (im 0x66 1 4 1) 0 0 = 3 ∧
    code (im 0x66 4 4 1) 0 0 = 4 ∧ code (im 6 4 4 1) 4 0 = 5 ∧ code (im 6 4 4 1) 4 15 = 5 ∧ code (im 6 4 4 1) 4 16 = 0 ∧
    code (im 6 4 4 1) 5 16 = 5 ∧ code (im 6 12 4 0xFFFFFFFF) 0 16 = 0 ∧ code (im 6 8 4 0xFFFFFFFF) 0 16 = 5 ∧
    boundsOf (descOf (vec8 (im 6 12 4 0xFFFFFFFF))) = (0, 15) ∧ linearOf [3, 2] srcDesc0.dims = 11 ∧ srcDesc0.offset 11 = 0x10002C := by
  decide +kernel

/-- A command of the hart with a ticket in a phase. -/
def cmd (t : Nat) (p : CmdPhase) (code : Nat) : Command :=
  { newCommand hart ⟨0, 0, 0⟩ .cpy none none 0 0 none t with phase := p, code := code }
/-- The hart with commands up to ticket 16. -/
def many (p : CmdPhase) (code : Nat) : State :=
  { vec (fun v => { v with tickets := 16 }) hart with cmds := [cmd 1 p code, cmd 16 .running 2] }

/-- Issue with a ticket free and with the sixteenth still outstanding; tickets that are outstanding, final, 0, to come, past. -/
theorem witness_issue : let h : HartId := ⟨0, 0, 0⟩
    issueFull (switched (many .running 2)) h = true ∧ issueFull (switched (many .final 0)) h = false ∧
    (ticketStatus (switched (many .final 0)) h 16).toNat % 256 = 2 ∧ (ticketStatus (switched (many .final 0)) h 1).toNat % 256 = 0 ∧
    (many .final 0).me.vec.tickets < 17 ∧ (0 + 16 ≤ (many .final 0).me.vec.tickets) ∧
    ticketStatus (switched (many .final 0)) h 17 = 12#64 ∧
    (∀ n ∈ [1, 16], ∃ c ∈ (many .final 0).cmds, c.owner = h ∧ c.ticket = n ∧ ∀ x ∈ (many .final 0).cmds, x.owner = h → x.ticket = n → x = c) ∧
    statusOf { cmd 1 .final 10 with form := .gss, written := 2 ^ 32 } = 0xFFFFFFFF0000010A := by decide +kernel

/-- A collective of the hart, in a group of two members, this one rank 0. -/
def coll0 (t code : Nat) : Coll where
  owner := ⟨0, 0, 0⟩
  ten := 0
  past := false
  ticket := t
  task := none
  form := 0
  ty := 9
  rm := 0
  op := 0
  mode := .u
  group := 7
  cseq := 0
  rank := 0
  root := 0
  seed := 0
  timeout := 1000
  members := [{ station := 5, port := 0 }, { station := 6, port := 1 }]
  dst := none
  src := none
  local_ := []
  peers := [{ rank := 1, got := [], used := 0, credit := 0, sent := 0, resent := [], probing := false }]
  code := code
  chunks := 0
  flags := 0
  stall := none
  paused := false
/-- The hart with some collectives. -/
def colls (l : List Coll) : State := gs [(8, 0x40000), (9, 0x40020), (10, 0x20000000)] { vec (fun v => { v with clTickets := 4 }) hart with colls := l }

/-- Collectives: a misaligned image, one not mapped, one read, with three and with four outstanding; tickets that `clwait` waits
for, completes with, and does not hold. -/
theorem witness_collectives : let h : HartId := ⟨0, 0, 0⟩
    let four := colls [coll0 1 2, coll0 2 2, coll0 3 2, coll0 4 2]
    let three := colls [coll0 1 0, coll0 2 2, coll0 3 2, coll0 4 2]
    (getG four.me 9).toNat % 64 ≠ 0 ∧ (getG four.me 8).toNat % 64 = 0 ∧ (getG four.me 10).toNat % 64 = 0 ∧
    readDwords (switched four) (vectorCtx (switched four)) 0x20000000 8 = .error (flt cPfault 0x20000000 .read) ∧
    readDwords (switched four) (vectorCtx (switched four)) 0x40000 8 = .ok (List.replicate 8 0#64) ∧
    4 ≤ ((switched four).colls.filter (fun c => c.owner == h && c.code == 2)).length ∧
    ((switched three).colls.filter (fun c => c.owner == h && c.code == 2)).length < 4 ∧ (switched three).early = [] ∧
    collTicket (switched three) h 1 = some (coll0 1 0) ∧ collTicket (switched three) h 4 = some (coll0 4 2) ∧
    collTicket (switched three) h 5 = none ∧ three.me.vec.clTickets < 5 := by decide +kernel

/-- Group images at the ends of their ranges and past them; shapes; a source and a destination that meet and that do not; the codes of
`clred` of each, where the table can be read. -/
theorem witness_refused_collectives :
    let img (m k : Nat) : List Word := [BitVec.ofNat 64 (m * 2 ^ 32 + 7), BitVec.ofNat 64 (k * 2 ^ 32), 0, 0x40100, 1000, 0, 0, 0]
    let good (l : List Word) : Bool := @decide (GroupImage l) (by unfold GroupImage; dsimp only; infer_instance)
    let shape (f t o : Nat) (d s : Desc) : Bool := @decide (GroupShape f t o 2 d s) (by unfold GroupShape; dsimp only; infer_instance)
    let d (b n : Nat) : Desc := { base := b, dir := 0, space := 0, esz := 4, dims := [(n, 1)] }
    good (img 2 1) = true ∧ good (img 65536 65535) = true ∧ good (img 1 0) = false ∧ good (img 65537 0) = false ∧ good (img 2 2) = false ∧
    shape 0 9 2 (d 0 4) (d 0 4) = true ∧ shape 0 9 3 (d 0 4) (d 0 4) = false ∧ shape 0 2 5 (d 0 4) (d 0 4) = true ∧
    shape 0 2 6 (d 0 4) (d 0 4) = false ∧ shape 3 9 0 (d 0 2) (d 0 4) = true ∧ shape 2 0 0 (d 0 4) (d 0 2) = true ∧ shape 1 0 0 (d 0 4) (d 0 2) = false ∧
    meet (spanOf (d 0 4)) (spanOf (d 12 4)) = true ∧ meet (spanOf (d 0 4)) (spanOf (d 16 4)) = false := by decide +kernel
/-- An issue with no descriptor made ends with BADDESC, or BADGROUP where its group has one member (spec/15_links_collectives.md R350). -/
theorem test_refused_collective :
    let s (m : Nat) : State := place 0x40000 8 [m * 2 ^ 32 + 7, 0, 0, 0x40040, 1000, 0, 0, 0, 5, 6] (gs [(8, 0x40000)] hart)
    let codes (o : Host.Outcome State Fault Refusal) : List Nat := match o with
      | .next t => t.colls.map (fun c => c.code)
      | _ => []
    codes (exec (.clred (sample .clred)) (s 2)) = [5] ∧ codes (exec (.clred (sample .clred)) (s 1)) = [13] := by decide +kernel

/-- A posting block of 128 documents, single, at 0x40000, twice as a list of references; and one that a read of it faults. -/
def wide2 : State := place 0x40000 8 [0x7F00000000, 0x00010000000000FF] (vl 7 2 (elems 7 1 [0x8000000000040000, 0x8000000000040000] hart))

/-- Thresher forms: data that traps, output beyond the capacity, output that fits. -/
theorem witness_thresher :
    let L := lanesIn hart
    let r (s : State) := thValue .thdec (switched s) (thAt (switched s)) (fun _ => 0) ((List.range (evlOf (switched s) 7)).map
      (elemAt (switched s).me.vec.regs 7 L 1)) []
    okE (r (vl 7 1 (elems 7 1 [0x8000000002000000] hart))) = false ∧
    (match r wide2 with | .ok (out, _, _) => decide (cap 7 L < out.length) | .error _ => false) = true ∧
    (match r (vl 7 1 wide2) with | .ok (out, _, _) => decide (out.length = cap 7 L) | .error _ => false) = true := by decide +kernel

/-- The block of spec/13_chains.md at 0x40000. -/
def block0 : List Nat := [0x3004, 0x00024000C9808000, 0x00024000C984A000, 0x84024010C28A002C, 0x00024000CA88C000, 0xE1000000]
/-- A hart of entry 0 with g8 at the block, g9 misplaced and g10 at a header that is refused. -/
def chainer : State := place 0x40000 8 block0 (gs [(8, 0x40000), (9, 0x40004), (10, 0x50000)] (vl 9 256 ran))
/-- The same with the chain installed and 1,001 elements to do. -/
def chained : State := match readChain chainer ⟨0, 0, 0⟩ 0x40000 with
  | .ok (x, words, nodes, lo) => gs [(8, 1001), (9, 0), (10, 0x20000000000)] (install chainer ⟨0, 0, 0⟩ 0x40000 x words nodes lo)
  | .error _ => chainer
/-- The installed chain. -/
def chain0 : Chain := chained.me.vec.chain.getD { cid := 0, infl := 0, sgran := 0, words := [], nodes := [], rowLo := 0, rows := 0, damaged := false }

/-- `chain`, `run` and `chquit`: a misplaced block, one that is refused, one that is installed; no chain, a failed run, a length
that is refused, none, and one that starts. -/
theorem witness_chains : let h : HartId := ⟨0, 0, 0⟩
    (getG chainer.me 9).toNat % 8 ≠ 0 ∧ (getG chainer.me 8).toNat % 8 = 0 ∧ okE (readChain (switched chainer) h 0x50000) = false ∧
    okE (readChain (switched chainer) h 0x40000) = true ∧ chainer.me.vec.chain = none ∧ chained.me.vec.chain = some chain0 ∧
    chain0.nodes.length = 4 ∧ chained.me.vec.rFail = false ∧
    (vec (fun v => { v with rFail := true }) chained).me.vec.rFail = true ∧
    startCheck chained.me.vec (lanesIn chained) chain0 0x20000000000 = some (5, 0) ∧
    startCheck chained.me.vec (lanesIn chained) chain0 0 = none ∧ startCheck chained.me.vec (lanesIn chained) chain0 1001 = none := by
  decide +kernel

/-- The hart 0 of core 0 of die 0. -/
def h0 : HartId := ⟨0, 0, 0⟩
/-- A block breaks no condition of R283 when no node of it does, it has a source, and there are rows for it. -/
theorem unbroken {s : State} {nodes : List Node} {lo : Nat} (hs : ∃ n ∈ nodes, classOfNode n = .source)
    (hn : ∀ j < nodes.length, ∀ c < 10, (nodes[j]?.all (fun n => !nodeBreach s h0 nodes (nodes.take j) n c)) = true)
    (hf : FreeRows s h0 (rowsFor nodes) lo) (code i : Nat) : ¬ Breach s h0 nodes 0xE1000000#64 code i := by
  rintro (⟨-, ⟨rfl, h⟩ | ⟨rfl, h⟩ | ⟨rfl, h⟩⟩ | ⟨j, n, rfl, hj, h⟩)
  · exact h rfl
  · exact hs.elim fun n hn => h n hn.1 hn.2
  · exact h lo hf
  · by_cases hc : code < 10
    · simpa [hj, h] using hn j (List.getElem?_eq_some_iff.1 hj).1 code hc
    · unfold nodeBreach at h
      split at h <;> first | exact absurd h (by decide) | omega
/-- Breaches of the first code, of one in the middle and of the last; a block without one, its rows the highest that are free; and which
start checks runs fail. -/
theorem witness_breaches :
    let s := switched chainer
    let ld : Node := (.vld, node8 32 0x40 0 0 0 9 0 0)
    let st : Node := (.vst, node8 32 0x40 0 0 0 9 0 0)
    let v := chained.me.vec
    let starts (g : Nat) (f : VecState → VecState) (n : Nat) := startFails (f v) 1 { chain0 with sgran := g } n
    Breach s h0 [ld] 0 2 0 ∧ Breach s h0 [st, ld] 0xE1000000 6 1 ∧ (∀ c < 6, ∀ n ∈ [st, ld], nodeBreach s h0 [st, ld] [] n c = false) ∧
    HeaderKept 0x3004 ∧ ¬ HeaderKept 0x3041 ∧ (∀ code i, ¬ Breach s h0 chain0.nodes 0xE1000000 code i) ∧
    FreeRows s h0 (rowsFor chain0.nodes) 243 ∧ ¬ FreeRows s h0 (rowsFor chain0.nodes) 244 ∧
    starts 0 id (2 ^ 41) = some (5, 0) ∧ starts 9 id 1 = some (6, 0) ∧ starts 9 id 0 = none ∧
    starts 0 (fun v => { v with vlLen := 8193 }) 1 = some (6, 1) ∧ starts 0 (fun v => { v with vlLen := 8192 }) 1 = none := by
  have hg : hartGang (switched chainer) (switched chainer).me.task 0 = some
      { core := 0, row := 0, rows := 256, gbar := Barrier.new 1, pool := [] } := by decide +kernel
  have hf : FreeRows (switched chainer) h0 (rowsFor chain0.nodes) 243 := ⟨_, hg, by decide +kernel, by decide +kernel, by decide +kernel⟩
  refine ⟨.inl ⟨rfl, .inl ⟨rfl, by decide⟩⟩, .inr ⟨0, _, rfl, rfl, by decide +kernel⟩, by decide +kernel, by unfold HeaderKept; decide,
    by unfold HeaderKept; decide, unbroken (by decide +kernel) (by decide +kernel) hf, hf, ?_, by decide +kernel, by decide +kernel,
    by decide +kernel, by decide +kernel, by decide +kernel⟩
  rintro ⟨g, h, -, h2, -⟩
  obtain rfl := Option.some.inj (hg.symm.trans h)
  exact absurd h2 (by decide +kernel)
/-- A hart with a block of a header and some nodes at 0x40000, and the word after them. -/
noncomputable def blockOf (header last : Nat) (nodes : List Instr) : State :=
  place 0x40000 8 ([header] ++ nodes.map encode ++ [last]) (gs [(8, 0x40000)] (vl 9 256 ran))
/-- What each code of R283 is reported with, in the order of its table; and a scalar word in a block (spec/02_encoding.md R50). -/
theorem test_chfetch :
    let ld (q : Fin 64) : Instr := .vld (node8 q 0x40 0 0 0 9 0 0)
    let st (t : Fin 32) : Instr := .vst (node8 32 0x40 0 0 0 t 0 0)
    let rq : Instr := .ereq (node8 0 0x100 9 0 0 6 0 0)
    let b (l : List Instr) : State := blockOf l.length 0xE1000000 l
    let refusal (s : State) := tOut (exec (.chain (sample .chain)) s)
    refusal (blockOf 0 0xE1000000 []) = some (9, 0x001) ∧ refusal (blockOf 1 0 [ld 32]) = some (9, 0x002) ∧
    refusal (b [ld 1, st 9]) = some (9, 0x103) ∧ refusal (b [ld 32, ld 32, st 9]) = some (9, 0x204) ∧
    refusal (b [ld 32, st 7]) = some (9, 0x205) ∧ refusal (b [st 9, ld 32]) = some (9, 0x106) ∧
    refusal (b [.vaccz (node8 1 0 0 0 0 0 0 0)]) = some (9, 0x007) ∧ refusal (b [ld 32, rq, rq]) = some (9, 0x308) ∧
    refusal (b [ld 32, .lnkout (node8 0 0x100 0 0 0 9 0 0)]) = some (9, 0x209) ∧
    refusal { b [ld 32, st 9] with entries := [{ entry0 with gangs := entry0.gangs.map (fun g => { g with rows := 1 }) }] } = some (9, 0x00A) ∧
    refusal (blockOf 1 0xE1000000 [.add 1 2 3]) = some (1, BitVec.ofNat 64 (encode (.add 1 2 3))) ∧
    refusal { blockOf 1 0xE1000000 [.add 1 2 3] with
      mem := Memory.write (blockOf 1 0xE1000000 [.add 1 2 3]).mem 0x4000C 0x5A } =
      some (1, BitVec.ofNat 64 (encode (.add 1 2 3))) := by decide +kernel

/-! Events. -/

/-- What a state is after an instruction that answers a next one. -/
def after (o : Host.Outcome State Fault Refusal) (s : State) : State := match o with
  | .next t => t
  | _ => s
/-- A run of one element, in g8, on an installed chain; g4 is the address its first load takes. -/
noncomputable def running (x : Word) : State := after (exec (.run (sample .run)) (gs [(8, 1), (4, x)] (vl 9 1 chained))) chained
/-- The same run, broken. -/
noncomputable def brokenRun (x : Word) : State := vec (fun v => { v with run := v.run.map (fun r => { r with broken := true }) }) (running x)
/-- A packet of one f32. -/
def packet0 : Packet := { units := [0x3F800000], width := 32, eos := true }
/-- The hart's chain sends east, and that of a hart of the next core receives from the west; one packet stands ready. -/
def linked : State :=
  let c (n : VOp × VWord) : Chain := { cid := 0, infl := 0, sgran := 0, words := [], nodes := [n], rowLo := 0, rows := 0, damaged := false }
  let m : Agent := Agent.fresh (.hart ⟨0, 1, 0⟩)
  { vec (fun v => { v with chain := some (c (.lnkout, node8 0 0x118 1 0 0 9 0 0)) }) hart with
    others := [{ m with vec := { m.vec with chain := some (c (.lnkin, node8 32 0 3 0 0 9 0 0)) } }]
    links := [(linkKey 0 1, { out := [packet0], inn := [] })] }

/-- Runs: a strip that commits spatially and temporally, one that stalls on a page that is not there, one that fails on an address
that does not exist, a run to break and one to re-form, a packet to move. -/
theorem witness_runs :
    (match stripOf (running 0) h0 with
      | some e => e.r.broken == false && (firstStop (evalStrip e).2).isNone
      | none => false) = true ∧
    (match stripOf (brokenRun 0) h0 with
      | some e => e.r.broken && (firstStop (evalStrip e).2).isNone && spatialOk (brokenRun 0) h0 e.r.lanes e.ch.nodes
      | none => false) = true ∧
    (match stripOf (running 0x20000000) h0 with
      | some e => (match firstStop (evalStrip e).2 with
        | some (some f) => f.stall
        | _ => false)
      | none => false) = true ∧
    (match stripOf (running 0x80000000000000) h0 with
      | some e => (match firstStop (evalStrip e).2 with
        | some (some f) => !f.stall
        | _ => false)
      | none => false) = true ∧
    (hartOf (running 0) h0).vec.rRun = true ∧ ((hartOf (running 0) h0).vec.run.map (fun r => r.broken)) = some false ∧
    neighbour (hartCore h0) (1 : Fin 4).val = some 1 ∧ (tget Link.reset (linkKey (hartCore h0) 1) linked.links).out = [packet0] ∧
    (tget Link.reset (linkKey (hartCore h0) 1) linked.links).inn = [] ∧
    (linkReader linked 1 (opposite 1) (hartOf linked h0).ten).isSome = true ∧
    ((hartOf linked h0).vec.chain.map (fun ch => ch.nodes.any (fun n => n.1 = .lnkout && linkDir n.2 == 1))) = some true ∧
    flits packet0 ≤ 64 := by decide +kernel

/-- A form as a node that reads queue 0, masked by m1, and writes queue 1. -/
def nodeOn (op : VOp) : VWord := { sample op with vd := 33, f1 := 256, vm := 1 }
/-- The load of i32 elements into queue 0. -/
def loadNode : VWord := node8 32 0x40 0 0 0 2 0 0
/-- The first strip of a run of three elements at x, of positions 0 and 2 in m1, whose block loads queue 0 and goes on with a node. -/
noncomputable def stripWith (x : Word) (n : Node) : Option StripEnv :=
  (stripOf (running x) h0).map (fun e => { e with
    ch := { e.ch with nodes := [(.vld, loadNode), n] }
    r := { e.r with n := 3, size := 3, nodes := [.start, .start], masks := e.r.masks.set 1 5, streams := [] } })

/-- Nodes: every form stands in a block, with no register poisoned; a load with nothing in its way, and what each position gives; a load
from a page that is not there. -/
theorem witness_strip_nodes :
    (∀ op ∈ arithmeticForms, vcheck3 .chain (nodeOn op) op = true ∧ lowestAbsent (vfeatures (nodeOn op) op) = none ∧
      vcheck5 .chain (nodeOn op) op = true) ∧
    (vcheck3 .chain loadNode .vld = true ∧ lowestAbsent (vfeatures loadNode .vld) = none ∧ vcheck5 .chain loadNode .vld = true ∧
      blkTy loadNode.vt.val = false) ∧
    (stripWith 0x40000 (.vnot, nodeOn .vnot)).any (fun e => e.r.bad.isEmpty && e.len == 3 && e.last &&
      memCheck .vld 2 (portAt e .vld loadNode) == none && (reserveFault e).isNone &&
      (evalStrip e).2.map (fun o => (o.outs, o.next.used, o.fault.isNone)) ==
        [([0x3004, 0, 0xC9808000], 3, true), ([0xFFFFCFFB, 0, 0x367F7FFF], 3, true)]) = true ∧
    (stripWith 0x20000000 (.vnot, nodeOn .vnot)).any (fun e => (reserveFault e).isNone &&
      ((evalStrip e).2.map (fun o => o.fault.map (fun f => (f.cause, f.stall))))[0]? == some (some (cPfault, true))) = true := by
  decide +kernel

/-- R293, R294: an engine-0 `eresp` whose `ereq` has made no request ends with it, in the run's last strip, and so does its queue. -/
theorem test_eresp_ends :
    (stripWith 0x40000 (.vnot, nodeOn .vnot)).any (fun e =>
      let e' := { e with
        ch := { e.ch with nodes := [(.ereq, node8 0 0x100 0 0 0 6 0 0), (.eresp, node8 33 0 0 0 0 2 0 0)] }
        r := { e.r with streams := [(0, { units := [], ended := true })] } }
      (evalStrip e').2.all (fun o => o.ended && o.fault.isNone) && (streamOf (evalStrip e').1 1).ended) = true := by decide +kernel

/-- A ring-mode queue of address space 0 at 0x50000, of four slots, and an on-chip queue with the example entry. -/
def queues0 : State :=
  { place 0x50000 8 [2, 0] hart with
    queues := [(0, { Queue.reset with en := true, slots := [{ seq := 0, words := image0, ring := none, lost := false }] }),
      (1, { Queue.reset with en := true, ring := true, rbase := 0x50000, log2 := 2, widx := 1, ridx := 1, nextSeq := 1 }),
      (2, { Queue.reset with en := true, ring := true, rbase := 0x20000000, log2 := 2 })]
    shares := [(0, { share := 0x1000000, maxCores := 40, maxLanes := 5120, maxRows := 245760 })] }

/-- Polls: an index that moved, one that did not, one past the ring, one that cannot be read; a delivery; a retry. -/
theorem witness_queue_events :
    let s := queues0
    let v := queueOf s 1
    v.en = true ∧ v.ring = true ∧ v.stall = none ∧ v.due ≤ s.kclock ∧
    readIn s (queueCtx s 1) v.rbase.toNat 8 = .ok 2 ∧ v.widx ≤ 2 ∧ 2 ≤ v.ridx + ringSize v ∧
    (let t := place 0x50000 8 [6] s; readIn t (queueCtx t 1) (queueOf t 1).rbase.toNat 8 = .ok 6 ∧ (queueOf t 1).ridx + ringSize (queueOf t 1) < 6) ∧
    (let t := place 0x50000 8 [1] s; readIn t (queueCtx t 1) (queueOf t 1).rbase.toNat 8 = .ok 1) ∧
    (queueOf s 2).en = true ∧ (queueOf s 2).due ≤ s.kclock ∧
    readIn s (queueCtx s 2) (queueOf s 2).rbase.toNat 8 = .error (flt cPfault 0x20000000 .read) := by decide +kernel

/-- A delivery that is admitted, and a decrement to retry. -/
theorem witness_delivery :
    let s := queues0
    let x : Slot := { seq := 0, words := image0, ring := none, lost := false }
    let u := applyPending (refill 0 32 { putQueue { s with rotation := tset 0 0 s.rotation } 0 { queueOf s 0 with slots := [] } with delivered := 1 })
      0 (newEntry s 0 x)
    s.bootstat = 4#8 ∧ (admitted s 0).length < 4096 ∧ nextQueue s 0 = some 0 ∧ (queueOf s 0).slots = [x] ∧
    (queueOf s 0).ends.contains x.seq = false ∧ rejectCode u.1 u.2 (decide (0 < (queueOf s 0).doomed)) (decide (0 < (queueOf s 0).dropped)) x.lost = none ∧
    (let e := { entry0 with retry := true, state := .done }
     let t := { hart with entries := [e] }
     t.entries.find? (fun y => y.id = e.id && y.retry) = some e ∧ (decrementSuccessor t e).2 = false) := by decide +kernel

/-- Density: the worked entry alone takes a density of 2,236,963; a share of just that admits it, one less rejects it with code 1; and a
check that comes before decides. -/
theorem test_density :
    let e := newEntry queues0 0 { seq := 0, words := image0, ring := none, lost := false }
    let with_ (n : Nat) : State := { queues0 with shares := [(0, { (shareOf queues0 0 0) with share := BitVec.ofNat _ n })] }
    let code (n : Nat) := rejectCode (with_ n) e false false false
    density image0 = 2236963 ∧ code 2236963 = none ∧ code 2236962 = some 1 ∧
    rejectCode (with_ 2236962) { e with words := e.words.set 5 0 } false false false = some 5 ∧
    rejectCode (with_ 2236962) { e with words := e.words.set 5 0 } false true false = some 6 := by decide +kernel

/-- R371: a ring that its header says holds an entry, polled or not, makes a WRITE of another ring base BUSY; an empty one does not. -/
theorem test_queue_busy :
    let q (widx : Nat) : State := { place 0x50000 8 [widx, 0] hart with
      queues := [(1, { Queue.reset with en := true, ring := true, rbase := 0x50000, log2 := 6, widx := 1, ridx := 1, nextSeq := 1 })]
      aspaces := [(0, { aspOf hart 0 with valid := true })] }
    let code (widx : Nat) := (writeQueue (q widx) 1 (#v[0xC000000000000000, 0x60000, 6, 0, 0, 0, 0, 0])).2
    code 2 = stBusy ∧ code 1 = stOk := by decide +kernel

/-- A decrement that is still BUSY: the successor is not delivered, and holds 32 pending decrements. -/
theorem witness_decrement_busy :
    let x : Slot := { seq := 0, words := image0, ring := none, lost := false }
    let e := { entry0 with id := entryId 1 5, retry := true, state := .done }
    let t := { hart with entries := [e], queues := [(0, { Queue.reset with en := true, nextSeq := 1, slots := [x], pending := List.replicate 32 0 })] }
    t.entries.find? (fun y => y.id = e.id && y.retry) = some e ∧ (decrementSuccessor t e).2 = true := by decide +kernel

/-- The hart's task, changed. -/
def task (f : Entry → Entry) : State := { ran with entries := [f entry0] }
/-- The hart's task with its one hart gone. -/
def gone : State := { task id with me := { ran.me with status := .idle } }

/-- Tasks: an empty pass, one that starts an entry and one that resumes it, a hart to stop, lanes to reclaim, a task that is done. -/
theorem witness_tasks :
    let e := entryId 0 0
    let r := { queues0 with entries := [{ entry0 with state := .ready, gangs := [] }] }
    let p := { task (fun x => { x with state := .preempted }) with me := { ran.me with stopped := true }, shares := queues0.shares }
    let w := { ran with me := { ran.me with lanes := 8 } }
    (hart.drain = [] ∧ passOrder hart 0 = []) ∧
    (r.drain = [] ∧ passOrder r 0 = [e] ∧ ((entryOf r e).bind (fits r [])).isSome = true) ∧
    (p.drain = [] ∧ passOrder p 0 = [e] ∧ ((entryOf p e).bind (fits p [])).isSome = true) ∧
    (let s := task (fun x => { x with state := .preempted })
     (hartOf s h0).task = some e ∧ ((entryOf s e).map (fun x => x.state)) = some .preempted ∧ (hartOf s h0).stopped = false ∧
       (hartOf s h0).status ≠ .idle) ∧
    ((hartOf w h0).nlanes.toNat < (hartOf w h0).lanes.toNat ∧ (hartOf w h0).reclaimed = false ∧ holdsLanes w (hartOf w h0) = true) ∧
    (entryOf gone e = some entry0 ∧ entry0.state = .running ∧ liveHarts gone e = []) := by decide +kernel

/-- Budgets, deadlines and watchdogs: an extended task, one with no live hart, one with a hart to take the trap; a pending `OVERRUN`; a
deadline that passes, with and without the end it may ask for; a watchdog at its limit. -/
theorem witness_budgets :
    let e := entryId 0 0
    let x := { entry0 with left := 0 }
    let o := { task (fun x => { x with target := some h0, exhausted := true }) with me := { ran.me with overrun := true } }
    (entryOf (task (fun x => { x with left := 0, ext := true })) e = some { x with ext := true }) ∧
    (entryOf (task (fun x => { x with left := 0 })) e = some x ∧ x.exhausted = false ∧ x.state = .running ∧ x.ext = false ∧
      overrunTarget (task (fun x => { x with left := 0 })) x = some h0 ∧ overrunTarget { gone with entries := [x] } x = none) ∧
    ((hartOf (task id) h0).task = some e ∧ (hartOf (task id) h0).status ≠ .idle) ∧
    (((entryOf o e).map (fun x => x.target)) = some (some h0) ∧ (hartOf o h0).overrun = true ∧ (hartOf o h0).mode = .u ∧
      (hartOf o h0).status = .running ∧ (hartOf o h0).stopped = false ∧ (hartOf o h0).halted = false) ∧
    (entryOf { task id with kclock := 1500000 } e = some entry0 ∧ entry0.deadline ≤ 1500000 ∧ entry0.missed = false ∧
      bit entry0.words[0] 50 = false ∧ bit (entry0.words.set 0 0x4000000000000)[0] 50 = true) ∧
    ((entryOf (task (fun x => { x with watched := 6000000 })) e).map (fun x => decide (x.watch ≤ x.watched))) = some true := by
  decide +kernel

/-- The two descriptors of the transposing copy of spec/12_atomics_engines.md. -/
def srcDesc : Desc := { base := 0x100000, dir := 0, space := 0, esz := 4, dims := [(4, 1), (3, 4)] }
/-- The destination. -/
def dstDesc : Desc := { base := 0x100030, dir := 0, space := 0, esz := 4, dims := [(3, 1), (4, 3)] }
/-- The copy, in a phase, from a source. -/
def transpose (p : CmdPhase) (s : Desc) : Command :=
  { newCommand hart h0 .cpyt (some dstDesc) (some s) 0x4681 0 none 1 with phase := p }
/-- A hart with that command, and the matrix in memory. -/
def copying (c : Command) : State :=
  { place 0x100000 4 [0, 1, 2, 3, 16, 17, 18, 19, 32, 33, 34, 35] (vec (fun v => { v with tickets := 1 }) hart) with cmds := [c] }

/-- The transposing copy ends with the words that the manual gives. -/
theorem test_transpose : mOut (exec (.commandEnd h0 1) (copying (transpose .running srcDesc))) 0x100030 4 12 =
    some [0, 16, 32, 1, 17, 33, 2, 18, 34, 3, 19, 35] := by decide +kernel

/-- Commands: one to accept, one to refuse, one that ends, one that ends between checkpoints, one that pauses, one that stalls;
one of each form that moves all that it has to, and a `winnow` whose counts, or whose total, are too large. -/
theorem witness_commands :
    let c := transpose .running srcDesc
    let d := transpose .issued srcDesc
    let bad := transpose .running { srcDesc with base := 0x20000000 }
    let long : Desc := { srcDesc with dims := [(128, 1)] }
    let big := { newCommand hart h0 .cpy (some { long with base := 0x200000 }) (some long) 0 0 none 1 with phase := .running }
    (commandOf (copying d) h0 1 = some d ∧ d.phase = .issued ∧ taskPaused (copying d) h0 d.task = false ∧ refuseCode d = none ∧
      refuseCode { d with dst := some { dstDesc with base := 0x100020 } } = some 3) ∧
    (goesOn (copying c) c = true ∧ (advance (copying c) c false).code = some 0 ∧ (advance (copying c) c true).fault = none ∧
      (advance (copying c) c true).code = some 0) ∧
    ((advance (copying big) big true).fault = none ∧ (advance (copying big) big true).code = none ∧ big.phase = .running) ∧
    (goesOn (copying bad) bad = true ∧ (advance (copying bad) bad false).fault = some (flt cPfault 0x20000000 .read)) ∧
    (refuseCode c = none ∧ c.next ≤ elementsOf c dstDesc srcDesc []) := by decide +kernel

/-- A command of a form on the twelve numbers at 0x100000 as four segments of three, with its indices or counts at 0x41000. -/
def counted (f : CmdForm) (n : Nat) : Command :=
  let dst : Desc := { base := 0x110000, dir := 0, space := 0, esz := 4, dims := [(n, 1)] }
  { newCommand hart h0 f (some dst) (some { srcDesc with dims := [(3, 1), (4, 3)] }) 0x41000 0x42000 none 1 with phase := .running }

theorem witness_command_moves :
    let s (c : Command) (l : List Nat) : State := place 0x41000 4 l (copying c)
    let src := { srcDesc with dims := [(3, 1), (4, 3)] }
    (let c := counted .cpy 12
     refuseCode c = none ∧ c.next ≤ elementsOf c { dstDesc with base := 0x110000, dims := [(12, 1)] } src [] ∧
       (advance (copying c) c false).code = some 0) ∧
    (∀ f ∈ [CmdForm.gsg, .gss], ∀ x ∈ [(11, 0), (12, 1)],
      let c := counted f 12
      refuseCode c = none ∧ (advance (s c [0, 1, 2, 3, 4, 5, 6, 7, 8, 9, 10, x.1]) (counted f 12) false).code = some x.2) ∧
    (let c := counted .winnow 12
     goesOn (s c [3, 0, 1, 2]) c = true ∧ refuseCode c = none ∧ c.counts = none ∧ segments src = 4 ∧
       (∀ g < 4, readIn (s c [3, 0, 1, 2]) (cmdCtx (s c [3, 0, 1, 2]) c) (c.ga.toNat + 4 * g) 4 = .ok ([3, 0, 1, 2].getD g 0)) ∧
       (advance (s c [3, 0, 1, 2]) c false).code = some 0 ∧ c.next ≤ [3, 0, 1, 2].sum ∧
       [3, 0, 1, 4].any (fun x => decide (src.count / max 1 (segments src) < x)) = true ∧
       [3, 0, 1, 2].any (fun x => decide (src.count / max 1 (segments src) < x)) = false ∧ 5 < [3, 0, 1, 2].sum) := by decide +kernel
/-- Commands that each check of R267 refuses, in their order; a permutation that names a place twice; a copy that meets a page fault and
one that reads poison, each after three elements; one that comes to 256 bytes with its sixty-fourth element, and a byte copy that has
none yet with its 255th. -/
theorem witness_command_checks :
    let d (b n : Nat) : Desc := { base := b, dir := 0, space := 0, esz := 4, dims := [(n, 1)] }
    let c (f : CmdForm) (x y : Option Desc) (ga gb : Word) : Command := newCommand hart h0 f x y ga gb none 1
    refusedWith (c .cpy none (some (d 0 4)) 0 0) = some 5 ∧ refusedWith (c .cpy (some { d 0 4 with space := 2 }) (some (d 0 5)) 0 0) = some 5 ∧
    refusedWith (c .cpy (some (d 0 4)) (some (d 0 5)) 0 0) = some 4 ∧ refusedWith (c .cpy (some (d 0 4)) (some (d 12 4)) 0 0) = some 3 ∧
    refusedWith (c .cpy (some (d 0 4)) (some (d 16 4)) 0 0) = none ∧ refusedWith (transpose .issued srcDesc) = none ∧
    refusedWith { transpose .issued srcDesc with ga := 0x4680 } = some 4 ∧ refusedWith { transpose .issued srcDesc with ga := 1 } = some 4 ∧
    refusedWith (c .gsg (some (d 0 4)) (some (d 16 4)) 0x42 0) = some 8 ∧ refusedWith (c .gsg (some (d 0 4)) (some (d 16 4)) 12 0) = some 3 ∧
    refusedWith (c .gsg (some (d 0 4)) (some (d 16 4)) 16 0) = none ∧ refusedWith (c .winnow (some (d 0 4)) (some (d 16 4)) 0 4) = some 8 ∧
    refusedWith (c .winnow (some (d 0 4)) (some (d 16 4)) 32 8) = some 3 ∧ refusedWith (c .winnow (some (d 0 4)) (some (d 16 4)) 32 40) = none ∧
    StallsCommand (flt cPfault 0 .read) ∧ ¬ StallsCommand (flt cProt 0 .read) ∧ StallsCommand { flt cProt 0 .read with perm := true } ∧
    (256 % 256 = 0 ∧ (0 + 64) * 4 % 256 = 0 ∧ ∀ j < 64, 0 < j → (0 + j) * 4 % 256 ≠ 0) := by unfold StallsCommand; decide +kernel
/-- A command that stands at element 0 has moved none, whatever it is to move; it meets a page fault there or a poisoned line. -/
theorem witness_command_faults :
    let src : Desc := { base := 0x1FFFFFFC, dir := 0, space := 0, esz := 4, dims := [(2, 1)] }
    let dst : Desc := { base := 0x110000, dir := 0, space := 0, esz := 4, dims := [(2, 1)] }
    let c : Command := { newCommand hart h0 .cpy (some dst) (some src) 0 0 none 1 with phase := .running, next := 1 }
    let bad : State := { copying { c with next := 0 } with poison := [0x1FFFFFFC / 64] }
    refusedWith c = none ∧ goesOn (copying c) c = true ∧ c.next + 0 < elementsOf c dst src [] ∧
    Moved (copying c) c dst src [] 0 (copying c) ∧ ElementFaults c dst src [] (1 + 0) (copying c) (flt cPfault 0x20000000 .read) ∧
    ElementFaults { c with next := 0 } dst src [] 0 bad (flt cPoison 0x1FFFFFFC .read) := by
  refine ⟨by decide +kernel, by decide +kernel, by decide +kernel,
    ⟨by decide +kernel, fun h => absurd h (by decide), fun _ => _, rfl, fun j hj => absurd hj (Nat.not_lt_zero j), rfl⟩,
    Or.inl (by decide +kernel), Or.inl (by decide +kernel)⟩
/-- A copy that reads poison ends with POISON and writes no element; one of 65 words pauses after 64 (R276, R277). -/
theorem test_command_faults :
    let src : Desc := { base := 0x100000, dir := 0, space := 0, esz := 4, dims := [(65, 1)] }
    let dst : Desc := { base := 0x110000, dir := 0, space := 0, esz := 4, dims := [(65, 1)] }
    let c : Command := { newCommand hart h0 .cpy (some dst) (some src) 0 0 none 1 with phase := .running }
    let out (o : Host.Outcome State Fault Refusal) : Option (Nat × Nat) := match o with
      | .next t => (commandOf t h0 1).map (fun x => (x.code, x.next))
      | _ => none
    out (exec (.commandEnd h0 1) { copying c with poison := [0x100000 / 64] }) = some (7, 0) ∧
    out (exec (.checkpointPause h0 1) (copying c)) = some (2, 64) := by decide +kernel
/-- A frame of the collective, of a kind from rank 1, for a chunk. -/
def frame0 (kind chunk code : Nat) (payload : List Byte) : Frame :=
  { ver := 1, kind := kind, ty := 9, form := 0, rm := 0, op := 0, last := true, group := 7, cseq := 0, src := 1, dst := 0, chunk := chunk,
    code := code, payload := payload }
/-- The collective on two f32 elements. -/
def two0 : Coll :=
  let d : Desc := { base := 0x100000, dir := 0, space := 0, esz := 4, dims := [(2, 1)] }
  { coll0 1 2 with dst := some { d with base := 0x110000 }, src := some d, local_ := leBytes 8 0x3F8000003F800000 }
/-- A hart with that collective, its group registered. -/
def grouped (c : Coll) : State := { hart with colls := [c], groups := [(0, { valid := true, ten := 0, group := 7 })] }
/-- The collective with both pieces exchanged. -/
def done0 : Coll := { two0 with peers := [{ rank := 1, got := [(0, leBytes 8 0x4000000040000000)], used := 1, credit := 1, sent := 1, resent := [], probing := true }] }

/-- The frames of a collective: data to take and a chunk out of range, of a wrong length and of a wrong header; a credit; an abort with
code 15 and another; a probe; a reply; frames that come before their collective has been issued, and one held that it then takes. -/
theorem witness_frames :
    let s := grouped two0
    let p8 := leBytes 8 0
    let f := frame0 0 0 0 p8
    let e := { hart with groups := s.groups }
    let w := { s with early := [(0, frame0 2 0 15 [])] }
    frameColl s 0 f = some two0 ∧ two0.past = false ∧ two0.code = 2 ∧ headerOk two0 f = true ∧ f.chunk < chunksOf two0 ∧ f.payload.length = chunkLen two0 f.chunk ∧
    (two0.peers.find? (fun x => x.rank == f.src)).isSome = true ∧ (two0.peers.all (fun q => !q.got.any (fun g => g.1 == 0))) = true ∧
    (let c := { two0 with src := two0.src.map (fun d => { d with dims := [(70000, 4)] }) }
     ∀ k ∈ [63, 64], let g := frame0 0 k 0 (List.replicate 4096 0)
       frameColl (grouped c) 0 g = some c ∧ headerOk c g = true ∧ k < chunksOf c ∧ g.payload.length = chunkLen c k ∧
       c.peers.all (fun q => q.used == 0 && q.rank == 1 && q.got == []) = true) ∧
    frameColl s 0 (frame0 0 1 0 p8) = some two0 ∧ chunksOf two0 ≤ (frame0 0 1 0 p8).chunk ∧
    (frame0 0 0 0 []).payload.length ≠ chunkLen two0 0 ∧ headerOk two0 { f with ty := 8 } = false ∧
    frameColl s 1 (frame0 1 1 0 []) = some two0 ∧ frameColl s 2 (frame0 2 0 15 []) = some two0 ∧
    frameColl s 2 (frame0 2 0 11 []) = some two0 ∧ frameColl s 3 (frame0 3 0 0 []) = some two0 ∧ frameColl s 4 (frame0 4 0 0 []) = some two0 ∧
    (∀ x ∈ [frame0 2 0 15 [], f], frameColl e x.kind x = none ∧
      (e.groups.find? (fun g => g.2.valid && g.2.group.toNat == x.group)).isSome = true ∧ e.early.contains (0, x) = false ∧ x.ver = 1) ∧
    (collOf w h0 1 = some two0 ∧ w.early = [(two0.ten.toNat, frame0 2 0 15 [])] ∧ (frame0 2 0 15 []).group = two0.group ∧
      (frame0 2 0 15 []).cseq = two0.cseq ∧ (frame0 2 0 15 []).dst = two0.rank ∧ (frame0 2 0 11 []).dst = two0.rank) := by
  decide +kernel

/-- Collectives: a chunk sent but not credited, seven and eight times sent again; a silent peer, one probed; one ready to end; one at a
checkpoint of its task and one that sends. -/
theorem witness_collective_events :
    let s := grouped done0
    let c := { done0 with peers := [{ rank := 1, got := [], used := 0, credit := 0, sent := 1, resent := List.replicate 7 0, probing := false }] }
    let a := { two0 with task := some (entryId 0 0) }
    let ps := { task (fun x => { x with state := .preempted }) with colls := [a] }
    collOf s h0 1 = some done0 ∧ (grouped c).colls.find? (fun x => x.owner == h0 && x.ticket == 1 && owes x 1 0) = some c ∧
    (let c := { c with peers := c.peers.map (fun p => { p with resent := 0 :: p.resent }) }
     owes c 1 0 = false) ∧ owes { c with code := 0 } 1 0 = true ∧
    (c.code = 2 ∧ (c.peers.find? (fun x => x.rank == 1)).map (fun p => (p.credit, p.sent, (p.resent.filter (· == 0)).length)) = some (0, 1, 7)) ∧
    (1 < c.members.length ∧ 1 ≠ c.rank ∧ c.peers.any (fun p => p.rank == 1 && p.probing) = false) ∧
    (done0.code = 2 ∧ done0.peers.any (fun p => p.rank == 1 && p.probing) = true ∧ done0.stall = none ∧ taskPaused s h0 done0.task = false ∧
      collReady done0 = true ∧ pieceBytes done0 = 8 ∧ chunksOf done0 = 1 ∧ okE (writeElems s done0 { base := 0x110000, dir := 0, space := 0, esz := 4, dims := [(2, 1)] } 0 (collResult done0).1) = true) ∧
    (collOf ps h0 1 = some a ∧ a.code = 2 ∧ taskPaused ps h0 a.task = true) ∧
    (let w := { two0 with peers := two0.peers.map (fun p => { p with got := [(0, leBytes 8 0)] }) }
     (w.peers.find? (fun x => x.got.any (fun g => g.1 == x.used))).isSome = true ∧ taskPaused (grouped w) h0 w.task = false ∧
      w.stall = none ∧ w.code = 2 ∧ collReady w = false) ∧
    (sends two0 = true ∧ pieceBytes two0 ≤ two0.local_.length ∧ two0.peers.all (fun x => !x.got.any (fun g => g.1 == x.used)) = true ∧
      (two0.peers.find? (fun x => decide (x.sent < min (chunksOf two0) (x.credit + 64)))).isSome = true) := by decide +kernel

/-- A port with a receive ring and a transmit ring of two slots, at most one free. -/
def ported (rx tx : List Nat) : State :=
  place 0x60000 8 rx (place 0x70000 8 tx { hart with ports := [(0, { Port.reset with rxbase := 0x60000, txbase := 0x70000, rxlog2 := 1, txlog2 := 1 })] })
/-- Port 0 as it reads. -/
def port0 (rx tx : List Nat) : Port := portOf (ported rx tx) 0

/-- Ports: the shortest and the longest frame; a ring with a slot free, one full, none; frames to send of the shortest and longest
length, and outside; a priority; reads and writes of the window at its ends, refused, and not allowed. -/
theorem witness_ports :
    let s := ported [1, 0] [1, 0, 0, 0, 0, 0, 0, 0, 14]
    let f := List.replicate 60 (0 : Byte)
    (etherType f ≠ 0x88B5 ∧ etherType f ≠ 0x8808 ∧ f.length = 60 ∧ (portOf s 0).rxlog2 ≠ 0#5 ∧
      ¬ 2 ^ (portOf s 0).rxlog2.toNat ≤ (phys64 s 0x60000 + 2 ^ 64 - phys64 s 0x60008) % 2 ^ 64) ∧
    2 ^ (port0 [2, 0] []).rxlog2.toNat ≤ (phys64 (ported [2, 0] []) 0x60000 + 2 ^ 64 - phys64 (ported [2, 0] []) 0x60008) % 2 ^ 64 ∧
    (portOf hart 0).rxlog2 = 0#5 ∧
    ((portOf s 0).txlog2 ≠ 0#5 ∧ phys64 s 0x70000 ≠ phys64 s 0x70008 ∧ (portOf s 0).paused = false ∧ phys64 s 0x70040 = 14) ∧
    phys64 (ported [] [1, 0, 0, 0, 0, 0, 0, 0, 13]) 0x70040 < 14 ∧ 9216 < phys64 (ported [] [1, 0, 0, 0, 0, 0, 0, 0, 9217]) 0x70040 ∧
    phys64 (ported [] [1, 0, 0, 0, 0, 0, 0, 0, 9216]) 0x70040 = 9216 ∧ (portOf s 0).prio.toNat = (0 : Fin 8).val ∧
    (windowRead hart 0 1).isSome = true ∧ windowRead hart 0x018 1 = none ∧ (windowRead hart 0xFF8 1).isSome = true := by decide +kernel

/-- The management port's frames: the allowed and refused lengths and places. -/
theorem witness_management :
    let boot : State := { State.reset with bootstat := 1 }
    (0 % 8 = 0 ∧ 1024 % 8 = 0 ∧ 1024 ≤ 1024 ∧ 0x400 + 1024 ≤ 4096) ∧ (windowRead core0 0x400 128).isSome = true ∧
    portMayWrite hart 0x300 8 = false ∧ portMayWrite boot 0x300 8 = true ∧ (windowWrite boot 0x300 (dwordsOf 1 (leBytes 8 0))).isSome = true ∧
    portMayWrite hart 0x400 1024 = true ∧ (windowWrite hart 0x400 (dwordsOf 1 (leBytes 8 0))).isSome = true := by decide +kernel

/-- SPDM requests by each route, supported and not. -/
theorem witness_spdm :
    let r : SpdmReq := { via := .port 3, code := 0x84, param := 0, bytes := [0x12, 0x84, 0, 0] }
    let m := { hart with mailbox := { owner := 2, length := 0x3F0, bytes := [(0, 0x12)] } }
    let q : SpdmReq := { r with via := .mailbox, bytes := 0x12 :: List.replicate 0x3EF 0 }
    (r.code = 0x84 ∧ r.via = .port 3 ∧ hart.mailbox.owner ≠ 2#2) ∧ ({ r with code := 0x85 } : SpdmReq).code ∉ [0x84, 0xE1, 0xE3, 0x81, 0x82, 0x83, 0xE0] ∧
    (q.via = .mailbox ∧ m.mailbox.owner = 2#2 ∧ m.mailbox.length.toNat ≤ 0x3F0 ∧
      q.bytes = (List.range m.mailbox.length.toNat).map (fun k => Memory.read m.mailbox.bytes k)) := by decide +kernel

/-- Control core 0 in M mode with a command's operands. -/
def asked (kind : BitVec 4) (d0 : Word) : State :=
  { core0 with me := { core0.me with cc := { core0.me.cc with kind := kind, index := 63, objd := core0.me.cc.objd.set 0 d0 } } }
/-- The same in S mode, with tenancy 63 in its mask. -/
def askedS (kind : BitVec 4) : State :=
  { asked kind 0 with me := { (asked kind 0).me with mode := .s, cc := { (asked kind 0).me.cc with tenmask := 0x8000000000000000 } } }

/-- Commands of a control core: in M and S mode, an answer of each kind, one refused, one denied; tenancies in and out of reset; a
pending interrupt. -/
theorem witness_commands_of_a_control_core :
    (switchTo core0 (.cc 0)).me.mode ≠ .u ∧ (!(switchTo (asked 11 0) (.cc 0)).me.cc.objd[0].getLsbD 0) = true ∧
    (switchTo (asked 11 1) (.cc 0)).me.cc.objd[0].getLsbD 0 = true ∧
    (command (asked 0 0) 1).2.1 ≠ 0 ∧ (asked 0 0).me.cc.kind ≠ 11#4 ∧ denied (askedS 5) 5 0 (askedS 5).me.cc.objd false = true ∧
    (askedS 5).me.mode ≠ .m ∧ (askedS 5).me.cc.kind = 5#4 ∧
    ((askedS 1).me.cc.kind = 1#4 ∧ (askedS 1).me.cc.index.toNat < 64 ∧ (askedS 1).me.cc.tenmask.getLsbD 63 = true) ∧
    (tenOf (command (askedS 1) 3).1 63).rst = true ∧ (tenOf (command (askedS 1) 3).1 63).quiet = false ∧ (tenOf (askedS 1) 63).rst = false ∧
    (let s := { askedS 1 with me := { (askedS 1).me with cc := { (askedS 1).me.cc with fqueue := true } } }
     (switchTo s (.cc 0)).me.cc.fqueue = true ∧ (switchTo s (.cc 0)).me.mode ≠ .m) := by decide +kernel

/-- A hart to halt, a tenancy in reset with a record and an entry of its own, a migration. -/
theorem witness_halt_quiescence_migration :
    let s := { ran with debug := [(debugIndex h0, { DebugObj.reset with halt := true })] }
    let t := { ran with tenancies := [(0, { Tenancy.reset with rst := true })] }
    let m := { hart with migrations := [(7, { Migration.reset with busy := true, src := 1 })] }
    ((debugOf s (debugIndex h0)).halt = true ∧ (hartOf s h0).halted = false ∧ canHalt s (hartOf s h0) = true) ∧
    ((tenOf t (0 : Fin 64).val).rst = true ∧ (tenOf t (0 : Fin 64).val).quiet = false) ∧
    ((migOf m (7 : Fin 8).val).busy = true ∧ isPoisoned m ((migOf m (7 : Fin 8).val).src.toNat * 65536 + 64 * (1023 : Fin 1024).val) = false) := by
  decide +kernel

/-- Errors at the ends of each kind of unit; a run whose copy is whole and one whose copy is poisoned; spares left and used; power
and current at their limits. -/
theorem witness_errors_and_repairs :
    (∀ u ∈ [ErrUnit.hbmLine (hbmEnd / 64 - 1), .tileLine 319 786431, .sdmLine 319 8191, .gReg h0 31, .vGranule h0 31 1023, .mask h0 7,
      .accRow h0 7 7 127, .hbmChannel (hbmEnd / 64 - 1), .link 319 3, .chainStore h0, .ccReg 31 31, .engineStore 7 0, .kilnStore 7], errValid hart u = true) ∧
    (.hbmRow 0 ∈ ({ hart with fenced := [.hbmRow 0] } : State).fenced ∧ 64 * 0 + 64 ≤ hbmEnd) ∧
    .hbmChannel 9 ∈ ({ hart with fenced := [.hbmChannel 9] } : State).fenced ∧ fencedUnit hart (.hbmChannel 9) = some (.hbmChannel 9) ∧
    (let s := running 0
     let k := tileKey 0 + (chain0.rowLo + chain0.rows) * 8192 - 4096
     (hartOf s h0).vec.chain = some chain0 ∧ (hartOf s h0).vec.run.isSome = true ∧ (hartOf s h0).vec.rRun = true ∧
       copyPoisoned s h0 chain0 = false ∧ copyPoisoned { s with poison := [k / 64] } h0 chain0 = true) ∧
    (hart.coresOut.contains 319 = false ∧ sparesUsed hart (dieKey 319) < 2 ∧ 2 ≤ sparesUsed { hart with spares := [(dieKey 319, 2)] } (dieKey 319) ∧
      sparesUsed hart (sheafKey 319 3) = 0) ∧ 1150 ≤ 1150 ∧ (Instr.resetN ∈ [Instr.resetN, .powerSample 0 1151]) := by decide +kernel

/-- Errors: a queue slot; a task's row of tile memory, a row with saved state, and one that is no one's; a link that a chain holds, and one
that none does; the lanes of a hart; a fenced lane of a core in service with a spare lane left and with none, and of one that is out. -/
theorem witness_error_records :
    let lane : SpareUnit := .lane 319 3 31
    let fenced (s : State) : State := { s with fenced := [lane] }
    errValid queues0 (.queueSlot 0 0) = true ∧
    ((ran.entries.find? (fun e => !e.state.final && (gangOf e 0).any (fun g => g.row ≤ 0 && 0 < g.row + g.rows))).isSome ∧
      ({ hart with me := { hart.me with saveRows := [7] } } : State).me.saveRows.contains 7 = true ∧
      hart.entries = [] ∧ (agents hart).all (fun a => a.saveRows.isEmpty) = true) ∧
    (holdsPort linked.me 0 1 = true ∧ (agents linked).all (fun a => !holdsPort a 0 2) = true ∧ neighbour 0 2 = some 8 ∧
      (agents linked).all (fun a => !holdsPort a 8 0) = true) ∧
    0 < (hartOf hart h0).lanes.toNat ∧ (0 % 1 = 0 % 1 ∧ 7 < 8 * 1) ∧
    (lane ∈ (fenced hart).fenced ∧ (fenced hart).coresOut.contains 319 = false ∧ sparesUsed (fenced hart) (sheafKey 319 3) = 0) ∧
    sparesUsed (fenced { hart with spares := [(sheafKey 319 3, 1)] }) (sheafKey 319 3) ≠ 0 ∧
    (fenced { hart with coresOut := [319] }).coresOut.contains 319 = true := by decide +kernel
/-- A word of `vmma` or `vaccrd` with a reserved vt breaks its table (R155, R161); and `vwload` reads no poison of its group (R158). -/
theorem test_matrix_words :
    vfate .vmmaX1 { sample .vmmaX1 with vt := 22 } = .error .illegal ∧ vfate .vaccrd { sample .vaccrd with vt := 22 } = .error .illegal ∧
    (let s := vec (fun v => { v with pv := .replicate 32 (BitVec.allOnes 1024) }) hart
     (after (exec (.vwload (sample .vwload)) s) s).me.pc = hart.me.pc + 8#64) := by decide +kernel
/-- A core that a spare replaces, for a lane with no spare lane left, leaves no fence, and its sheaves have their spare lanes again. -/
theorem test_replaced_core :
    let s : State := { hart with fenced := [.lane 319 3 31, .lane 319 0 2, .core 7], spares := [(sheafKey 319 3, 1)] }
    let t := after (exec (.repair (.lane 319 3 31)) s) s
    t.fenced = [.core 7] ∧ t.spares = [(dieKey 319, 1)] ∧ coreAway t 319 = false := by decide +kernel

/-- What comes before a node word: an illegal word, one of an absent feature, a control core, a run, a failed run. -/
theorem witness_before_a_word :
    let w := sample .vadd
    let f : RunFault := { cause := 5, xval := 9 }
    let s := vec (fun v => { v with rPend := true, rFail := true, runFault := some f }) hart
    vfate .vadd { w with vm := 8 } = .error .illegal ∧ vfate .vadd { w with vt := 22 } = .error (.feature 150) ∧ vfate .vadd w = .ok () ∧
    core0.me.id = .cc 0 ∧ (running 0).me.vec.rRun = true ∧ (s.me.vec.rRun = false ∧ s.me.vec.rPend = true ∧ s.me.vec.runFault = some f) ∧
    ((7 : Reg) ≠ 0 ∧ badG.me.pg.getLsbD (7 : Reg).val = true) := by decide +kernel

/-- Words that are well formed inline and in a chain block, with bytes after them, and bytes that decode. -/
theorem witness_decoding :
    (isEvent (.addi 1 2 3) = false ∧ wellFormedAt .inline (.addi 1 2 3) = true ∧ wellFormedAt .chain (.lnkin (sample .lnkin)) = true) ∧
    decode .inline (leBytes 4 0x04000000 ++ [0xFF]) = .instr (.addi 0 0 0) 4 := by decide +kernel

/-- A step: an instruction where one may be fetched, at the end of a doubleword, a misplaced PC, a page that is not there, a word that is
illegal, one of an absent feature, a 64-bit word at the wrong half, an event of the agenda, a boot that has stopped. -/
theorem witness_step :
    let s := hart
    let at_ (w pc : Nat) : State := setPc (State.reset.withFetchWord 64 w) (BitVec.ofNat 64 pc)
    let bs (s : State) : List Byte := (leBytes 8 (Memory.readLE s.mem 0x30000 8)).drop (s.me.pc.toNat % 8)
    (s.agenda = [] ∧ s.bootstat = 4#8 ∧ s.me.stopped = false ∧ s.me.halted = false ∧ s.me.held = false ∧ s.me.status = .running ∧
      s.me.overrun = false) ∧ (setPc s 0x30002).me.pc.toNat % 4 ≠ 0 ∧
    resolveScalar (setPc s 0x20000000) .fetch 0x20000000 = .error (flt cPfault 0x20000000 .fetch) ∧
    resolveScalar s .fetch 0x30000 = .ok (.mem 0x30000) ∧ s.istore = [] ∧
    decode .inline (bs (at_ 0x0400000060000002 0x30004)) = .instr (.addi 0 0 0) 4 ∧
    decode .inline (bs (at_ 0 0x30000)) = .fate .illegal 0 4 ∧
    decode .inline (bs (at_ 0x00058000C2000000 0x30000)) = .fate (.feature 150) 0x00058000C2000000 8 ∧
    decode .inline (bs (at_ 0xC2000000_00000000 0x30004)) = .short ∧ isEvent .resetN = true ∧
    0x80 ≤ ({ State.reset with bootstat := 0x81 } : State).bootstat.toNat := by decide +kernel

/-- The invariants hold in a state in which a step answers. -/
theorem witness_invariants : MemoryCanonical hart ∧ HartModes hart ∧ (∃ t, step hart = .next t) := by
  refine ⟨?_, ?_, ?_⟩
  · unfold MemoryCanonical
    decide +kernel
  · unfold HartModes
    decide +kernel
  · have h : (match step hart with | .next _ => true | _ => false) = true := by decide +kernel
    revert h
    cases step hart with
    | next t => exact fun _ => ⟨t, rfl⟩
    | fault f => exact fun h => by cases h
    | refused r => exact fun h => by cases h

/-! ### More witnesses, for the clauses of single statements -/

/-- `tlbinv` and `hexit` on a hart whose run is in progress; the vector image instructions there, at a misaligned address, at an
image, and at bytes that name no lanes. -/
theorem witness_waits_for_a_run :
    let s := gs [(8, 0x100020), (9, 0x100000), (10, 0x100040)] (vec (fun v => { v with rRun := true }) (place 0x100000 8 [4] sup))
    s.me.mode = .s ∧ s.me.vec.rRun = true ∧ s.me.vec.rPend = false ∧ Clean s [8, 9, 10] ∧ (getG s.me 8).toNat % 64 ≠ 0 ∧
    (getG s.me 9).toNat % 64 = 0 ∧ imageLanes (vsave s) 0x100000 = .ok 4 ∧ okE (imageLanes (vsave s) 0x100040) = false := by
  unfold Clean; decide +kernel

/-- `hexit` in a task: a hart with a chain, one whose lanes go to the pool, one whose lanes join those of a live hart, one that gives
two blocks to two harts, and the last hart of a task that waits for it. -/
theorem witness_hexit_in_a_task :
    let e := entryId 0 0
    let last := { entry0 with exhausted := true, target := some h0 }
    let other := { Agent.fresh (.hart ⟨0, 0, 1⟩) with task := some e, status := .running, first := 4, lanes := 4, nfirst := 4, nlanes := 4 }
    let two := { chained with others := [other] }
    let b := (0, 4)
    let mate (n : Fin 32) (k : BitVec 7) : Agent :=
      { Agent.fresh (.hart ⟨0, 0, n⟩) with task := some e, status := .running, first := k, lanes := 16, nfirst := k, nlanes := 16 }
    let four := { ran with
      me := { ran.me with first := 48, lanes := 16, nfirst := 0, nlanes := 16 }
      others := [mate 1 32, mate 2 16] }
    (chained.me.id = .hart h0 ∧ chained.me.vec.rRun = false ∧ chained.me.vec.rPend = false ∧ chained.me.task = some e ∧
      entryOf chained e = some entry0 ∧ entry0.exhausted = false ∧ chained.me.vec.chain = some chain0 ∧
      (gangOf entry0 0).isSome = true) ∧
    givenUp chained.me = [b] ∧ takerOf chained e 0 b = none ∧ takerOf two e 0 b = some other ∧
    (givenUp four.me = [(0, 16), (48, 16)] ∧ takerOf four e 0 (0, 16) = some (mate 2 16) ∧ takerOf four e 0 (48, 16) = some (mate 1 32) ∧
      (mate 2 16).id ≠ (mate 1 32).id) ∧
    (entryOf (task (fun _ => last)) e = some last ∧ last.exhausted = true ∧ last.target = some h0 ∧
      ∀ o ∈ (task (fun _ => last)).others, liveIn e o = false) := by decide +kernel

/-- `enq` where no slot is free: a ring with room, one that is full, one that does not translate; `depdec` on an entry that is not
delivered, with room to hold the decrement and without, and on a name of none. -/
theorem witness_queue_spills :
    let full : List Slot := List.replicate 32 { seq := 0, words := image0, ring := none, lost := false }
    let q : Queue := { Queue.reset with en := true, slots := full, rbase := 0x50000, log2 := 2, nextSeq := 1 }
    let s := gs [(8, 0x40000), (9, 3)] { hart with queues := [(3, q), (4, { q with widx := 4 }), (5, { q with rbase := 0x20000000 }),
      (6, { q with pending := List.replicate 32 0 })] }
    let c := queueCtx s 3
    let img := (vec8 (List.replicate 8 0#64)).toList
    ((queueOf s 3).en = true ∧ (queueOf s 3).ring = false ∧ ¬ (ringCount (queueOf s 3) = 0 ∧ (queueOf s 3).slots.length < 32)) ∧
    (ringCount (queueOf s 3) < ringSize (queueOf s 3) ∧ ringSize (queueOf s 4) ≤ ringCount (queueOf s 4)) ∧
    (match writeWordsIn s c (slotVa q 0) img with
      | .ok s1 => okE (writeIn s1 c 0x50000 8 1)
      | .error _ => false) = true ∧
    okE (writeWordsIn s (queueCtx s 5) (slotVa (queueOf s 5) 0) img) = false ∧
    (entryOf s (entryId 3 0) = none ∧ undelivered (queueOf s 3) 0 = true ∧ (queueOf s 3).pending.length < 32) ∧
    (undelivered (queueOf s 6) 0 = true ∧ 32 ≤ (queueOf s 6).pending.length ∧ undelivered (queueOf s 3) 1 = false) ∧
    ((queueOf s 3).slots.find? (fun x => x.seq == 0)).isSome = true := by decide +kernel

/-- A read that is refused at an address. -/
def refusedAt (e : Except Flt Loc) : Bool := !okE e

/-- Loads that meet a fault: at the third element, after two that are read, and at the first; a block. -/
theorem witness_load_stops :
    (let u := switched (gs [(8, 0x1FFFFFF8)] (vl 2 3 hart))
     let w := sample .vldff
     memCheck .vldff 2 (memAt .vldff w u) = none ∧ arrivalDue .vldff w u (memAt .vldff w u) (activeOf u w (memBody .vldff 2 u)) = false ∧
     memSpan .vldff u w = (0, 3) ∧ activeAt u w 2 = true ∧ placeAt u .read (twiceAt .vldff u w 2 / 2) = .error (flt cPfault 0x20000000 .read) ∧
     (∀ j < 2, okE (placeAt u .read (twiceAt .vldff u w j / 2)) = true) ∧ (List.range' 0 2).any (activeAt u w) = true) ∧
    (let u := switched (gs [(8, 0x20000000)] (vl 2 3 hart))
     refusedAt (placeAt u .read (twiceAt .vld u (sample .vld) 0 / 2)) = true ∧ (List.range' 0 0).any (activeAt u (sample .vld)) = false) ∧
    (let u := switched (gs [(8, 0x20000000)] (vl 17 32 hart))
     let w := node8 1 128 0 0 0 17 0 0
     memCheck .vld 17 (memAt .vld w u) = none ∧ blockActive u w 0 = true ∧
       okE (blockLoad u (memAt .vld w u) 17 0 (activeIn u w 0)) = false) := by decide +kernel

/-- Writes of memory: of half a byte, of two bytes, and the two ends of a doubleword. -/
theorem witness_writes : Memory.wf hart.mem = true ∧
    (∀ x ∈ [({ loc := .mem 0x40000, n := 1, mask := 0xF0, val := 0x50 } : MemWr), { loc := .mem 0x40000, n := 2, mask := 0xFFFF, val := 0x1FF },
      { loc := .mem 0x1FFFFFF8, n := 8, mask := 2 ^ 64 - 1, val := 2 ^ 64 - 1 }], x.mask < 2 ^ (8 * x.n) ∧
      ∀ b < 8 * x.n, x.val.testBit b = true → x.mask.testBit b = true) := by decide +kernel

/-- Streams that nothing is wrong with and one with a bad posting; parameters at the ends of their ranges; the one block of a single
reference. -/
theorem witness_streams :
    let A := [0x0000000100000002, 0x0100000300000002, 2 ^ 64 - 1, 0x0000000200000005]
    (∀ e ∈ noFillers A, e / 2 ^ 60 % 16 = 0) ∧ (noFillers A).Pairwise (fun a b => keyIn a ≤ keyIn b) ∧
    (noFillers A).Pairwise (fun a b => docIn a ≤ docIn b) ∧ (∀ e ∈ noFillers A, docIn e ≠ 2 ^ 32 - 1) ∧
    ¬ (∀ e ∈ noFillers [2 ^ 60], e / 2 ^ 60 % 16 = 0) ∧
    ((0 : Nat) % 4 = 0 ∧ (1 : Nat) % 4 ≠ 0 ∧ 2 ^ 23 - 1 < 2 ^ 23 ∧ 1 ≤ 1 ∧ 1024 ≤ 1024 ∧ 1024 < 1025) ∧
    okE (thRead hart (thAt hart) (0x40000 + 4 * 5) 4) = true ∧
    (match readBlock wide2 (thAt wide2) 0x40000 with
      | .ok b => (blockCode b none).isNone && decide (2 ^ 63 ≤ 0x8000000000040000) && decide (0x8000000000040000 / 16 % 2 ^ 51 * 16 = 0x40000) &&
        decide (0x8000000000040000 / 2 ^ 55 % 256 = 0)
      | .error _ => false) = true := by decide +kernel

/-- Strips: one that commits without re-forming, and a run that re-forms; a packet with no room for it and one with room. -/
theorem witness_strips :
    let again := vec (fun v => { v with rTemp := true }) (brokenRun 0)
    let wide : Packet := { packet0 with units := List.replicate 1024 0, eos := false }
    let full := { linked with links := [(linkKey 0 1, { out := [packet0], inn := [wide] })] }
    ((stripOf (running 0) h0).map reForms) = some false ∧ ((stripOf (brokenRun 0) h0).map reForms) = some false ∧
    (match stripOf again h0 with
      | some e => e.r.broken && (hartOf again h0).vec.rTemp && spatialOk again h0 e.r.lanes e.ch.nodes
      | none => false) = true ∧
    (∀ s ∈ [linked, full], (linkReader s 1 (opposite 1) (hartOf s h0).ten).isSome = true) ∧
    (match linkReader linked 1 (opposite 1) (hartOf linked h0).ten with
      | some b => decide (((linkTake 0 [] (linkNeed b (opposite 1))).2.2.map flits).sum + flits packet0 ≤ 64)
      | none => false) = true ∧
    (match linkReader full 1 (opposite 1) (hartOf full h0).ten with
      | some b => let left := linkTake 0 [wide] (linkNeed b (opposite 1))
        left.2.1.isSome && decide (64 < (left.2.2.map flits).sum + flits packet0)
      | none => false) = true := by decide +kernel

/-- The first-order recurrence of spec/07_matrix.md as a run of n elements of x, at 0x100000, to 0x110000; element 0 of v5 is 0.5. -/
noncomputable def recurrence (n : Nat) (x : List Nat) : State :=
  let s := place 0x40000 8 [0x3004, 0x00024000C9808000, 0x80024010C28A102C, 0x00024003E1862000, 0x00024000CA88C000, 0xE1000000]
    (place 0x100000 4 x (elems 9 5 [0x3F000000] (gs [(4, 0x100000), (6, 0x110000), (8, BitVec.ofNat 64 n)] (vl 9 8 ran))))
  let t := match readChain s h0 0x40000 with
    | .ok (x, words, nodes, lo) => install s h0 0x40000 x words nodes lo
    | .error _ => s
  after (exec (.run (sample .run)) t) t
/-- Its first four results (R166). -/
theorem test_recurrence : mOut (exec (.stripCommit h0) (recurrence 4 [0x3F800000, 0x3F800000, 0x3F800000, 0x40000000])) 0x110000 4 4 =
    some [0x3F800000, 0x3FC00000, 0x3FE00000, 0x40380000] := by decide +kernel
/-- A chase of n indices: each loaded word, with zero added, is the index of the next load, and all go to 0x110000. -/
noncomputable def chase (n : Nat) (x : List Nat) : State :=
  let words := [0x3005, encode (.vld (node8 32 80 0 0 0 6 0 0)), encode (.vadd (node8 35 0x100 0x108 0 0 6 0 0)),
    encode (.vldIx (node8 34 72 0x180 0 0 6 0 0)), encode (.delay (node8 33 0x110 0 0 0 6 0 0)), encode (.vst (node8 34 96 0 0 0 6 0 0)),
    0xE1000000]
  let s := place 0x40000 8 words (place 0x100000 4 x
    (gs [(4, 0x100000), (5, 0x120000), (6, 0x110000), (8, BitVec.ofNat 64 n)] (vl 6 8 ran)))
  let t := match readChain s h0 0x40000 with
    | .ok (x, words, nodes, lo) => install s h0 0x40000 x words nodes lo
    | .error _ => s
  after (exec (.run (sample .run)) t) t
/-- A cycle through memory: what it gives, and that a fault inside it stalls the run at its node, with nothing stored (R293, R301). -/
theorem test_cycle_fault :
    mOut (exec (.stripCommit h0) (chase 4 [2, 7, 3, 1])) 0x110000 4 4 = some [2, 3, 1, 7] ∧
    (let s := chase 4 [2, 7, 0x10000000, 1]
     mOut (exec (.stripCommit h0) s) 0x110000 4 4 = some [0, 0, 0, 0] ∧
     (match stripOf s h0 with
       | some e => (firstStop (evalStrip e).2).map (fun f => f.map (fun f => (f.cause, f.stall)))
       | none => none) = some (some (4, true))) := by decide +kernel

/-- A cycle that a stream of two units enters (a compression of four) beside one of four: it ends at the node where the two do not
pair, which reports CHLEN END (R296, R297). -/
theorem test_cycle_end :
    let words := [0x3006, encode (.vld (node8 32 64 0 0 0 6 0 0)), encode (.vcompress (node8 37 0x100 0 0 1 6 0 0)),
      encode (.vadd (node8 34 0x128 0x108 0 0 6 0 0)), encode (.vadd (node8 39 0x110 0x100 0 0 6 0 0)),
      encode (.delay (node8 33 0x138 0 0 0 6 0 0)), encode (.vst (node8 39 96 0 0 0 6 0 0)), 0xE1000000]
    let s := place 0x40000 8 words (gs [(4, 0x100000), (6, 0x110000), (8, 4)] (mask 1 5 (vl 6 8 ran)))
    (match readChain s h0 0x40000 with
      | .ok (x, words, nodes, lo) =>
        let t := install s h0 0x40000 x words nodes lo
        (match stripOf (after (exec (.run (sample .run)) t) t) h0 with
          | some e => (firstStop (evalStrip e).2).map (fun f => f.map (fun f => (f.stall, f.xval)))
          | none => none)
      | .error _ => none) = some (some (false, 0x301)) := by decide +kernel

/-- The queue to poll next, one that is not due before another, and none on a hart without queues. -/
theorem witness_polls : nextPoll queues0 = some 1 ∧ nextPoll { queues0 with scanNext := 2 } = some 2 ∧
    nextPoll { queues0 with scanAt := 1 } = none ∧ nextPoll hart = none := by decide +kernel

/-- Dispatch of the one entry of a die; lanes to reclaim; a task that completes now; one that is not halted and one that is. -/
theorem witness_dispatch :
    let r := { queues0 with entries := [{ entry0 with state := .ready, gangs := [] }] }
    let w := { ran with me := { ran.me with lanes := 8 } }
    (match (entryOf r (entryId 0 0)).bind (fits r []) with
      | some pl => displaced r 0 pl == [] && (match setAside pl r (displaced r 0 pl) with
        | .ok _ => true
        | .error _ => false)
      | none => false) = true ∧
    (hartOf w h0).nfirst.toNat + (hartOf w h0).nlanes.toNat < (hartOf w h0).first.toNat + (hartOf w h0).lanes.toNat ∧
    (hartOf w h0).reclaimed = false ∧ holdsLanes w (hartOf w h0) = true ∧ entry0.skips < 16 ∧
    completeNow gone entry0 = true ∧ completeNow (task id) entry0 = false ∧ entry0.left ≠ 0 ∧
    taskHalted (task id) entry0 = false ∧ taskHalted { task id with me := { ran.me with halted := true } } entry0 = true ∧
    (∀ c ∈ gone.cmds, c.task = some (entryId 0 0) → c.phase = .final) ∧ gone.kclock < entry0.deadline ∧
    completeNow { task id with kclock := 1500000 } entry0 = false := by decide +kernel

/-- Collective frames: a station of the package and one outside it, a port that is held; headers that do not match; a collective that
was refused and one that ended. -/
theorem witness_frames_of_every_kind :
    let s := grouped two0
    let bad (k : Nat) := { frame0 k 1 0 [] with ty := 8 }
    let held : Port := { Port.reset with paused := true }
    portWith { hart with ports := [(3, { Port.reset with station := 5 })] } 5 = some 3 ∧ portWith hart 5 = none ∧ portWith hart 0 = some 0 ∧
    (held.paused = true ∧ framePriority held = held.prio) ∧ Port.reset.paused = false ∧
    (∀ k ∈ [0, 1, 2, 3, 4], frameColl s k (bad k) = some two0 ∧ headerOk two0 (bad k) = false ∧ headerOk two0 (frame0 k 1 0 []) = true) ∧
    two0.code = 2 ∧
    (frameColl (grouped { two0 with code := 13 }) 3 (frame0 3 0 0 [])).map (fun c => c.code) = some 13 ∧
    (∀ k ∈ [1, 3], (frameColl (grouped { two0 with code := 0 }) k (frame0 k 0 0 [])).map (fun c => (c.code, headerOk c (frame0 k 0 0 []))) =
      some (0, true)) := by decide +kernel

/-- Where SPDM stands after each request, and requests of a wrong version, of another slot, of a measurement and of one past the
last. -/
theorem witness_spdm_stages :
    let at_ (n : Nat) : State := { hart with spdm := n }
    let req (code p1 p2 : Nat) : SpdmReq :=
      { via := .port 3, code := code, param := p1, bytes := [0x12, BitVec.ofNat 8 code, BitVec.ofNat 8 p1, BitVec.ofNat 8 p2] }
    (spdmResponse hart (req 0x84 0 0)).1 = 1 ∧ (spdmResponse (at_ 1) (req 0xE1 0 0)).1 = 2 ∧ (spdmResponse (at_ 2) (req 0xE3 0 0)).1 = 3 ∧
    (∀ r ∈ [req 0xE1 0 0, req 0xE3 0 0, req 0x81 0 0, req 0x82 1 0, req 0xE0 0 0, req 0xE0 0 8, req 0xE0 0 10], fieldLE r.bytes 0 1 = 0x12) ∧
    fieldLE [0x10, 0x81, 0, 0] 0 1 ≠ 0x12 ∧ fieldLE (req 0x82 1 0).bytes 2 1 % 16 ≠ 0 ∧ fieldLE (req 0xE0 0 8).bytes 3 1 = (7 : Fin 8).val + 1 ∧
    fieldLE (req 0xE0 0 0).bytes 2 1 % 2 = 0 ∧ (9 < fieldLE (req 0xE0 0 10).bytes 3 1 ∧ fieldLE (req 0xE0 0 10).bytes 3 1 ≠ 0xFF) := by
  decide +kernel

/-- Migrations: a first line, a last one, one that is poisoned, an end, and a turn of the agenda. -/
theorem witness_migrations :
    let m (n : Nat) (ls : List Nat) : State :=
      { hart with migrations := [(7, { Migration.reset with busy := true, src := 1, dst := 2, next := n })], poison := ls }
    (∀ n ∈ [0, 1023], (migOf (m n []) 7).busy = true ∧ (migOf (m n []) 7).next < 1024 ∧ isPoisoned (m n []) (65536 + 64 * n) = false) ∧
    (migOf (m 1024 []) 7).next ≤ 1024 ∧ isPoisoned (m 1 [1025]) (65536 + 64) = true ∧ Memory.wf hart.mem = true ∧
    (migOf (m 0 []) 7).src ≠ (migOf (m 0 []) 7).dst ∧
    ({ m 0 [] with agenda := [.migrateLine 7 true] } : State).agenda = .migrateLine 7 true :: [] := by decide +kernel

/-- Units that an error makes fenced, a line of save rows, a damaged chain with its copy whole and poisoned, and repairs of units that
are fenced and that are not. -/
theorem witness_fenced_units :
    let damaged := { chain0 with damaged := true }
    let s := vec (fun v => { v with chain := some damaged }) (running 0)
    let kept (a : Agent) : State := { hart with others := [{ a with saveRows := [6143] }] }
    let a := Agent.fresh (.hart ⟨0, 1, 0⟩)
    let saved := kept { a with inRows := true }
    fencedUnit hart (.hbmLine 9) = some (.hbmRow 9) ∧ fencedUnit hart (.sdmLine 319 8191) = some (.core 319) ∧
    (fencedUnit hart (.vGranule h0 31 1023)).isSome = true ∧
    savedIn hart 319 6143 = none ∧ (savedIn saved 1 6143).map (fun a => (a.id == .hart ⟨0, 1, 0⟩, a.inRows)) = some (true, true) ∧
    (savedIn (kept { a with reclaimed := true }) 1 6143).map (fun a => (a.inRows, a.reclaimed)) = some (false, true) ∧
    (savedIn (kept a) 1 6143).map (fun a => (a.inRows, a.reclaimed)) = some (false, false) ∧
    (s.me.vec.chain = some damaged ∧ s.me.vec.rRun = true ∧ copyPoisoned s h0 damaged = false ∧
      copyPoisoned { s with poison := [(tileKey 0 + (chain0.rowLo + chain0.rows) * 8192 - 4096) / 64] } h0 damaged = true) ∧
    (.core 319 ∈ ({ hart with fenced := [.core 319, .lane 319 3 31] } : State).fenced ∧ SpareUnit.core 319 ∉ hart.fenced) ∧
    (errValid hart (.strip h0) = true ∧ errValid hart (.codeStore h0) = true) := by decide +kernel

/-! ### Witnesses of translation, placements and a control core's commands -/

/-- The hart of entry 0, with the first page of the TILE window mapped by a leaf. -/
def tiled (leaf : Nat) : State :=
  place (0x10000 + 8 * 8191) 8 [0x80001] (place (0x80000 + 8 * 6144) 8 [0x90001] (place 0x90000 8 [leaf] ran))
/-- A hart of the same task on the next core. -/
def besideTask : State :=
  { tiled 0x2F with
    entries := [{ entry0 with gangs := entry0.gangs ++ [{ core := 1, row := 512, rows := 128, gbar := Barrier.new 1, pool := [] }] }]
    others := [{ Agent.fresh (.hart ⟨0, 1, 0⟩) with task := some (entryId 0 0) }] }
/-- A hart that loads the word at offset 64 of TILE, and its copy to the first 17 words, which stands before one of them. -/
def arriving (next : Nat) (p : CmdPhase) : State :=
  let s := gs [(8, 64)] (vl 2 1 (vec (fun v => { v with mtSpace := 1 }) (tiled 0x2F)))
  { s with cmds := [{ newCommand s h0 .cpy (some { base := 0, dir := 0, space := 1, esz := 4, dims := [(17, 1)] }) none 0 0 none 1 with
    phase := p, next := next }] }
/-- An arrival-chained load waits until the copy has written the word, and for none that is final. -/
theorem witness_arrival :
    let w := node8 1 128 8 0 0 2 0 0
    let due (s : State) := let u := switched s
      arrivalDue .vld w u (memAt .vld w u) (activeOf u w (memBody .vld 2 u))
    vfate .vld w = .ok () ∧ w.ac = 1 ∧ memTrap .vld (switched (arriving 16 .running)) w = none ∧
    due (arriving 16 .running) = true ∧ due (arriving 17 .running) = false ∧ due (arriving 0 .final) = false := by decide +kernel
/-- Strides of two and of one on half bytes; scatters and a compression of half bytes and blocks; bases of a block and of a word that
are multiples and that are not, and one of a byte. -/
theorem witness_memory_traps :
    let st := node8 1 130 128 0 0 16 0 0
    let ix (t : Fin 32) := node8 1 128 256 0 0 t 0 0
    let un (t : Fin 32) := node8 1 128 0 0 0 t 0 0
    let at_ (t : Nat) (a b : Word) := switched (gs [(8, a), (9, b)] (vl t 32 hart))
    memTrap .vldSt (at_ 16 0 2) st = some (cStride, 2#64) ∧ memTrap .vldSt (at_ 16 1 1) st = none ∧
    memTrap .vstIx (at_ 17 1 0) (ix 17) = some (cStride, 0#64) ∧ memTrap .vcompressSt (at_ 16 1 0) (un 16) = some (cStride, 0#64) ∧
    memTrap .vld (at_ 17 8 0) (un 17) = some (cAlign, 8#64) ∧ memTrap .vld (at_ 17 16 0) (un 17) = none ∧
    memTrap .vst (at_ 2 6 0) (node8 1 128 0 1 0 2 0 0) = some (cAlign, 10#64) ∧ memTrap .vst (at_ 2 4 0) (un 2) = none ∧
    memTrap .vsrduAdd (at_ 2 2 0) (ix 2) = some (cAlign, 2#64) ∧ memTrap .vldIx (at_ 0 3 0) (ix 0) = none ∧
    (∀ x ∈ [(VOp.vldSt, st), (.vstIx, ix 17), (.vcompressSt, un 16), (.vld, un 17)], vfate x.1 x.2 = .ok ()) := by decide +kernel
/-- Decides what stands to be the leaf of an address. -/
def leafRight (s : State) (c : XCtx) (va m : Nat) : Bool :=
  @decide (LeafRight c va m (levelEntry s c va m)) (by unfold LeafRight; dsimp only; infer_instance)
/-- Decides what leads on. -/
def leadsOn (s : State) (c : XCtx) (va m : Nat) : Bool :=
  @decide (LeadsOn (levelEntry s c va m)) (by unfold LeadsOn; infer_instance)
/-- Decides whether a table is read. -/
def tableReads (s : State) (c : XCtx) (va m : Nat) : Bool :=
  @decide (TableReads s c va m) (by unfold TableReads; infer_instance)
/-- The first bar of the leaf of an access. -/
def barAt (c : XCtx) (acc : Acc) (e : Word) : Option (Nat × Bool × Bool) := firstBar c acc e true false false

/-- Translation: a walk that goes on and one that ends, at a leaf, at an entry that is not valid, past HBM4E and at a poisoned one. -/
theorem witness_walks :
    let c := vectorCtx hart
    let far := { hart with aspaces := tset 0 { aspOf hart 0 with root := 0x7FFFFFF } hart.aspaces }
    let bad := { hart with poison := [0x10000 / 64] }
    (tableReads hart c 0x40000 0 = true ∧ leadsOn hart c 0x40000 0 = true ∧ leafRight hart c 0x40000 0 = false) ∧
    (tableReads hart c 0x40000 1 = true ∧ leafRight hart c 0x40000 1 = true ∧
      firstBar c .write (levelEntry hart c 0x40000 1) true false false = none) ∧
    (tableReads hart c 0x20000000 1 = true ∧ leadsOn hart c 0x20000000 1 = false ∧ leafRight hart c 0x20000000 1 = false) ∧
    hbmEnd < tableFor far (vectorCtx far) 0x40000 0 + 65536 ∧
    (tableFor bad (vectorCtx bad) 0x40000 0 + 65536 ≤ hbmEnd ∧ tableReads bad (vectorCtx bad) 0x40000 0 = false) ∧
    (let s := { hart with tlb := [{ unit := .vector h0, asid := 0, level := 1, path := 0, entry := 0x20001 }] }
     heldAt s c 0x40000 0 = some 0x20001) := by decide +kernel

/-- What a leaf gives, each bar first in turn: no permission, another identity, no grant, read only, poison; and none. -/
theorem witness_bars : let c := vectorCtx hart
    barAt c .write 0x37 = some (cProt, true, false) ∧ barAt c .read 0x1F = some (cProt, true, false) ∧
    barAt { c with mode := .s } .fetch 0x3F = some (cProt, true, false) ∧
    firstBar c .read 0x3F false true false = some (cProt, false, true) ∧
    firstBar { c with cid := some 2 } .read (0x3F + 0x40000000000000#64) false false false = some (cCidmis, false, false) ∧
    barAt c .write 0x400000000000003F = some (cPfault, false, false) ∧ barAt c .read 0x800000000000003F = some (cPoison, false, false) ∧
    barAt c .write 0x800000000000003F = none ∧ barAt c .read 0x400000000000003F = none := by
  decide +kernel

/-- The windows: a page of the grant, its last row and one past it, without a gang; a slot of the hart and of no one; a core beside the
hart with and without a gang of the task; an address in none of them; where each of them lands. -/
theorem witness_windows :
    let s := tiled 0x2F
    let c := vectorCtx s
    let last := tiled 0xFF002F
    let past := tiled 0x100002F
    let b := besideTask
    (c.hart = some h0 ∧ leafRight s c 0x7FFF0000000000 2 = true ∧ (hartGang s c.task 0).map (fun g => g.rows) = some 256 ∧
      inReserve s c.task 0 0 0 = false ∧ hartGang hart (vectorCtx hart).task 0 = none) ∧
    resolve s c .write 0x7FFF0000000000 = .ok (.mem (tileKey 0)) ∧
    resolve last c .write 0x7FFF0000000040 = .ok (.mem (tileKey 0 + 255 * 8192 + 64)) ∧
    resolve past c .write 0x7FFF0000000000 = .error (flt cProt 0x7FFF0000000000 .write) ∧
    resolve s c .write 0x7FFF0010000008 = .ok (.mem (sdmKey 0 + 8)) ∧
    resolve s c .write 0x7FFF0010004000 = .error (flt cProt 0x7FFF0010004000 .write) ∧
    (b.me.id = .hart h0 ∧ neighbour (hartCore h0) 1 = some 1 ∧ (hartGang b (vectorCtx b).task 1).map (fun g => g.row) = some 512 ∧
      neighbour (hartCore h0) 0 = none) ∧
    resolve b (vectorCtx b) .read 0x7FFF0024000000 = .ok (.mem (tileKey 1 + 512 * 8192)) ∧
    resolve b (vectorCtx b) .write 0x7FFF0024000000 = .error { flt cProt 0x7FFF0024000000 .write with peer := true } ∧
    resolve b (vectorCtx b) .read 0x7FFF0020000000 = .error { flt cProt 0x7FFF0020000000 .read with peer := true } ∧
    resolve s c .read 0x7FFF0004000000 = .error (flt cProt 0x7FFF0004000000 .read) ∧
    resolve s c .read (2 ^ 55) = .error (flt cProt (2 ^ 55) .read) ∧
    resolve s c .fetch 0x7FFF0000000000 = .error (flt cProt 0x7FFF0000000000 .fetch) := by decide +kernel

/-- A control core's physical accesses: HBM4E, the poison map view and the registers in each mode, and what is in none; and with
translation on. -/
theorem witness_physical :
    (core0.me.id = .cc 0 ∧ core0.me.mode = .m ∧ core0.me.cc.rootOn = false) ∧
    resolveScalar core0 .write (hbmEnd - 8) = .ok (.mem (hbmEnd - 8)) ∧
    resolveScalar core0 .read 0x10000000000 = .ok (.poisonMap 0) ∧ resolveScalar core0 .read 0x20000000FF8 = .ok (.mgmt 0xFF8) ∧
    resolveScalar core0 .read hbmEnd = .error (flt cProt hbmEnd .read) ∧
    (let u := { core0 with me := { core0.me with mode := .u } }
     resolveScalar u .read 0x10000000000 = .error (flt cProt 0x10000000000 .read) ∧
     resolveScalar u .read 0x20000000FF8 = .error (flt cProt 0x20000000FF8 .read)) ∧
    (let t := { core0 with me := { core0.me with mode := .s, cc := { core0.me.cc with rootOn := true, root := 1 } } }
     t.me.mode ≠ .m ∧ t.me.cc.rootOn = true ∧ resolveScalar t .read 0x40000 = .error (flt cPfault 0x40000 .read)) := by
  decide +kernel

/-- Offsets under each space, inside and outside its window, and below zero. -/
theorem witness_spaces :
    let s := besideTask
    let c := vectorCtx s
    let out (a : Int) (acc : Acc) : Except Flt Loc := .error { flt cProt (a % 2 ^ 64).toNat acc with offset := true }
    resolveAt hart (vectorCtx hart) 0 0 .read 0x40000 = .ok (.mem 0x40000) ∧ resolveAt s c 0 0 .read (-1) = out (-1) .read ∧
    resolveAt (tiled 0x2F) c 1 0 .write 64 = .ok (.mem (tileKey 0 + 64)) ∧ resolveAt s c 1 0 .read 0x3000000 = out 0x3000000 .read ∧
    resolveAt s c 2 1 .read 0 = .ok (.mem (tileKey 1 + 512 * 8192)) ∧
    resolveAt s c 2 1 .write 64 = .error { flt cProt 64 .write with peer := true, offset := true } ∧
    resolveAt s c 3 0 .read 8 = .ok (.mem (sdmKey 0 + 8)) ∧ resolveAt s c 3 0 .read 0x80000 = out 0x80000 .read := by decide +kernel

/-- Codes of each kind that R95 names: infinities, zeros, a number, a signalling and a quiet NaN, with both signs. -/
theorem witness_special_codes : ∀ F ∈ [fmtOf 9, fmtOf 10], let i := infOf F false
    let h := 2 ^ (F.width - 1)
    infCodeIs F i = true ∧ infCodeIs F (i + h) = true ∧ zeroCodeIs F 0 = true ∧ zeroCodeIs F h = true ∧
    (∀ x ∈ [i - 1, h + 1], infCodeIs F x = false ∧ zeroCodeIs F x = false ∧ nanCode F x = false) ∧
    (nanCode F (i + 1) = true ∧ signallingCode F (i + 1) = true) ∧
    (nanCode F (h + i + 2 ^ (F.f - 1)) = true ∧ signallingCode F (h + i + 2 ^ (F.f - 1)) = false) ∧
    topBit F (h + i) = 1 ∧ topBit F i = 0 ∧ h + i + 2 ^ (F.f - 1) < 2 ^ F.width := by decide +kernel

/-- Stores that meet a fault at the third element, after two that are written, and at the first; a block; and a scatter-reduce. -/
theorem witness_store_stops :
    (let u := switched (gs [(8, 0x1FFFFFF8)] (vl 2 3 hart))
     let w := sample .vst
     memCheck .vst 2 (memAt .vst w u) = none ∧ memSpan .vst u w = (0, 3) ∧ activeAt u w 2 = true ∧
     placeAt u .write (twiceAt .vst u w 2 / 2) = .error (flt cPfault 0x20000000 .write) ∧ activeTo .vst u w 2 = [0, 1] ∧
     (∀ k ∈ activeTo .vst u w 2, okE (placeAt u .write (twiceAt .vst u w k / 2)) = true)) ∧
    (let u := switched (gs [(8, 0x20000000)] (vl 2 3 hart))
     refusedAt (placeAt u .write (twiceAt .vst u (sample .vst) 0 / 2)) = true ∧ activeTo .vst u (sample .vst) 0 = []) ∧
    (let u := switched (gs [(8, 0x20000000)] (vl 17 32 hart))
     let w := node8 1 128 0 0 0 17 0 0
     memCheck .vst 17 (memAt .vst w u) = none ∧ blockActive u w 0 = true ∧
       okE (blockAccess u (memAt .vst w u) 17 .write 0 ((activeIn u w 0).map (fun q => (q, elemAt u.me.vec.regs 17 (lanesIn u) w.vd.val q)))
         (scaleAt u.me.vec.regs w.vd.val 0)) = false) ∧
    (let u := switched (elems 2 2 [0, 1, 2] (gs [(8, 0x1FFFFFF8)] (vl 2 3 hart)))
     let w := sample .vsrdoAdd
     memCheck .vsrdoAdd 2 (memAt .vsrdoAdd w u) = none ∧ memSpan .vsrdoAdd u w = (0, 3) ∧ 
     (List.range 3).map (fun k => (activeAt u w k, okE (placeAt u .both (twiceAt .vsrdoAdd u w k / 2)))) = [(true, true), (true, true), (true, false)]) := by decide +kernel

/-- `VL` of a type that exists, clamped, and of one that does not; `BUDGET` closed and open to an OVERRUN handler; the registers of a
control core. -/
theorem witness_more_special_registers :
    let x : Word := 0x02010000
    (x.toNat / 2 ^ 24 % 32 < 22 ∧ 22 ≤ (0x16000000 : Word).toNat / 2 ^ 24 % 32 ∧ hart.me.nlanes = hart.me.lanes ∧
      hart.me.nfirst = hart.me.first) ∧
    (let s := { task (fun e => { e with exhausted := true, left := 0, overdraft := 5, target := some h0 }) with
      me := { ran.me with mode := .s }, tenancies := [(0, { Tenancy.reset with extlim := 9 })] }
     s.me.mode = .s ∧ s.me.overrun = false ∧ s.me.id = .hart h0 ∧
     (s.me.task.bind (entryOf s)).map (fun e => (e.exhausted, e.ext, e.target)) = some (true, false, some h0) ∧
     (storeCsr s 0x20 100 true).toOption.map (fun t => readCsr t 0x20) = some 0x8000000000000008) ∧
    (ran.me.task.bind (entryOf ran)).map (fun e => e.exhausted) = some false ∧ hart.me.task.bind (entryOf hart) = none ∧
    (∀ n ∈ [0x801, 0x802, 0x803, 0x810, 0x818, 0x81F, 0x811], okE (storeCsr core0 n 0xFFFFFFFFFFFFFFFF true) = true) ∧
    (∀ n ∈ [2, 3, 4, 5, 6, 0x40, 0x41, 0x42, 0x43], okE (storeCsr sup n 0 false) = true) := by
  decide +kernel

/-- A 1 in FOF of `XSTAT` clears it by a full write alone (spec/05_scalar_ops.md R118). -/
theorem test_csrbset_keeps_fof :
    let s := with_ (fun a => { a with mode := .s, fof := true })
    (storeCsr s 0x43 0x40 false).toOption.map (fun t => t.me.fof) = some true ∧
    (storeCsr s 0x43 0x40 true).toOption.map (fun t => t.me.fof) = some false := by decide +kernel

/-- Collectives of each form with every piece there: two members, two f32 elements each, or one of two. -/
theorem witness_yields :
    let c (f : Nat) (n : Nat) : Coll := { done0 with form := f, dst := done0.dst.map (fun d => { d with dims := [(n, 1)] }) }
    let out (f n : Nat) := collResult (c f n)
    ((c 0 2).op < 6 ∧ (c 0 2).ty < 12 ∧ (c 0 2).members.length = 2 ∧ 8 * 4 = elemW (c 0 2).ty) ∧
    ((c 0 2).src.map (fun d => (d.esz, d.count)) = some (4, 2)) ∧
    ((c 0 2).local_.length = 8 ∧ (c 0 2).peers.map (fun p => (p.rank, p.got.map (fun g => (g.1, g.2.length)))) = [(1, [(0, 8)])]) ∧
    (c 0 2).rank = 0 ∧ out 0 2 = ([0x40400000, 0x40400000], 0) ∧
    out 1 2 = ([0x3F800000, 0x3F800000], 0) ∧ out 2 4 = ([0x3F800000, 0x3F800000, 0x40000000, 0x40000000], 0) ∧
    out 3 1 = ([0x40400000], 0) ∧ (folded (c 0 2) 4 0).1 = 0x40400000 ∧ pieceAt (c 0 2) 4 1 1 = 0x40000000 := by decide +kernel

/-- Control core 0 in M mode at an object, with the words of a command. -/
def commanding (kind : BitVec 4) (n : Nat) (d : List Word) (s : State) : State :=
  { s with me := { s.me with cc := { s.me.cc with kind := kind, index := BitVec.ofNat 32 n
                                                  objd := d.zipIdx.foldl (fun v x => v.set! x.2 x.1) (Vector.replicate 8 0) } } }
/-- The status of a WRITE, and what the READ after it finds. -/
def written (s : State) : Nat × Nat × List Word :=
  let r := command s 2
  let q := command r.1 1
  (r.2.1, q.2.1, q.2.2.toList)
/-- Control core 0 beside the halted hart of entry 0. -/
def besideHalted : State :=
  { core0 with others := { ran.me with halted := true } :: core0.others.filter (fun a => a.id != .hart h0), entries := [entry0]
               aspaces := [(0, { ASpace.reset with valid := true })] }

/-- An object of each kind that M mode writes, and what a READ then finds. -/
theorem witness_write_reads_back : core0.me.mode = .m ∧ (hartOf besideHalted (debugHart 0)).halted = true ∧
    written (commanding 1 63 [0x40, 4, 0x40, 0x300000005, 7] core0) = (0, 0, [0x40, 4, 0x40, 0x300000005, 7, 0, 0, 0]) ∧
    written (commanding 2 511 [7, 40, 5120, 245760] core0) = (0, 0, [7, 40, 5120, 245760, 0, 0, 0, 0]) ∧
    written (commanding 3 65535 [0x8000000000000003, 0x123] core0) = (0, 0, [0x8000000000000003, 0x123, 0, 0, 0, 0, 0, 0]) ∧
    written (commanding 4 4095 [0xE001000000000000, 0x40, 5] besideHalted) = (0, 0, [0xE001000000000000, 0x40, 5, 0x600, 0, 0, 0, 0]) ∧
    written (commanding 5 15 [0x123456789ABC, 0x50005, 0x60000, 0x70000, 0x101] core0) =
      (0, 0, [0x123456789ABC, 0x50005, 0x60000, 0x70000, 0x101, 0, 0, 0]) ∧
    written (commanding 6 63 [0x8000000100000007] core0) = (0, 0, [0x8000000100000007, 0, 0, 0, 0, 0, 0, 0]) ∧
    (command (commanding 9 7 [1, 2, 3] core0) 2).2.1 = 0 ∧
    written (commanding 10 7 [0, 0x10000, 0x20000, 5] core0) = (0, 0, [0x8000000000000000, 0x10000, 0x20000, 5, 0, 0, 0, 0]) ∧
    written (commanding 11 0 [0x8000000000000000, 0x40000, 9, 77, 0x40] besideHalted) =
      (0, 0, [0xC000000000000000, 0x40000, 9, 77, 0x40, 0, 0, 0]) := by decide +kernel

/-- Entries for a control core: one that runs, with nothing due, one that its queue holds on chip, in its ring, and none. -/
theorem witness_entry_commands :
    let s := { core0 with queues := queues0.queues, others := ran.me :: core0.others.filter (fun a => a.id != .hart h0)
                          entries := [{ entry0 with id := entryId 0 9 }, entry0] }
    (entryOf s (entryId 0 0) = some entry0 ∧ completeNow s entry0 = false ∧ entry0.left ≠ 0 ∧ s.kclock < entry0.deadline ∧
      entry0.watched < entry0.watch) ∧
    (entryOf s (entryId 2 0) = none ∧ (queueOf s 0).slots.map (fun x => x.seq) = [0] ∧ (queueOf s 0).ends = [] ∧
      (command (commanding 7 0 [0] { s with entries := [] }) 5).2.1 = 0 ∧
      (command (commanding 7 0 [9] s) 1).2.1 = 0 ∧ (command (commanding 7 0 [5] s) 1).2.1 = 2) ∧
    (let v := { queueOf queues0 1 with widx := 3 }
     (v.nextSeq + 2 ^ 32 - 1 - 0) % 2 ^ 32 < v.widx - v.ridx ∧ ¬ (v.nextSeq + 2 ^ 32 - 1 - 5) % 2 ^ 32 < v.widx - v.ridx) := by
  decide +kernel

/-- A hart of entry 0 beside control core 0, changed, and one record that waits for its answer. -/
def recorded (subject : Subject) (f : Agent → Agent) : State :=
  { core0 with
    others := f ran.me :: core0.others.filter (fun a => a.id != .hart h0), entries := [entry0]
    cmds := [{ transpose (.stalled 64) srcDesc with task := some (entryId 0 0) }]
    colls := [{ coll0 1 2 with stall := some 64, task := some (entryId 0 0) }]
    records := [{ ten := 0, token := 64, subject := subject, words := #v[1, 0x12345, 0, 0, 0, 0, 0, 0], answered := none }] }
/-- What an answer leaves of that record's state: 0 retries and 1 declines. -/
def answered (s : State) (d : Word) : State := (command (commanding 8 64 [d] s) 6).1

/-- Records of each subject: of a parked hart, with its page or in its handler, a command, a collective; with the hart pre-empted; and
one that is not there. What the answers leave. -/
theorem witness_record_commands :
    let page := recorded (.hartPage h0) (fun a => { a with status := .parked 64 true, pc := 0x40004 })
    let fault := recorded (.hartFault h0) (fun a => { a with status := .parked 64 false, mode := .s })
    let held := recorded (.hartPage h0) (fun a => { a with status := .parked 64 true, stopped := true })
    let c := recorded (.command h0 1) id
    let l := recorded (.collective h0 1) id
    ((hartOf page h0).status = .parked 64 true ∧ (hartOf page h0).stopped = false ∧ (hartOf page h0).halted = false ∧
      page.records.map (fun r => (r.ten == (hartOf page h0).ten, r.token)) = [(true, 64)] ∧ completeNow fault entry0 = false) ∧
    (let b := hartOf (answered page 0) h0
     b.status = .running ∧ b.pc = 0x40004 ∧ b.mode = .u ∧ (answered page 0).records = []) ∧
    (let b := hartOf (answered page 1) h0
     b.xcause = 4 ∧ b.xval = 0x12345 ∧ b.xpc = 0x40004 ∧ b.mode = .s ∧ b.status = .running) ∧
    (hartOf (answered fault 0) h0).status = .running ∧ entryOf (answered fault 1) (entryId 0 0) = none ∧
    ((hartOf held h0).stopped = true ∧ (hartOf (answered held 1) h0).status = .parked 64 true ∧
      (answered held 1).records.map (fun r => r.answered) = [some true]) ∧
    ((commandOf c h0 1).map (fun x => x.phase) = some (.stalled 64) ∧
      (commandOf (answered c 0) h0 1).map (fun x => x.phase) = some .paused ∧
      (commandOf (answered c 1) h0 1).map (fun x => (x.phase, x.code)) = some (.final, 6)) ∧
    ((collOf l h0 1).map (fun x => x.stall) = some (some 64) ∧
      (collOf (answered l 0) h0 1).map (fun x => (x.stall, x.code)) = some (none, 2) ∧
      (collOf (answered l 1) h0 1).map (fun x => (x.stall, x.code)) = some (none, 6)) ∧
    (command (commanding 8 65 [0] page) 6).2.1 = 2 := by decide +kernel

/-- A run that waits for the answer to its record. -/
theorem witness_stalled_run :
    let a := hartOf (running 0) h0
    let s := recorded (.run h0 4 0x12345) (fun _ => { a with vec := { a.vec with run := a.vec.run.map (fun r => { r with stall := some 64 }) } })
    ((hartOf s h0).vec.run.bind (fun x => x.stall)) = some 64 ∧ (hartOf s h0).stopped = false ∧
    ((hartOf (answered s 0) h0).vec.run.map (fun x => x.stall)) = some none ∧ (hartOf (answered s 0) h0).vec.rRun = true ∧
    (let v := (hartOf (answered s 1) h0).vec
     v.rRun = false ∧ v.rFail = true ∧ v.rPend = true ∧ v.runFault.map (fun f => f.cause) = some 4) := by decide +kernel

/-- A fault queue of 32 slots with one free, and with none; and none configured. -/
def fqueue (widx : Nat) : State :=
  { place 0x100000 8 [widx, 1] hart with tenancies := [(0, { Tenancy.reset with fqbase := 0x100000, fqlog2 := 5, fqirq := 3 })] }

/-- Records where the ring has room, where it is full, and where there is none; a migration at its end and one that aborts. -/
theorem witness_records_and_migration_ends :
    let note (s : State) := postNote s 0 11 0 0 0x55 0x66 0x77 none
    (tenOf (fqueue 32) 0).waiting = [] ∧ Memory.wf (fqueue 32).mem = true ∧ (tenOf hart 0).fqlog2 = 0#5 ∧
    (List.range 8).map (fun k => Memory.readLE (note (fqueue 32)).mem (0x100040 + 8 * k) 8) = [11, 0x55, 0x66, 0x77, 0, 0, 0, 0] ∧
    Memory.readLE (note (fqueue 32)).mem 0x100000 8 = 33 ∧
    ((agentOf (note (fqueue 32)) (.cc 1)).cc.fqueue = true ∧ (agentOf (note (fqueue 32)) (.cc 2)).cc.fqueue = false) ∧
    ((note (fqueue 33)).mem = (fqueue 33).mem ∧ (tenOf (note (fqueue 33)) 0).fqlost = 1) ∧
    (let m (n : Nat) : State := { hart with migrations := [(7, { Migration.reset with busy := true, src := 1, dst := 2, next := n })], poison := [2050] }
     1024 ≤ (migOf (m 1024) 7).next ∧ (migOf (migrateLine (m 1024) 7 false) 7).busy = false ∧
     isPoisoned (m 1) (65536 + 64) = false ∧ (migOf (migrateLine (m 1) 7 true) 7).result = 1 ∧
     (migrateLine (m 1) 7 true).poison = [1025]) := by decide +kernel

/-- A request: origin, extent, lanes and least lanes, harts, rows, FLOAT. -/
def request (row col rows cols lanes minl harts trows float : Nat) : Word :=
  BitVec.ofNat 64 (col + 8 * row + 64 * (cols - 1) + 512 * (rows - 1) + 4096 * lanes + 32768 * minl + 2 ^ 18 * (harts - 1) +
    2 ^ 23 * trows + 2 ^ 36 * float)
/-- A READY entry with a request. -/
def asking (k : Nat) (w : Word) : Entry :=
  { entry0 with id := entryId 0 k, state := .ready, gangs := [], words := image0.set 3 w, deadline := 2000000 }
/-- Die 0 with the task of the hart on half of core 0 and its first 256 rows. -/
def halfTaken : State := { queues0 with others := [], me := { ran.me with lanes := 64, nlanes := 64 }, entries := [entry0] }

/-- Placements: beside the task, on the first origin with room and with the most lanes that fit; where none fits; what the harts of one
start with. -/
theorem witness_placements :
    let two := asking 1 (request 0 0 1 2 3 0 2 256 1)
    let pl := (fits halfTaken [] two).getD []
    let ag (core ctx : Fin 32) := hartOf (launch halfTaken two pl) ⟨0, Fin.ofNat 40 core.val, ctx⟩
    (two.state = .ready ∧ requestOk (request 0 0 1 2 3 0 2 256 1).toNat = true) ∧
    fits halfTaken [] (asking 1 (request 0 0 1 1 5 0 2 256 0)) =
      some [{ core := 0, row := 256, rows := 256, ctxs := [1, 2], blocks := [(64, 32), (96, 32)] }] ∧
    fits halfTaken [] (asking 1 (request 0 0 1 1 5 5 1 256 0)) = none ∧
    pl.map (fun p => (p.core, p.row, p.ctxs, p.blocks)) = [(0, 256, [1, 2], [(64, 32), (96, 32)]), (1, 0, [0, 1], [(0, 32), (32, 32)])] ∧
    (getG (ag 1 1) 5 = 1 ∧ getG (ag 1 1) 6 = 2 ∧ getG (ag 1 1) 7 = 1 ∧ getG (ag 1 1) 2 = 0x7FFF0010008000 ∧ getG (ag 1 1) 4 = 0x200000 ∧
      (ag 1 1).pc = 0x10000 ∧ (ag 1 1).first = 32 ∧ (ag 1 1).task = some (entryId 0 1)) := by decide +kernel


/-- An entry that needs a whole core, skipped before, and one that needs four lanes. -/
def big (n : Nat) : Entry := { asking 1 (request 0 0 1 1 5 5 1 256 0) with deadline := 5000000, skips := n }
/-- The other. -/
def small : Entry := { asking 2 (request 0 0 1 1 0 0 1 0 0) with deadline := 6000000 }
/-- Die 0 with both, and a task on half of core 0. -/
def skipping (n : Nat) : State := { halfTaken with entries := [entry0, big n, small] }

/-- The order of a pass over them. -/
theorem skipping_order (n : Nat) : passOrder (skipping n) 0 = [entryId 0 1, entryId 0 2] := by
  have h : (skipping n).entries.filter (fun e => e.die.val == 0 && (e.state == .ready || e.state == .preempted)) = [big n, small] := rfl
  unfold passOrder
  rw [h, List.mergeSort_of_pairwise]
  · rfl
  · refine List.pairwise_pair.mpr ?_
    rfl

/-- An entry that does not fit, nor would with lanes reclaimed, with no task to set aside for it, before one that fits; a pass that
drains for the other. -/
theorem witness_skips :
    (skipping 3).drain = [] ∧ entryOf (skipping 3) (entryId 0 1) = some (big 3) ∧ entryOf (skipping 3) (entryId 0 2) = some small ∧
    fits (skipping 3) [] (big 3) = none ∧ fits (freed (skipping 3)) [] (big 3) = none ∧ (changes (skipping 3) (victims (skipping 3) (big 3))) = [] ∧
    (match fits (skipping 3) [] small with
      | some pl => (match setAside pl (skipping 3) (displaced (skipping 3) 0 pl) with
        | .ok _ => true
        | .error _ => false)
      | none => false) = true ∧ entryId 0 1 ≠ entryId 0 2 ∧ (big 15).skips = 15 ∧
    ({ skipping 16 with drain := [(0, entryId 0 2)] } : State).drain = [(0, small.id)] := by decide +kernel

/-- Final statuses: with a completion signal that is written and one that faults, with a successor, and with a ring slot to write and
one that RIDX has passed. -/
theorem witness_final_statuses :
    let s := { queues0 with entries := [entry0] }
    let e (w0 w6 : Word) : Entry := { entry0 with words := (image0.set 0 w0).set 6 w6 }
    (entry0.words[6] ≠ 0#64 ∧ okE (resolve s (kilnCtx s 0 0 .s) .write 0x201000) = true ∧
      okE (resolve s (kilnCtx s 0 0 .s) .write 0x20000000) = false) ∧
    Memory.readLE (finalEntry s entry0 .done 3).mem 0x201000 8 = 0x305 ∧
    entryOf (finalEntry s (e 0x1000000000000 0) .done 0) (entryId 0 0) = none ∧
    (0 < (queueOf queues0 1).ridx ∧ okE (resolve s (kilnCtx s 0 0 .s) .write (slotVa (queueOf queues0 1) 1)) = true) := by decide +kernel

/-! ### The vector image of a hart: every doubleword of it finds its place -/

/-- What the translations of the mapped space rest on. -/
def Maps (s : State) : Prop :=
  vectorCtx s = vectorCtx sup ∧ s.tlb = [] ∧ isPoisoned s 0x10000 = false ∧ isPoisoned s 0x20000 = false ∧
  Memory.readLE s.mem 0x10000 8 = 0x20001 ∧ Memory.readLE s.mem 0x20000 8 = 0x3F
/-- The same, with memory in its canonical form. -/
def Low (s : State) : Prop :=
  vectorCtx s = vectorCtx sup ∧ s.tlb = [] ∧ isPoisoned s 0x10000 = false ∧ isPoisoned s 0x20000 = false ∧
  Memory.wf s.mem = true ∧ Memory.readLE s.mem 0x10000 8 = 0x20001 ∧ Memory.readLE s.mem 0x20000 8 = 0x3F

/-- An address of the mapped space translates to itself. -/
theorem maps_resolves {s : State} (h : Maps s) {acc : Acc} (ha : acc = .write ∨ acc = .read ∧ s.poison = []) {va : Nat} (hv : va < 2 ^ 29) :
    resolve s (vectorCtx s) acc va = .ok (.mem va) := by
  obtain ⟨hc, ht, p1, p2, e1, e2⟩ := h
  have c1 : vectorCtx sup = { unit := .vector ⟨0, 0, 0⟩, mode := .s, asid := 0, root := 1, hart := some ⟨0, 0, 0⟩, task := none, cid := none, isCc := false } := by
    decide +kernel
  have d1 : va / 2 ^ 42 = 0 := Nat.div_eq_of_lt (by omega)
  have d2 : va / 2 ^ 29 = 0 := Nat.div_eq_of_lt hv
  have l1 : pageLog 1 = 42 := rfl
  have l2 : pageLog 2 = 29 := rfl
  have w : walk s (vectorCtx s) acc va 3 0x10000 = .ok (0x3F#64, 29) := by
    rw [hc, c1]
    simp only [walk, cached, entryFor, ht, List.any_nil, List.find?_nil, l1, l2, d1, d2, Nat.zero_mod, Nat.mul_zero, Nat.add_zero,
      Nat.reduceSub, Nat.zero_mul, p1, e1]
    have q2 : fld (BitVec.ofNat 64 0x20001) 51 16 * 65536 = 0x20000 := by decide
    have q3 : (!bit (BitVec.ofNat 64 0x20001) 0) = false ∧ bit (BitVec.ofNat 64 0x20001) 1 = false ∧ tableOk (BitVec.ofNat 64 0x20001) = true := by decide
    have q4 : (!bit (BitVec.ofNat 64 0x3F) 0) = false ∧ bit (BitVec.ofNat 64 0x3F) 1 = true := by decide
    simp only [q2, q3.1, q3.2.1, q3.2.2, p2, e2, q4.1, q4.2]
    have q5 : leafOk { unit := .vector ⟨0, 0, 0⟩, mode := .s, asid := 0, root := 1, hart := some ⟨0, 0, 0⟩, task := none, cid := none, isCc := false } 2 0
      (BitVec.ofNat 64 0x3F) = true := by decide +kernel
    simp [q5, hbmEnd]
  have rt : (vectorCtx s).root * 65536 = 0x10000 := by rw [hc, c1]; rfl
  have k : checkLeaf (vectorCtx s) acc va 0x3F#64 true false = .ok () := by
    rw [hc, c1]
    rcases ha with rfl | ⟨rfl, -⟩ <;> rfl
  have f : fld 0x3F#64 51 16 * 65536 + va % 2 ^ 29 = va := by
    have : fld 0x3F#64 51 16 = 0 := by decide
    rw [this, Nat.mod_eq_of_lt hv, Nat.zero_mul, Nat.zero_add]
  have b2 : ¬ 0x7FFF0000000000 ≤ va := by omega
  have b3 : va < 0x7735940000 := by omega
  have b4 : va < 36028797018963968 := by omega
  simp only [resolve, rt, w, k, f]
  rcases ha with rfl | ⟨rfl, hp⟩
  · simp [Acc.reads, winBase, hbmEnd, b2, b3, b4]
  · simp [Acc.reads, isPoisoned, hp, winBase, hbmEnd, b2, b3, b4]

/-- The same where memory is canonical. -/
theorem low_resolves {s : State} (h : Low s) {acc : Acc} (ha : acc = .write ∨ acc = .read ∧ s.poison = []) {va : Nat} (hv : va < 2 ^ 29) :
    resolve s (vectorCtx s) acc va = .ok (.mem va) :=
  maps_resolves ⟨h.1, h.2.1, h.2.2.1, h.2.2.2.1, h.2.2.2.2.2⟩ ha hv

/-- Saving an image that lies in the mapped space above its tables completes. -/
theorem low_saves (va : Nat) (hlo : 0x30000 ≤ va) (n : Nat) : ∀ (s : State) (off : Nat), Low s → va + off + 8 * n ≤ 2 ^ 29 →
    ∃ t, saveFrom s va n off = .ok t := by
  induction n with
  | zero => exact fun s _ _ _ => ⟨s, rfl⟩
  | succ n ih =>
    intro s off h hb
    simp only [saveFrom, low_resolves h (.inl rfl) (show va + off < 2 ^ 29 by omega)]
    apply ih
    · obtain ⟨hc, ht, p1, p2, hw, e1, e2⟩ := h
      have keep (k x v : Nat) (hk : x + 8 ≤ k) : Memory.readLE (Memory.writeLE s.mem k 8 v) x 8 = Memory.readLE s.mem x 8 := by
        apply Memory.readLE_congr
        intro i hi
        exact Memory.read_writeLE_outside 8 k v (x + i) hw (.inl (by omega))
      have pk (st : State) (line x : Nat) (hx : x / 64 < line) (hp : isPoisoned st x = false) : isPoisoned (addPoison st line) x = false := by
        have ins : ∀ l : List Nat, (insertNat line l).contains (x / 64) = l.contains (x / 64) := by
          intro l
          have ne : (x / 64 == line) = false := by simp; omega
          induction l with
          | nil => simp only [insertNat, List.contains_cons, ne, Bool.false_or]
          | cons j l ihl =>
            unfold insertNat
            split
            · rfl
            · split
              · rw [List.contains_cons, ne, Bool.false_or]
              · simp only [List.contains_cons, ihl]
        exact (ins _).trans hp
      cases imageBad s.me off with
      | false => exact ⟨hc, ht, p1, p2, Memory.wf_writeLE _ _ _ hw, (keep _ _ _ (by omega)).trans e1, (keep _ _ _ (by omega)).trans e2⟩
      | true =>
        exact ⟨hc, ht, pk _ _ _ (by omega) p1, pk _ _ _ (by omega) p2, Memory.wf_writeLE _ _ _ hw,
          (keep _ _ _ (by omega)).trans e1, (keep _ _ _ (by omega)).trans e2⟩
    · omega

/-- The hart that saves and restores its image at 0x100000. -/
def keeper : State := gs [(9, 0x100000)] (place 0x100000 8 [4] sup)

theorem keeper_low : Low (vsave keeper) := by unfold Low; decide +kernel

theorem witness_image_saved : ∃ t, saveImage (vsave keeper) 0x100000 = .ok t :=
  low_saves 0x100000 (by decide) _ _ 0 keeper_low (by decide +kernel)

/-- Every doubleword of an image in the mapped space is read. -/
theorem low_reads {s : State} (h : Low s) (hp : s.poison = []) (va n : Nat) : ∀ off : Nat, va + off + 8 * n ≤ 2 ^ 29 →
    firstFault (readImage s va n off) = none := by
  induction n with
  | zero => exact fun _ _ => rfl
  | succ n ih =>
    intro off hb
    simp only [readImage, readIn, low_resolves h (.inr ⟨rfl, hp⟩) (show va + off < 2 ^ 29 by omega)]
    exact ih (off + 8) (by omega)

theorem header_of_image {s : State} (h : Low s) (hp : s.poison = []) (n : Nat) :
    headerWord (readImage s 0x100000 (n + 4) 0) 8 = BitVec.ofNat 64 (readLoc s (.mem 0x100008) 8) ∧
    headerWord (readImage s 0x100000 (n + 4) 0) 24 = BitVec.ofNat 64 (readLoc s (.mem 0x100018) 8) := by
  have r (va : Nat) (hv : va < 2 ^ 29) : readIn s (vectorCtx s) va 8 = .ok (readLoc s (.mem va) 8) := by
    simp only [readIn, low_resolves h (.inr ⟨rfl, hp⟩) hv]
  simp only [readImage, headerWord, List.find?_cons, Nat.zero_add, Nat.reduceAdd, Nat.reduceBEq]
  rw [r 0x100008 (by decide), r 0x100018 (by decide)]
  exact ⟨rfl, rfl⟩

/-- Without a chain there is nothing to quit. -/
theorem quitChain_none (s : State) (h : s.me.vec.chain = none) : quitChain s = s := by
  unfold quitChain
  rw [h]
  split
  · rename_i hc
    cases hc
  · rfl

/-- An image whose doublewords are all read, with `VL` and `MTYPE` zero, is restored. -/
theorem restores {s : State} {va lanes : Nat} (hl : imageLanes s va = .ok lanes) (hc : s.me.vec.chain = none)
    (hf : firstFault (readImage s va (imageBytes lanes / 8) 0) = none)
    (h8 : headerWord (readImage s va (imageBytes lanes / 8) 0) 8 = 0#64)
    (h24 : headerWord (readImage s va (imageBytes lanes / 8) 0) 24 = 0#64) : ∃ t, restoreImage s va = (t, none) := by
  have ty : ¬ 22 ≤ (0#64).toNat / 2 ^ 24 % 32 := by decide
  have sp : ¬ (0#64).toNat % 4 = 2 := by decide
  rw [restoreImage, hl]
  simp only [quitChain_none s hc, hf, h8, h24, writeVl, ty, writeMtype, sp, false_and, if_false]
  exact ⟨_, rfl⟩

theorem witness_image_restored : ∃ t, restoreImage (vsave keeper) 0x100000 = (t, none) := by
  have hp : (vsave keeper).poison = [] := rfl
  have hn : imageBytes 4 / 8 = (imageBytes 4 / 8 - 4) + 4 := by decide +kernel
  have h8 := header_of_image keeper_low hp (imageBytes 4 / 8 - 4)
  rw [← hn] at h8
  have z8 : readLoc (vsave keeper) (.mem 0x100008) 8 = 0 := by decide +kernel
  have z24 : readLoc (vsave keeper) (.mem 0x100018) 8 = 0 := by decide +kernel
  rw [z8, z24] at h8
  exact restores (by decide +kernel) (by decide +kernel) (low_reads keeper_low hp _ _ 0 (by decide +kernel)) h8.1 h8.2

/-- An image in the mapped space above its tables lies where its addresses say, whatever it holds. -/
theorem low_image {s : State} (h : Low s) (hp : s.poison = []) {va : Nat} (hlo : 0x30000 ≤ va)
    (hb : va + imageBytes (lanesIn s) ≤ 2 ^ 29) : ImageAt s va va := by
  intro m hm off ho acc ha
  have keep (x : Nat) (hx : x + 8 ≤ va) : Memory.readLE m x 8 = Memory.readLE s.mem x 8 := by
    apply Memory.readLE_congr
    exact fun i hi => hm (x + i) (.inl (by omega))
  have hc : vectorCtx { s with mem := m } = vectorCtx s := rfl
  have hM : Maps { s with mem := m } :=
    ⟨hc.trans h.1, h.2.1, h.2.2.1, h.2.2.2.1, (keep 0x10000 (by omega)).trans h.2.2.2.2.2.1, (keep 0x20000 (by omega)).trans h.2.2.2.2.2.2⟩
  rw [← hc]
  apply maps_resolves hM _ (by omega)
  rcases List.mem_cons.mp ha with rfl | ha
  · exact .inr ⟨rfl, hp⟩
  · exact .inl (List.mem_singleton.mp ha)

/-- The image of the hart at 0x100000, and a vector state that is given back. -/
theorem witness_image_laid_out : let u := vsave keeper
    u.me.id = .hart ⟨0, 0, 0⟩ ∧ cleanAgent u.me = true ∧ Memory.wf u.mem = true ∧ ImageAt u 0x100000 0x100000 ∧
    [4, 8, 16, 32, 64, 128].contains (lanesIn u) = true ∧ u.me.vec.chain = none ∧ changePending u.me = false ∧
    u.me.vec.vlTy.toNat < 22 ∧ u.me.vec.vlLen.toNat ≤ cap u.me.vec.vlTy.toNat (lanesIn u) ∧ u.me.vec.mtSpace ≠ 2#2 := by
  have h : let u := vsave keeper
      u.me.id = .hart ⟨0, 0, 0⟩ ∧ cleanAgent u.me = true ∧ [4, 8, 16, 32, 64, 128].contains (lanesIn u) = true ∧ u.me.vec.chain = none ∧
      changePending u.me = false ∧ u.me.vec.vlTy.toNat < 22 ∧ u.me.vec.vlLen.toNat ≤ cap u.me.vec.vlTy.toNat (lanesIn u) ∧
      u.me.vec.mtSpace ≠ 2#2 := by decide +kernel
  exact ⟨h.1, h.2.1, keeper_low.2.2.2.2.1, low_image keeper_low rfl (by decide) (by decide +kernel), h.2.2⟩

theorem witness_image_keeper :
    keeper.me.id = .hart ⟨0, 0, 0⟩ ∧ keeper.me.mode = .s ∧ keeper.me.vec.rRun = false ∧ keeper.me.vec.rPend = false ∧
    Clean keeper [9] ∧ (getG keeper.me 9).toNat = 0x100000 := by unfold Clean; decide +kernel

/-! ### The consistency model -/

/-- The smallest scopes of the table of R244. -/
theorem test_smallest_scopes :
    let a : Party := .hart ⟨0, 3, 0⟩
    smallestScope a [a, .hart ⟨0, 3, 1⟩] = .core ∧ smallestScope a [.hart ⟨0, 3, 1⟩, .engine 0 0] = .die ∧
    smallestScope a [.hart ⟨0, 7, 1⟩] = .die ∧ smallestScope a [.hart ⟨1, 3, 0⟩] = .package ∧
    smallestScope a [.cc 0] = .package ∧ smallestScope a [.kiln] = .package ∧ smallestScope a [.outside] = .system := by decide +kernel

/-- The units of R239: an engine moves the aligned doublewords of its bytes whole. -/
theorem test_units :
    unitsOf .engine 5 13 = [⟨10, 2⟩, ⟨12, 2⟩, ⟨14, 2⟩, ⟨16, 16⟩, ⟨32, 2⟩, ⟨34, 2⟩] ∧
    unitsOf .nibble 7 1 = [⟨7, 1⟩] ∧ unitsOf .thresher 8 8 = [⟨16, 8⟩, ⟨24, 8⟩] ∧ unitsOf .scales 16 4 = [⟨32, 4⟩, ⟨36, 4⟩] := by
  decide +kernel

/-- A scalar access of hart A, or of B, to some half bytes. -/
def bytesAt (p : Fin 4) (n : Nat) (w : Bool) (at_ size v : Nat) (f : UnitForm) : MemAccess :=
  { litAcc p n false w 0 v with whole := ⟨at_, size⟩, unit := ⟨at_, size⟩, form := f }

/-- R239: a load of a halfword sees the whole of a store of it; where a byte load meets the store, only each byte is whole, and the
two bytes may be seen one after the other; a nibble of a store stands beside the other nibble. -/
theorem test_mixed_sizes :
    outcomeAllowed (litmus [bytesAt 0 0 true 0 4 0x1122 .scalar, bytesAt 1 0 false 0 4 0x0022 .scalar] [] []) [] = false ∧
    outcomeAllowed (litmus [bytesAt 0 0 true 0 4 0x1122 .scalar, bytesAt 1 0 false 0 2 0x22 .scalar, bytesAt 1 1 false 2 2 0 .scalar] [] []) []
      = true ∧
    outcomeAllowed (litmus [bytesAt 0 0 true 0 2 0x12 .scalar, bytesAt 1 0 true 1 1 5 .nibble] [] []) [(⟨0, 2⟩, 0x52)] = true ∧
    outcomeAllowed (litmus [bytesAt 0 0 true 0 2 0x12 .scalar, bytesAt 1 0 true 1 1 5 .nibble] [] []) [(⟨0, 2⟩, 0x51)] = false := by
  decide +kernel

/-- R235: what a load, a store, a branch and an indexed vector load do with registers. -/
theorem test_register_uses :
    (usesOf (.ld 8 2 16) (.inline true)).addr = [2] ∧ (usesOf (.ld 8 2 16) (.inline true)).writes = [8] ∧
    (usesOf (.sw 9 2 0) (.inline true)).addr = [2] ∧ (usesOf (.sw 9 2 0) (.inline true)).data = [9] ∧ (usesOf (.beq 5 0 5) (.inline true)).branch = [5, 0] ∧
    (usesOf (.vldIx (sample .vldIx)) (.inline true)).addr = [8, 34] ∧ (usesOf (.vldIx (sample .vldIx)) (.inline true)).writes = [33] := by decide +kernel

/-- Whether what instruction x read leads to the access of instruction y, among some instructions of hart A. -/
def leads (l : List (Instr × Bool)) (x y : Nat) (write : Bool) : Bool :=
  dependsOn (litmus [] (opsOf (litHart 0) 0 l) []) (litHart 0) (litSpot x) (litSpot y) write
/-- R235: `lhi` keeps the low half of the register it writes, so an address still depends on it, and `lui` keeps nothing; a masked move
keeps elements of its destination, and `vsel` under a mask writes them all. -/
theorem test_kept_registers :
    (let l (i : Instr) := leads [(.vld (node8 1 0x40 0 0 0 2 0 0), true), (.vextr (node8 8 8 64 0 0 2 0 1), true), (i, true), (.ld 9 8 0, true)] 0 3 false
     l (.lhi 8 5) = true ∧ l (.lui 8 5) = false) ∧
    (let l (i : Instr) := leads [(.vld (node8 1 0x40 0 0 0 2 0 0), true), (i, true), (.vst (node8 1 0x50 0 0 0 2 0 0), true)] 0 2 true
     l (.vmv (node8 1 16 0 0 1 2 0 0)) = true ∧ l (.vsel (node8 1 16 24 0 1 2 0 0)) = false) := by decide +kernel
/-- R251: what an `lnkin` node consumed goes through a `delay` to a store that stands before the `delay` in its block, in the same
strip. -/
theorem test_delay_in_a_strip :
    let nodes : List Instr := [.lnkin (node8 32 0 3 0 0 9 0 0), .vst (node8 33 0x40 0 0 0 9 0 0), .delay (node8 33 256 0 0 0 9 0 0)]
    let at_ (port : Nat) : Spot := { instr := 5, strip := 0, phase := 0, port := port, elem := 0 }
    let e (l : List Instr) : Execution := litmus [] (runOps (litHart 0) 5 l 1 []) []
    dependsOn (e nodes) (litHart 0) (at_ 0) (at_ 1) true = true ∧ dependsOn (e (nodes.take 2)) (litHart 0) (at_ 0) (at_ 1) true = false := by
  decide +kernel
/-- An instruction that completes with a register that it does not use, and one whose word stands in the node words. -/
theorem witness_register_uses :
    let runs (i : Instr) : Bool := match exec i hart with
      | .next _ => true
      | _ => false
    runs (.add 1 2 3) = true ∧ 5 ∉ computesFrom (.add 1 2 3) ∧ 8 ∉ computesFrom (.lui 8 5) ∧
    runs (.vadd (sample .vadd)) = true ∧ 32 + 7 ∉ computesFrom (.vadd (sample .vadd)) ∧ 64 + 3 ∉ computesFrom (.vadd (sample .vadd)) ∧
    (∀ op ∈ loads ++ stores, nodeOf (op.instr (sample op)) = some (op, sample op)) := by decide +kernel

/-- A word of the copy engine of die 0 for command 7. -/
def engAcc (write : Bool) (w v : Nat) : MemAccess := { litAcc 0 0 false write w v with party := .engine 0 0, cmd := some 7 }
/-- A point of hart A at an instruction. -/
def pointA (n : Nat) (x : Point) : PointAt := { litFence 0 n .all .die with what := x }

/-- R245: an engine sees what the vector agent wrote before the command, and what the scalar agent wrote only past a fence. -/
theorem test_issue_releases :
    outcomeAllowed (litmus [litVst 0 0 0 1, engAcc false 0 0] [] [pointA 2 (.issue 7)]) [] = false ∧
    outcomeAllowed (litmus [litSd 0 0 0 1, engAcc false 0 0] [] [pointA 2 (.issue 7)]) [] = true ∧
    outcomeAllowed (litmus [litSd 0 0 0 1, engAcc false 0 0] [] [litFence 0 1 .sv .die, pointA 2 (.issue 7)]) [] = false := by
  decide +kernel

/-- R246: a vector access after the wait sees what the engine wrote, a scalar one only past a fence. -/
theorem test_wait_acquires :
    outcomeAllowed (litmus [engAcc true 0 1, litVld 0 4 0 0] [] [pointA 2 (.issue 7), pointA 3 (.consume 7 false)]) [] = false ∧
    outcomeAllowed (litmus [engAcc true 0 1, litLd 0 5 0 0] [] [pointA 2 (.issue 7), pointA 3 (.consume 7 true)]) [] = true ∧
    outcomeAllowed (litmus [engAcc true 0 1, litLd 0 5 0 0] [] [pointA 2 (.issue 7), pointA 3 (.consume 7 true), litFence 0 4 .vs .die]) []
      = false := by decide +kernel

/-- R252: a task sees what its submitter stored before `enq`, and what the tasks it waited for did. -/
theorem test_tasks_order :
    outcomeAllowed (litmus [litSd 0 0 0 1, { litLd 1 0 0 0 with task := some 5 }] [] [pointA 1 (.enq 5)]) [] = false ∧
    outcomeAllowed (litmus [litVst 0 0 0 1, { litLd 1 0 0 0 with task := some 5 }] [] [pointA 1 (.enq 5)]) [] = true ∧
    outcomeAllowed { litmus [{ litVst 0 0 0 1 with task := some 4 }, { litLd 1 0 0 0 with task := some 5 }] [] [] with decs := [(4, 5)] } []
      = false := by decide +kernel

/-- The command of a copy between words: its read and its write, of the value read. -/
def copyAccs (c x y v : Nat) : List MemAccess := [{ engAcc false x v with cmd := some c }, { engAcc true y v with cmd := some c }]

/-- E1-E5 of spec/12_atomics_engines.md R280; z is word 2. -/
theorem test_engine_litmus :
    (let e (first : MemAccess) (fence : List PointAt) :=
       outcomeAllowed (litmus ([first] ++ copyAccs 7 0 1 0 ++ [litVld 0 5 1 0]) [] (fence ++ [pointA 3 (.issue 7), pointA 4 (.consume 7 true)])) []
     e (litVst 0 0 0 1) [] = false ∧ e (litSd 0 0 0 1) [] = true ∧ e (litSd 0 0 0 1) [litFence 0 2 .sv .die] = false) ∧
    outcomeAllowed (litmus ([litVst 0 0 0 1] ++ copyAccs 7 0 1 1 ++ [litVld 0 5 1 0]) [] [pointA 3 (.issue 7)]) [] = true ∧
    (let e (wait : List PointAt) :=
       outcomeAllowed (litmus ([litVst 0 0 0 1] ++ copyAccs 7 0 1 1 ++ copyAccs 8 1 2 0 ++ [litVld 0 7 2 0]) []
         (wait ++ [pointA 2 (.issue 7), pointA 4 (.issue 8), pointA 6 (.consume 8 true)])) []
     e [] = true ∧ e [pointA 3 (.consume 7 true)] = false) ∧
    (let e (fence : List PointAt) :=
       outcomeAllowed (litmus ([litVst 0 0 0 1] ++ copyAccs 7 0 1 1 ++ [litLd 0 6 1 0]) []
         (fence ++ [pointA 3 (.issue 7), pointA 4 (.consume 7 true)])) []
     e [] = true ∧ e [litFence 0 5 .vs .die] = false) := by decide +kernel

/-- B1 and B3 of spec/14_harts_kiln.md R318, for harts of one core. -/
theorem test_barrier_litmus :
    (let b (m : MemAccess) : MemAccess := { m with party := .hart ⟨0, 0, 1⟩ }
     let bar : List PointAt := [pointA 4 (.barrier 0 false), { pointA 0 (.barrier 0 false) with party := .hart ⟨0, 0, 1⟩ }]
     let e (l : List MemAccess) (w : List PointAt) := outcomeAllowed (litmus (l ++ [b (litVld 0 1 0 0)]) [] w) []
     e [litVst 0 0 0 1] bar = false ∧ e [litVst 0 0 0 1] [] = true ∧
     e [{ engAcc true 0 1 with cmd := some 7 }] (pointA 2 (.issue 7) :: bar) = true ∧
     e [{ engAcc true 0 1 with cmd := some 7 }] (pointA 2 (.issue 7) :: pointA 3 (.consume 7 true) :: bar) = false) := by decide +kernel

/-- A sequential execution: message passing in which B reads after A has written, and then a swap. -/
def inTurn : Execution :=
  { litmus ([litSd 0 0 0 1, litSd 0 1 1 1, litLd 1 0 1 1, litLd 1 1 0 1] ++
        [{ litLd 2 0 0 1 with atom := some (true, true) }, { litSd 2 0 0 5 with atom := some (true, true) }]) [] [litFence 0 3 .all .system]
      with source := [none, none, some 1, some 0, some 0, none], co := [0, 1, 5] }

theorem witness_sequential : InSequence inTurn := by
  refine ⟨?_, ?_, ?_, ?_, ?_, ?_, ?_⟩ <;> decide +kernel

/-! ### The assembly language -/

/-- The words of `li g8, 0x12345678` (spec/03_assembly.md R73). -/
theorem test_li : (liWords 8 5 0x12345678).map encode = [0x04400004, 0x0B42000D, 0x064211A2, 0x0B42000D, 0x06421678] := by
  decide +kernel

/-- A line without labels. -/
def asmLine (x : AsmStmt) : AsmLine := { labels := [], locals := [], stmt := x }

/-- The bytes of .text of a file of one statement. -/
noncomputable def asmOne (x : AsmStmt) : Option (List Byte) := (assemble 0 0x1000 [] [asmLine x]).map (fun o => o.text)

/-- Padding, labels and chain blocks (R63, R70-R72): a 64-bit word after one of 32 bits, and a block of one node, whose label is the
node's address. -/
theorem test_layout :
    (assemble 0 0x1000 [] [asmLine (.word (.addi 0 0 0) []), { labels := ["x"], locals := [], stmt := .word (.vadd (node8 3 8 0x48 0 13 2 0 1)) [] },
      asmLine .data, asmLine (.bytes 4 [.int (-1)]), asmLine (.equ "k" (.int 5)), asmLine (.chain "b" (.sym "k") (.int 32) (.int 8)),
      { labels := ["n"], locals := [], stmt := .word (.vfadd (node8 0x22 0x100 0x108 0 0 9 0 0)) [] }, asmLine .endchain, asmLine (.entry "x")]) =
    some { text := leBytes 4 0x04000000 ++ leBytes 4 0x04000000 ++ leBytes 8 0x00688400C10C1048
           data := leBytes 4 0xFFFFFFFF ++ leBytes 4 0 ++ leBytes 8 0x57501 ++ leBytes 8 0x00024000C28A0108 ++ leBytes 8 0xE1000000
           syms := [("x", ⟨.label .text, 8⟩), ("k", ⟨.abs, 5⟩), ("b", ⟨.label .data, 0x1008⟩), ("n", ⟨.label .data, 0x1010⟩)]
           exports := ["x"], entries := [8] } := by decide +kernel

/-- A label stands before a directive or a `li` that names it (R63, R70), and `lhi` takes an unsigned field of 19 bits (R66). -/
theorem test_labels_settle :
    (assemble 0 0x1000 [] [{ labels := ["a"], locals := [], stmt := .word (.addi 0 0 0) [] },
      { labels := [], locals := [1], stmt := .pseudo (.li 8 (.bin .sub (.back 1) (.sym "a"))) },
      { labels := ["end"], locals := [], stmt := .equ "n" (.bin .sub (.sym "end") (.sym "a")) }, asmLine .data,
      asmLine (.bytes 4 [.sym "n"])]).map (fun o => (o.text, o.data)) = some (leBytes 4 0x04000000 ++ leBytes 4 0x04400004, leBytes 4 8) ∧
    asmOne (.word (.lhi 8 0) [(.uimm19, .val (.int 0x7FF80))]) = some (leBytes 4 0x0D47FF80) ∧
    asmOne (.word (.lhi 8 0) [(.uimm19, .val (.int (-1)))]) = none := by decide +kernel

/-- A label before an `.align` that emits nothing is the next item that emits: a 64-bit word behind its padding (R63, R71). -/
theorem test_label_past_padding :
    (assemble 0 0x1000 [] [asmLine (.word (.addi 0 0 0) []), { labels := ["x"], locals := [], stmt := .align (.int 2) },
      asmLine (.word (.vadd (node8 3 8 0x48 0 13 2 0 1)) [])]).map (fun o => o.syms) = some [("x", ⟨.label .text, 8⟩)] := by decide +kernel

/-- Errors (R66, R67, R69, R74): a shift by 64, an unassigned register, a step that is no word, `%pclo` without its `auipc`, a label
less a number; and a backward branch to a local label, which is none. -/
theorem test_assembly_errors :
    asmOne (.word (.slli 1 1 0) [(.sh6, .val (.int 64))]) = none ∧ asmOne (.word (.csrld 1 0x9) []) = none ∧
    asmOne (.word (.halted ⟨0, 0, 0⟩) []) = none ∧ asmOne (.word (.addi 1 1 0) [(.imm14, .pclo (.int 0))]) = none ∧
    assemble 0 0 [] [{ labels := ["a"], locals := [], stmt := .bytes 8 [.bin .sub (.sym "a") (.int 4)] }] = none ∧
    (assemble 0 0 [] [{ labels := [], locals := [1], stmt := .word (.addi 0 0 0) [] },
      asmLine (.word (.beq 0 0 0) [(.off14, .val (.back 1))])]).map (fun o => o.text.drop 4) = some (leBytes 4 (encode (.beq 0 0 16383))) := by
  decide +kernel

/-- Expressions (R68): truncating division, precedence in the tree, an error for a shift by 64. -/
theorem test_expressions :
    asmEval ⟨[], []⟩ 0 ⟨.label .text, 0⟩ (.bin .div (.int (-7)) (.int 2)) = some ⟨.abs, -3⟩ ∧
    asmEval ⟨[], []⟩ 0 ⟨.label .text, 0⟩ (.bin .shl (.int 1) (.int 64)) = none ∧
    asmEval ⟨[("a", ⟨.label .text, 8⟩)], []⟩ 0 ⟨.label .text, 0x20⟩ (.bin .sub .dot (.sym "a")) = some ⟨.abs, 0x18⟩ := by decide +kernel

/-- The reach of R74, and a branch target that is no multiple of 4 (R66, R76). -/
theorem test_relocations :
    (relocValue .pchi19 (2 ^ 32 - 8193) 0 0).isSome = true ∧ relocValue .pchi19 (2 ^ 32 - 8192) 0 0 = none ∧
    relocValue .branch14 10 0 0 = none ∧ relocValue .branch14 0 0 8 = some 16382 := by decide +kernel

/-- The hypotheses of `LiAndLaLoadTheirValues` are met. -/
theorem witness_la : (pseudoWords (hart.me.pc.toNat : Int) (.la 8 0x40001)).isSome = true ∧ (-2 ^ 63 : Int) ≤ -5 := by decide +kernel

/-- `li` of a negative number of many words. -/
theorem test_li_runs : gOut (runAll (liWords 8 5 (-0x123456789ABCDEF)) hart) 8 = some (BitVec.ofInt 64 (-0x123456789ABCDEF), 0#5) := by
  decide +kernel

end Tests
end Sys2Proof
end

section
/-! The immediate forms of majors 0x04-0x0A (spec/05_scalar_ops.md R107): the reading of the 14-bit immediate, the shape
of an immediate form, and the words. -/

namespace Sys2Proof
namespace Machine

/-! ### Values: the model's words against the manual's numbers -/

/-- The immediate of an instruction is the signed number of its 14 bits (spec/02_encoding.md R34). -/
theorem imm14_eq_ofInt (n : Fin 16384) : imm14 n = BitVec.ofInt 64 (simm n) := by
  have htop : (BitVec.ofNat 14 n.val).toInt = simm n := by
    rw [BitVec.toInt_ofNat', simm]
    split <;> simp only [Int.bmod] <;> omega
  rw [imm14, BitVec.signExtend, htop]

/-- The signed value of the immediate word is the immediate: it fits in 64 bits. -/
theorem toInt_imm14 (n : Fin 16384) : (imm14 n).toInt = simm n := by
  have hrange : -8192 ≤ simm n ∧ simm n < 8192 := by
    unfold simm
    split <;> omega
  rw [imm14_eq_ofInt, BitVec.toInt_ofInt]
  exact Int.bmod_eq_of_le (by omega) (by omega)

/-- Adding the immediate's word adds the immediate to the signed value, wrapping. -/
theorem add_imm14 (x : Word) (n : Fin 16384) : x + imm14 n = BitVec.ofInt 64 (x.toInt + simm n) := by
  rw [BitVec.ofInt_add, BitVec.ofInt_toInt, imm14_eq_ofInt]

/-- The model's w32 is the manual's (R106). -/
theorem w32_eq_low32 (x : Word) : w32 x = low32 x := by
  rw [w32, low32, BitVec.signExtend, BitVec.ofNat_toNat]

/-- A truth value as a word. -/
theorem boolW_eq_one {b : Bool} {p : Prop} [Decidable p] (h : b = true ↔ p) : boolW b = one p := by
  simp only [boolW, one, h]

/-! ### The shape of an immediate form -/

/-- An instruction of one source whose operation, at each immediate, is f of the source and the immediate's number. -/
theorem immForm_of_alu1 {i : Reg → Reg → Fin 16384 → Instr} {f : Word → Int → Word} (g : Fin 16384 → Word → Word)
    (hexec : ∀ d a n s, exec (i d a n) s = alu1 (g n) d a s) (hval : ∀ n x, g n x = f x (simm n)) : ImmForm i f := by
  intro s d a n
  apply gives_plain
  rw [hexec, alu1, hval, rd]

theorem addi_immForm : ImmForm .addi (fun a i => BitVec.ofInt 64 (a.toInt + i)) :=
  immForm_of_alu1 (fun n x => x + imm14 n) (fun _ _ _ _ => rfl) (fun n x => add_imm14 x n)

theorem andi_immForm : ImmForm .andi (fun a i => a &&& BitVec.ofInt 64 i) :=
  immForm_of_alu1 (fun n x => x &&& imm14 n) (fun _ _ _ _ => rfl) fun n x => by rw [imm14_eq_ofInt]

theorem ori_immForm : ImmForm .ori (fun a i => a ||| BitVec.ofInt 64 i) :=
  immForm_of_alu1 (fun n x => x ||| imm14 n) (fun _ _ _ _ => rfl) fun n x => by rw [imm14_eq_ofInt]

theorem xori_immForm : ImmForm .xori (fun a i => a ^^^ BitVec.ofInt 64 i) :=
  immForm_of_alu1 (fun n x => x ^^^ imm14 n) (fun _ _ _ _ => rfl) fun n x => by rw [imm14_eq_ofInt]

/-- The signed comparison is between the signed numbers. -/
theorem cmplti_immForm : ImmForm .cmplti (fun a i => one (a.toInt < i)) :=
  immForm_of_alu1 (fun n x => boolW (x.slt (imm14 n))) (fun _ _ _ _ => rfl) fun n x =>
    boolW_eq_one (by rw [BitVec.slt_iff_toInt_lt, toInt_imm14])

/-- The unsigned comparison sign-extends its immediate first and then reads it without sign. -/
theorem cmpltni_immForm : ImmForm .cmpltni (fun a i => one (a.toNat < (BitVec.ofInt 64 i).toNat)) :=
  immForm_of_alu1 (fun n x => boolW (decide (x < imm14 n))) (fun _ _ _ _ => rfl) fun n x =>
    boolW_eq_one (by rw [decide_eq_true_iff, BitVec.lt_def, imm14_eq_ofInt])

theorem addiI32_immForm : ImmForm .addiI32 (fun a i => low32 (a + BitVec.ofInt 64 i)) :=
  immForm_of_alu1 (fun n x => w32 (x + imm14 n)) (fun _ _ _ _ => rfl) fun n x => by rw [w32_eq_low32, imm14_eq_ofInt]

/-! ### The words -/

/-- The fields of a word with a major opcode, two registers and an immediate stand at their places (R34, R107). -/
theorem encRdRs1Imm_major (m : Nat) (d a : Reg) (n : Fin 16384) :
    encRdRs1Imm (m * 2 ^ 24) d a n = m * 2 ^ 24 + d.val * 2 ^ 19 + a.val * 2 ^ 14 + n.val := rfl

/-- Settles O2: each form is one source and its immediate's number, and its word is the common layout at its major. -/
theorem immediateFormsWriteTheirResult : Obligations.ImmediateFormsWriteTheirResult :=
  ⟨addi_immForm, andi_immForm, ori_immForm, xori_immForm, cmplti_immForm, cmpltni_immForm, addiI32_immForm,
    fun d a n => ⟨encRdRs1Imm_major 0x04 d a n, encRdRs1Imm_major 0x05 d a n, encRdRs1Imm_major 0x06 d a n,
      encRdRs1Imm_major 0x07 d a n, encRdRs1Imm_major 0x08 d a n, encRdRs1Imm_major 0x09 d a n,
      encRdRs1Imm_major 0x0A d a n⟩⟩

end Machine
end Sys2Proof
end

section
/-! The scalar loads and stores (spec/10_memory.md R217): the value of a run of bytes, what a write at a place leaves of the
acting agent, and the shape of a load and of a store. -/

namespace Sys2Proof
namespace Machine

/-! ### The value of a run of bytes -/

/-- The manual's number of a run of bytes: its first byte, and 256 times that of the rest. -/
theorem bytesAt_succ (m : Memory) (k n : Nat) :
    bytesAt m k (n + 1) = (m.read k).toNat + 256 * bytesAt m (k + 1) n := by
  have hterm : ∀ j, (m.read (k + (j + 1))).toNat * 256 ^ (j + 1) = 256 * ((m.read (k + 1 + j)).toNat * 256 ^ j) := by
    intro j
    rw [show k + (j + 1) = k + 1 + j by omega, pow_succ]
    ring
  simp only [bytesAt, ← List.sum_eq_foldl]
  rw [List.range_succ_eq_map, List.map_cons, List.sum_cons, List.map_map, ← List.sum_map_mul_left]
  simp only [Function.comp_def, Nat.succ_eq_add_one, hterm, Nat.add_zero, pow_zero, Nat.mul_one]

/-- The model's wide read is the manual's number of the bytes (spec/00_scope.md R3). -/
theorem Memory.readLE_eq_bytesAt (m : Memory) (k n : Nat) : m.readLE k n = bytesAt m k n := by
  induction n generalizing k with
  | zero => rfl
  | succ n ih => rw [bytesAt_succ, ← ih, Memory.readLE]

/-! ### A write at a place leaves the acting agent -/

theorem setPoisonByte_me (s : State) (off : Nat) (b : Byte) : (setPoisonByte s off b).me = s.me := by
  refine List.foldlRecOn (motive := fun t : State => t.me = s.me) _ _ rfl fun t ht j _ => ?_
  split <;> exact ht

theorem setPoisonLE_me (s : State) (off n v : Nat) : (setPoisonLE s off n v).me = s.me := by
  induction n generalizing s off v with
  | zero => rfl
  | succ n ih => rw [setPoisonLE, ih, setPoisonByte_me]

/-- Every branch answers nothing or a state with another value in one device field. -/
theorem mgmtWrite_me {s t : State} {off : Nat} {v : Word} (h : mgmtWrite s off v = some t) : t.me = s.me := by
  unfold mgmtWrite at h
  split_ifs at h <;> cases h <;> rfl

/-- A write at any place, memory or device, leaves the acting agent as it was. -/
@[simp] theorem writeLoc_me (s : State) (l : Loc) (n v : Nat) : (writeLoc s l n v).me = s.me := by
  cases l with
  | mem k => rfl
  | poisonMap o => exact setPoisonLE_me s o n v
  | mgmt o =>
    simp only [writeLoc]
    generalize hw : mgmtWrite s (o / 8 * 8) _ = r
    cases r with
    | none => rfl
    | some t => exact mgmtWrite_me hw

/-! ### The shape of a load and of a store -/

/-- The address of a load or a store: the base and the immediate's signed number, wrapping. -/
theorem effAddr_eq_ofInt (s : State) (a : Reg) (n : Fin 16384) :
    effAddr s a n = BitVec.ofInt 64 ((getG s.me a).toInt + simm n) := add_imm14 (getG s.me a) n

/-- A load at an aligned address that translates writes the extended value of the place to rd. -/
theorem load_aligned {n : Nat} {ext : Nat → Word} {s : State} {d a : Reg} {m : Fin 16384} {l : Loc}
    (halign : (effAddr s a m).toNat % n = 0) (hl : resolveScalar s .read (effAddr s a m).toNat = .ok l) :
    load n ext d a m s = scalar s [a] (.done (wr s d (ext (readLoc s l n)))) := by
  simp [load, halign, hl]

/-- A store at an aligned address that translates writes at the place and moves the PC past its word. -/
theorem store_aligned {n : Nat} {s : State} {b a : Reg} {m : Fin 16384} {l : Loc} (hc : Clean s [a, b])
    (halign : (effAddr s a m).toNat % n = 0) (hl : resolveScalar s .write (effAddr s a m).toNat = .ok l) :
    store n b a m s = .next (setPc (writeLoc s l n (getG s.me b).toNat) (s.me.pc + 4#64)) := by
  simp [store, halign, hl, scalar_clean hc, rd]

/-- An instruction that is a load of n bytes. -/
theorem loadForm_of_load {i : Reg → Reg → Fin 16384 → Instr} {n : Nat} {f : Nat → Word}
    (hexec : ∀ d a m s, exec (i d a m) s = load n f d a m s) : LoadForm i n f := by
  intro s d a m l halign hl
  refine ⟨gives_plain ((hexec d a m s).trans (load_aligned halign hl)), ?_⟩
  rintro k rfl
  exact Memory.readLE_eq_bytesAt s.mem k n

/-- An instruction that is a store of n bytes. -/
theorem storeForm_of_store {i : Reg → Reg → Fin 16384 → Instr} {n : Nat}
    (hexec : ∀ b a m s, exec (i b a m) s = store n b a m s) : StoreForm i n := by
  intro s b a m l hc halign hl
  have hrun := (hexec b a m s).trans (store_aligned hc halign hl)
  refine ⟨hrun, ?_⟩
  rintro k rfl hwf
  exact ⟨_, hrun, fun j hj => Memory.read_writeLE_inside n k _ j hwf hj,
    fun j hj => Memory.read_writeLE_outside n k _ j hwf hj, rfl⟩

/-! ### The words -/

/-- The fields of a store's word stand where those of a load's do, rs2 in the place of rd (R34, R217). -/
theorem encRs2Rs1Imm_major (m : Nat) (b a : Reg) (n : Fin 16384) :
    encRs2Rs1Imm (m * 2 ^ 24) b a n = m * 2 ^ 24 + b.val * 2 ^ 19 + a.val * 2 ^ 14 + n.val := rfl

/-- Settles O5: each form is the shared load or store at its size and extension, and its word is the common layout at its
major. -/
theorem loadsAndStoresMoveTheirBytes : Obligations.LoadsAndStoresMoveTheirBytes :=
  ⟨effAddr_eq_ofInt,
    loadForm_of_load fun _ _ _ _ => rfl, loadForm_of_load fun _ _ _ _ => rfl, loadForm_of_load fun _ _ _ _ => rfl,
    loadForm_of_load fun _ _ _ _ => rfl, loadForm_of_load fun _ _ _ _ => rfl, loadForm_of_load fun _ _ _ _ => rfl,
    loadForm_of_load fun _ _ _ _ => rfl,
    storeForm_of_store fun _ _ _ _ => rfl, storeForm_of_store fun _ _ _ _ => rfl,
    storeForm_of_store fun _ _ _ _ => rfl, storeForm_of_store fun _ _ _ _ => rfl,
    fun d a n => ⟨encRdRs1Imm_major 0x10 d a n, encRdRs1Imm_major 0x11 d a n, encRdRs1Imm_major 0x12 d a n,
      encRdRs1Imm_major 0x13 d a n, encRdRs1Imm_major 0x14 d a n, encRdRs1Imm_major 0x15 d a n,
      encRdRs1Imm_major 0x16 d a n, encRs2Rs1Imm_major 0x18 d a n, encRs2Rs1Imm_major 0x19 d a n,
      encRs2Rs1Imm_major 0x1A d a n, encRs2Rs1Imm_major 0x1B d a n⟩⟩

end Machine
end Sys2Proof
end

section
/-! Another value in a register of the acting agent (spec/11_consistency.md R235): what of the state it leaves, and how the
operations that every instruction shares carry it along. -/

namespace Sys2Proof
namespace Machine

/-! ### Another value in a register -/

/-- Another value for a g, v or m register of the acting agent. -/
inductive OtherReg where
  | g (k : Reg) (x : Word)
  | v (k : Reg) (data : BitVec 262144) (scale : BitVec 18432)
  | m (k : Fin 8) (bits : BitVec 65536)

namespace OtherReg

/-- The register's number among those that an instruction computes from. -/
def key : OtherReg → Nat
  | .g k _ => k.val
  | .v k _ _ => 32 + k.val
  | .m k _ => 64 + k.val

/-- The g registers with the value in its place. -/
def inG : OtherReg → Vector Word 32 → Vector Word 32
  | .g k x, r => r.set k x
  | _, r => r

/-- The v registers with the value in its place. -/
def inRegs : OtherReg → VRegs → VRegs
  | .v k data scale, r => { data := r.data.set k data, scale := r.scale.set k scale }
  | _, r => r

/-- The m registers with the value in its place. -/
def inMasks : OtherReg → Vector (BitVec 65536) 8 → Vector (BitVec 65536) 8
  | .m k bits, ms => ms.set k bits
  | _, ms => ms

/-- Vector state with the value in its place. -/
def inVec (o : OtherReg) (v : VecState) : VecState := { v with regs := o.inRegs v.regs, masks := o.inMasks v.masks }

/-- An agent with the value in its place. -/
def inAgent (o : OtherReg) (a : Agent) : Agent := { a with g := o.inG a.g, vec := o.inVec a.vec }

/-- A state with the value in its place. -/
def inState (o : OtherReg) (s : State) : State := { s with me := o.inAgent s.me }

/-- How an instruction ends, with the value in its place. -/
def inAns (o : OtherReg) : Ans → Ans
  | .done s => .done (o.inState s)
  | .jump s pc => .jump (o.inState s) pc
  | .trap s t => .trap (o.inState s) t
  | .wait s => .wait (o.inState s)

end OtherReg

/-! ### What it leaves -/

section
variable (o : OtherReg) (s : State)

@[simp] theorem inState_me : (o.inState s).me = o.inAgent s.me := rfl
@[simp] theorem inAgent_id (a : Agent) : (o.inAgent a).id = a.id := rfl
@[simp] theorem inAgent_mode (a : Agent) : (o.inAgent a).mode = a.mode := rfl
@[simp] theorem inAgent_pc (a : Agent) : (o.inAgent a).pc = a.pc := rfl
@[simp] theorem inAgent_vec (a : Agent) : (o.inAgent a).vec = o.inVec a.vec := rfl
@[simp] theorem inVec_regs (v : VecState) : (o.inVec v).regs = o.inRegs v.regs := rfl
@[simp] theorem inVec_masks (v : VecState) : (o.inVec v).masks = o.inMasks v.masks := rfl
@[simp] theorem inVec_acc (v : VecState) : (o.inVec v).acc = v.acc := rfl
@[simp] theorem inVec_vstart (v : VecState) : (o.inVec v).vstart = v.vstart := rfl
@[simp] theorem inVec_vlLen (v : VecState) : (o.inVec v).vlLen = v.vlLen := rfl

@[simp] theorem lanesIn_inState : lanesIn (o.inState s) = lanesIn s := rfl
@[simp] theorem evlOf_inState (t : Nat) : evlOf (o.inState s) t = evlOf s t := rfl
@[simp] theorem modeAt_inState (w : VWord) (i : Nat) : modeAt (o.inState s) w i = modeAt s w i := rfl
@[simp] theorem scalarMode_inState (rm : Fin 8) : scalarMode (o.inState s) rm = scalarMode s rm := rfl

/-- Setting `VSTART` and adding flags carries it along. -/
@[simp] theorem vfinish_inState (v : VecState) (fl : BitVec 5) :
    vfinish (o.inState s) (o.inVec v) fl = o.inState (vfinish s v fl) := rfl

end

/-! ### Reads of other registers -/

/-- The value is in no g register but its own. -/
theorem rd_inState {o : OtherReg} {r : Reg} (h : o.key ≠ r.val) (s : State) : rd (o.inState s) r = rd s r := by
  cases o with
  | g k x =>
    have hk : k.val ≠ r.val := h
    simp [rd, getG, OtherReg.inAgent, OtherReg.inG, hk]
  | v => rfl
  | m => rfl

/-- Nor in other elements. -/
theorem data_inRegs {o : OtherReg} {r : Reg} (h : o.key ≠ 32 + r.val) (v : VRegs) : (o.inRegs v).data[r] = v.data[r] := by
  cases o with
  | v k data scale =>
    have hk : k.val ≠ r.val := fun e => h (by simp [OtherReg.key, e])
    simp [OtherReg.inRegs, hk]
  | g => rfl
  | m => rfl

/-- Nor in other scales. -/
theorem scale_inRegs {o : OtherReg} {r : Reg} (h : o.key ≠ 32 + r.val) (v : VRegs) : (o.inRegs v).scale[r] = v.scale[r] := by
  cases o with
  | v k data scale =>
    have hk : k.val ≠ r.val := fun e => h (by simp [OtherReg.key, e])
    simp [OtherReg.inRegs, hk]
  | g => rfl
  | m => rfl

/-- A write of other elements carries it along. -/
theorem setData_inRegs {o : OtherReg} {r : Reg} (h : o.key ≠ 32 + r.val) (v : VRegs) (x : BitVec 262144) :
    { o.inRegs v with data := (o.inRegs v).data.set r x } = o.inRegs { v with data := v.data.set r x } := by
  cases o with
  | v k data scale =>
    have hk : k.val ≠ r.val := fun e => h (by simp [OtherReg.key, e])
    simp [OtherReg.inRegs, Vector.set_comm _ _ hk]
  | g => rfl
  | m => rfl

/-- So does a write of other scales. -/
theorem setScale_inRegs {o : OtherReg} {r : Reg} (h : o.key ≠ 32 + r.val) (v : VRegs) (x : BitVec 18432) :
    { o.inRegs v with scale := (o.inRegs v).scale.set r x } = o.inRegs { v with scale := v.scale.set r x } := by
  cases o with
  | v k data scale =>
    have hk : k.val ≠ r.val := fun e => h (by simp [OtherReg.key, e])
    simp [OtherReg.inRegs, Vector.set_comm _ _ hk]
  | g => rfl
  | m => rfl

/-- The value is in no m register but its own, and m0 has none (spec/06_vector_arith.md R127). -/
theorem maskBitOf_inMasks {o : OtherReg} {n : Nat} (h : o.key ≠ 64 + n % 8) (ms : Vector (BitVec 65536) 8) (i : Nat) :
    maskBitOf (o.inMasks ms) n i = maskBitOf ms n i := by
  cases o with
  | m k bits =>
    have hk : k.val ≠ n % 8 := fun e => h (by simp [OtherReg.key, e])
    simp [maskBitOf, OtherReg.inMasks, hk]
  | g => rfl
  | v => rfl

/-! ### Traps carry it along -/

theorem writePhys_inState (o : OtherReg) (s : State) (pa n v : Nat) :
    writePhys (o.inState s) pa n v = o.inState (writePhys s pa n v) := by
  unfold writePhys
  split <;> rfl

theorem writeWords_inState (o : OtherReg) (s : State) (pa : Nat) (w : Vector Word 8) :
    writeWords (o.inState s) pa w = o.inState (writeWords s pa w) :=
  List.foldl_hom o.inState fun s _ => writePhys_inState o s _ _ _

/-- The value is in the agent of that name where it is the acting one. -/
theorem agentOf_inState (o : OtherReg) (s : State) (i : AgentId) :
    agentOf (o.inState s) i = if s.me.id = i then o.inAgent (agentOf s i) else agentOf s i := by
  by_cases h : s.me.id = i <;> simp [agentOf, h, OtherReg.inState]

/-- A change of an agent, found by its name, that keeps the name and commutes with the other value. -/
theorem putAgent_agentOf_inState {o : OtherReg} {f : Agent → Agent} (hid : ∀ a, (f a).id = a.id)
    (hf : ∀ a, f (o.inAgent a) = o.inAgent (f a)) (s : State) (i : AgentId) :
    putAgent (o.inState s) (f (agentOf (o.inState s) i)) = o.inState (putAgent s (f (agentOf s i))) := by
  have hi : (f (agentOf s i)).id = i := (hid _).trans (agentOf_id s i)
  rw [agentOf_inState]
  by_cases h : s.me.id = i
  · simp [putAgent, h, hi, hf, OtherReg.inState]
  · simp [putAgent, h, hi, OtherReg.inState]

theorem interruptCc_inState (o : OtherReg) (s : State) (n : Nat) : interruptCc (o.inState s) n = o.inState (interruptCc s n) :=
  putAgent_agentOf_inState (f := fun a => { a with cc := { a.cc with fqueue := true } }) (fun _ => rfl) (fun _ => rfl) s _

theorem writeRecord_inState (o : OtherReg) (s : State) (t : Tenancy) (w : Vector Word 8) :
    writeRecord (o.inState s) t w = o.inState (writeRecord s t w) := by
  have hmem : (o.inState s).mem = s.mem := rfl
  simp only [writeRecord, hmem, writeWords_inState, writePhys_inState]
  exact List.foldl_hom o.inState fun s n => interruptCc_inState o s n

theorem flushRecords_inState (o : OtherReg) (ten fuel : Nat) (s : State) :
    flushRecords ten fuel (o.inState s) = o.inState (flushRecords ten fuel s) := by
  induction fuel generalizing s with
  | zero => rfl
  | succ fuel ih =>
    have hten : tenOf (o.inState s) ten = tenOf s ten := rfl
    have hroom : ∀ t, ringRoom (o.inState s) t = ringRoom s t := fun _ => rfl
    simp only [flushRecords, hten]
    split
    · rfl
    · rw [hroom, writeRecord_inState]
      split
      · exact ih (putTen _ ten _)
      · rfl

theorem freeCount_inState (o : OtherReg) (s : State) (ten fuel k : Nat) :
    freeCount (o.inState s) ten fuel k = freeCount s ten fuel k := by
  induction fuel generalizing k with
  | zero => rfl
  | succ fuel ih => simp only [freeCount, ih]; rfl

/-- A record written, or kept where the ring has no room for it (spec/16_isolation.md R376). -/
theorem placeRecord_inState (o : OtherReg) (s : State) (c : Bool) (t t' : Tenancy) (w : Vector Word 8) (n token : Nat) :
    (if c then (writeRecord (o.inState s) t w, token) else (putTen (o.inState s) n t', token)) =
      (o.inState (if c then (writeRecord s t w, token) else (putTen s n t', token)).1,
        (if c then (writeRecord s t w, token) else (putTen s n t', token)).2) := by
  cases c with
  | true => exact congrArg (·, token) (writeRecord_inState o s t w)
  | false => rfl

/-- Posting a record reads and writes nothing that the value has a part in. -/
theorem postRecord_inState (o : OtherReg) (s : State) (ten : BitVec 6) (kind cause struct_ : Nat) (va who entry access : Word)
    (subject : Option Subject) :
    postRecord (o.inState s) ten kind cause struct_ va who entry access subject =
      (o.inState (postRecord s ten kind cause struct_ va who entry access subject).1,
        (postRecord s ten kind cause struct_ va who entry access subject).2) := by
  have hten : ∀ s n, tenOf (o.inState s) n = tenOf s n := fun _ _ => rfl
  have hrecords : ∀ s : State, (o.inState s).records = s.records := fun _ => rfl
  unfold postRecord
  simp only [hten, flushRecords_inState, hrecords, freeCount_inState]
  generalize flushRecords ten.toNat _ s = s₁
  generalize freeCount s₁ _ _ _ = count
  cases subject with
  | some sub => exact placeRecord_inState o { putTen s₁ _ _ with records := _ } _ _ _ _ _ _
  | none => exact placeRecord_inState o (putTen s₁ _ _) _ _ _ _ _ _

theorem park_inState (o : OtherReg) (s : State) (h : HartId) (t : Trap) (page : Bool) :
    park (o.inState s) h t page = o.inState (park s h t page) := by
  have hpost := postRecord_inState o s s.me.ten (if page then 1 else 2) t.cause 0 (recordVa t)
    (recordWho h 0 s.me.asid.toNat) (recordEntry s.me.task) (BitVec.ofNat 64 t.access)
    (some (if page then .hartPage h else .hartFault h))
  exact congrArg (fun p : State × Nat => { p.1 with me := { p.1.me with status := .parked p.2 page } }) hpost

/-- A trap is taken alike, and the register keeps its value. -/
theorem takeTrap_inState (o : OtherReg) (s : State) (t : Trap) : takeTrap (o.inState s) t = o.inState (takeTrap s t) := by
  unfold takeTrap
  simp only [inState_me, inAgent_id, inAgent_mode]
  cases s.me.id with
  | cc n => rfl
  | hart h =>
    by_cases hpage : t.cause = cPfault ∧ t.runrep = false
    · simp only [hpage, and_self, if_true]
      exact park_inState o s h t true
    · by_cases huser : s.me.mode = .u
      · simp only [hpage, huser, if_true, if_false]
        rfl
      · simp only [hpage, huser, if_false]
        exact park_inState o s h t false

/-! ### The vector switch carries it along -/

theorem poisonAgent_inAgent (o : OtherReg) (a : Agent) (u : RegUnit) :
    poisonAgent (o.inAgent a) u = o.inAgent (poisonAgent a u) := by cases u <;> rfl

theorem poisonSaved_inAgent (o : OtherReg) (s : State) (core : Nat) (a : Agent) :
    poisonSaved (o.inState s) core (o.inAgent a) = o.inAgent (poisonSaved s core a) := by
  refine List.foldl_hom o.inAgent fun a line => ?_
  rw [poisonAgent_inAgent]
  exact (apply_ite o.inAgent _ _ _).symm

theorem keepsState_inState (o : OtherReg) (s : State) (h : HartId) : keepsState (o.inState s) h = keepsState s h := by
  have htask : (hartOf (o.inState s) h).task = (hartOf s h).task := by
    rw [hartOf, agentOf_inState]
    exact (apply_ite Agent.task _ _ _).trans (ite_self _)
  simp only [keepsState, htask]
  rfl

theorem releaseRows_inState (o : OtherReg) (s : State) (core : Nat) (rows : List Nat) :
    releaseRows (o.inState s) core rows = o.inState (releaseRows s core rows) :=
  List.foldl_hom o.inState fun _ _ => rfl

/-- What Kiln's service does for one other owner of the lanes (spec/17_traps.md R404). -/
def saveOwner (s : State) (p : HartId) : State :=
  if keepsState s p then putAgent s (poisonSaved s (hartCore p) { hartOf s p with inRows := true }) else s

/-- The other owners of the lanes of an agent's partition. -/
def otherOwners (s : State) (h : HartId) : List HartId :=
  ((s.laneOwner.filter (fun p => (lanesOf s.me h).contains p.1 && p.2 != h)).map (fun p => p.2)).eraseDups

/-- The lanes of the partition are the hart's. -/
def ownLanes (s : State) (h : HartId) (ls : List Nat) (owners : List HartId) : State :=
  let kept := s.laneOwner.filter (fun p => !(owners.contains p.2) && p.2 != h)
  { s with laneOwner := ls.foldl (fun l j => tset j h l) kept }

/-- The hart's own state comes back from its save rows. -/
def loadBack (s : State) (h : HartId) : State :=
  let back := s.me.inRows && !s.me.reclaimed
  let rows := s.me.saveRows
  let s := if back then releaseRows s (hartCore h) rows else s
  { s with me := { s.me with inRows := false, saveRows := if back then [] else rows } }

/-- The hart's state does not lie in save rows, and these are its rows. -/
def outOfRows (s : State) (rows : List Nat) : State := { s with me := { s.me with inRows := false, saveRows := rows } }

theorem loadBack_eq (s : State) (h : HartId) :
    loadBack s h = if s.me.inRows && !s.me.reclaimed then outOfRows (releaseRows s (hartCore h) s.me.saveRows) []
      else outOfRows s s.me.saveRows := by
  unfold loadBack
  cases s.me.inRows && !s.me.reclaimed <;> rfl

theorem vsave_cc {s : State} {n : Fin 32} (hid : s.me.id = .cc n) : vsave s = s := by
  unfold vsave
  split
  · rfl
  · next h hn => rw [hid] at hn; cases hn

theorem vsave_hart {s : State} {h : HartId} (hid : s.me.id = .hart h) :
    vsave s = loadBack (ownLanes ((otherOwners s h).foldl saveOwner s) h (lanesOf s.me h) (otherOwners s h)) h := by
  unfold vsave
  split
  · next n hn => rw [hid] at hn; cases hn
  · next h' hn =>
    obtain rfl : h = h' := by rw [hid] at hn; cases hn; rfl
    rfl

theorem saveOwner_inState (o : OtherReg) (s : State) (p : HartId) : saveOwner (o.inState s) p = o.inState (saveOwner s p) := by
  have hput := putAgent_agentOf_inState (o := o) (f := fun a => poisonSaved s (hartCore p) { a with inRows := true })
    (fun a => by simp) (fun a => poisonSaved_inAgent o s (hartCore p) { a with inRows := true }) s (.hart p)
  rw [saveOwner, keepsState_inState, saveOwner, apply_ite o.inState]
  exact congrArg (fun x => if keepsState s p then x else o.inState s) hput

theorem loadBack_inState (o : OtherReg) (s : State) (h : HartId) : loadBack (o.inState s) h = o.inState (loadBack s h) := by
  have hback : ((o.inState s).me.inRows && !(o.inState s).me.reclaimed) = (s.me.inRows && !s.me.reclaimed) := rfl
  rw [loadBack_eq, loadBack_eq, hback]
  split
  · exact congrArg (outOfRows · []) (releaseRows_inState o s (hartCore h) s.me.saveRows)
  · rfl

/-- Kiln's service carries it along. -/
theorem vsave_inState (o : OtherReg) (s : State) : vsave (o.inState s) = o.inState (vsave s) := by
  cases hid : s.me.id with
  | cc n => rw [vsave_cc hid, vsave_cc (s := o.inState s) hid]
  | hart h =>
    have hfold : (otherOwners s h).foldl saveOwner (o.inState s) = o.inState ((otherOwners s h).foldl saveOwner s) :=
      List.foldl_hom o.inState fun s p => saveOwner_inState o s p
    rw [vsave_hart hid, vsave_hart (s := o.inState s) hid, ← loadBack_inState]
    exact congrArg (fun t => loadBack (ownLanes t h (lanesOf s.me h) (otherOwners s h)) h) hfold

/-! ### What every instruction answers carries it along -/

/-- The end of an instruction. -/
theorem finish_inAns {o : OtherReg} {n : Nat} {a : Ans} {t : State} (h : finish n a = .next t) :
    finish n (o.inAns a) = .next (o.inState t) := by
  cases a <;> cases h
  case done s => rfl
  case jump s pc => rfl
  case trap s x => exact congrArg Host.Outcome.next (takeTrap_inState o s x)
  case wait => rfl

theorem unitBad_inAgent (o : OtherReg) (a : Agent) : unitBad (o.inAgent a) = unitBad a := by
  funext u
  cases u <;> rfl

theorem withUnits_inState (o : OtherReg) (s : State) (us : List RegUnit) (k : Ans) :
    withUnits (o.inState s) us (o.inAns k) = o.inAns (withUnits s us k) := by
  have hclean : cleanAgent (o.inState s).me = cleanAgent s.me := rfl
  unfold withUnits
  rw [hclean, inState_me, unitBad_inAgent]
  split
  · rfl
  · split <;> rfl

end Machine
end Sys2Proof
end

section
/-! An instruction computes from its registers alone (spec/11_consistency.md R235): what another value in a register may become, and
the 32-bit words. -/

namespace Sys2Proof
namespace Machine

/-! ### The same but for the register -/

/-- What another value in a register may be after an instruction that writes these registers: itself, or, in a g register that it
writes, any. -/
def OtherReg.Leaves (o : OtherReg) (writes : List Nat) (o' : OtherReg) : Prop :=
  o' = o ∨ ∃ k x y, o = .g k x ∧ o' = .g k y ∧ k.val ∈ writes

/-- One answer is the other but for the value in the register. -/
def OtherReg.Follows (o : OtherReg) (writes : List Nat) (a b : Ans) : Prop := ∃ o', o.Leaves writes o' ∧ b = o'.inAns a

variable {o : OtherReg} {writes : List Nat}

theorem OtherReg.Follows.of_eq {a b : Ans} (h : b = o.inAns a) : o.Follows writes a b := ⟨o, .inl rfl, h⟩

/-- A write of a g register: another value there is gone. -/
theorem wr_inState (s : State) (d : Reg) (v : Word) :
    ∃ o', o.Leaves [d.val] o' ∧ wr (o.inState s) d v = o'.inState (wr s d v) := by
  by_cases hd : d = 0
  · exact ⟨o, .inl rfl, by simp [hd]⟩
  · cases o with
    | v => exact ⟨_, .inl rfl, by simp only [wr, setG, hd]; rfl⟩
    | m => exact ⟨_, .inl rfl, by simp only [wr, setG, hd]; rfl⟩
    | g k x =>
      by_cases hk : k = d
      · refine ⟨.g k v, .inr ⟨k, x, v, rfl, rfl, by simp [hk]⟩, ?_⟩
        subst hk
        simp [wr, setG, hd, OtherReg.inState, OtherReg.inAgent, OtherReg.inG, OtherReg.inVec, OtherReg.inRegs, OtherReg.inMasks]
      · have hne : k.val ≠ d.val := fun e => hk (Fin.ext e)
        refine ⟨.g k x, .inl rfl, ?_⟩
        simp [wr, setG, hd, OtherReg.inState, OtherReg.inAgent, OtherReg.inG, OtherReg.inVec, OtherReg.inRegs, OtherReg.inMasks,
          Vector.set_comm _ _ hne]

/-- An instruction that writes a g register, and then changes what no register bears on. -/
theorem OtherReg.Follows.of_wr {d : Reg} (f : State → Ans) (hf : ∀ (o : OtherReg) s, f (o.inState s) = o.inAns (f s)) (s : State) (v : Word) :
    o.Follows [d.val] (f (wr s d v)) (f (wr (o.inState s) d v)) := by
  obtain ⟨o', hl, hw⟩ := wr_inState (o := o) s d v
  exact ⟨o', hl, by rw [hw, hf]⟩

theorem OtherReg.Follows.withG {s : State} {rs : List Reg} {a b : Ans} (h : o.Follows writes a b) :
    o.Follows writes (withG s rs a) (withG (o.inState s) rs b) := by
  have hbad : poisonedG (o.inState s).me rs = poisonedG s.me rs := rfl
  unfold Machine.withG
  rw [hbad]
  split
  · exact .of_eq rfl
  · exact h

theorem OtherReg.Follows.withUnits {s : State} {us : List RegUnit} {a b : Ans} (h : o.Follows writes a b) :
    o.Follows writes (withUnits s us a) (withUnits (o.inState s) us b) := by
  have hclean : cleanAgent (o.inState s).me = cleanAgent s.me := rfl
  unfold Machine.withUnits
  rw [hclean, inState_me, unitBad_inAgent]
  split
  · exact h
  · split
    · exact .of_eq rfl
    · exact h

theorem OtherReg.Follows.runGate {s : State} {a b : Ans} (h : o.Follows writes a b) :
    o.Follows writes (runGate s a) (runGate (o.inState s) b) := by
  unfold Machine.runGate
  have hrun : (o.inState s).me.vec.rRun = s.me.vec.rRun := rfl
  have hpend : (o.inState s).me.vec.rPend = s.me.vec.rPend := rfl
  rw [hrun, hpend]
  split
  · exact .of_eq rfl
  · split
    · exact .of_eq rfl
    · exact h

/-- What the instruction then does to the state. -/
theorem OtherReg.Follows.finish {n : Nat} {a b : Ans} {t : State} (h : o.Follows writes a b) (ht : finish n a = .next t) :
    ∃ o', o.Leaves writes o' ∧ finish n b = .next (o'.inState t) := by
  obtain ⟨o', hl, rfl⟩ := h
  exact ⟨o', hl, finish_inAns ht⟩

/-- A node word whose own effect follows does so, past the vector switch and the report of a run. -/
theorem OtherReg.Follows.node {op : VOp} {w : VWord} {s t : State} {k : State → Ans}
    (hk : vfate op w = .ok () → ∀ s, o.Follows writes (k s) (k (o.inState s))) (ht : node op w s k = .next t) :
    ∃ o', o.Leaves writes o' ∧ node op w (o.inState s) k = .next (o'.inState t) := by
  unfold Machine.node at ht ⊢
  refine OtherReg.Follows.finish ?_ ht
  split
  · exact .of_eq rfl
  · exact .of_eq rfl
  · next hok =>
    unfold hartOnly
    simp only [inState_me, inAgent_id]
    split
    · simp only [vectorState, vsave_inState]
      exact (hk hok (vsave s)).runGate
    · exact .of_eq rfl

/-- The register uses of an instruction, from what another value in one register that it does not compute from becomes. -/
theorem onlyThose_of {i : Instr}
    (h : ∀ (o : OtherReg) s t, o.key ∉ computesFrom i → exec i s = .next t →
      ∃ o', o.Leaves (usesOf i (.inline false)).writes o' ∧ exec i (o.inState s) = .next (o'.inState t)) : OnlyThose i := by
  intro s t ht
  refine ⟨fun k x hk => ?_, fun k data scale hk => ?_, fun k bits hk => ?_⟩
  · obtain ⟨_, rfl | ⟨k', x', y, ho, rfl, hw⟩, he⟩ := h (.g k x) s t hk ht
    · exact ⟨x, he, fun _ => rfl⟩
    · cases ho
      exact ⟨y, he, fun hn => absurd hw hn⟩
  · obtain ⟨_, rfl | ⟨_, _, _, ho, _⟩, he⟩ := h (.v k data scale) s t hk ht
    · exact he
    · cases ho
  · obtain ⟨_, rfl | ⟨_, _, _, ho, _⟩, he⟩ := h (.m k bits) s t hk ht
    · exact he
    · cases ho

/-! ### The 32-bit words -/

/-- A 32-bit word whose own effect follows where the registers that it reads are the same. -/
theorem onlyThose_scalar {i : Instr} {u rs : List Reg} {k : State → Ans} (hexec : ∀ s, exec i s = scalar s u (k s))
    (huse : computesFrom i = gs rs)
    (hk : ∀ (o : OtherReg) s, (∀ r ∈ rs, rd (o.inState s) r = rd s r) →
      o.Follows (usesOf i (.inline false)).writes (k s) (k (o.inState s))) : OnlyThose i := by
  refine onlyThose_of fun o s t ho ht => ?_
  have hrd : ∀ r ∈ rs, rd (o.inState s) r = rd s r := fun r hr =>
    rd_inState (fun e => ho (by rw [huse, e]; exact List.mem_map_of_mem hr)) s
  rw [hexec] at ht ⊢
  exact (hk o s hrd).withG.finish ht

/-- A word that writes a result computed from its registers, and what else no register bears on. -/
theorem onlyThose_result {i : Instr} {d : Reg} {rs : List Reg} {v : State → Word} (hexec : ∀ s, exec i s = scalar s rs (.done (wr s d (v s))))
    (huse : usesOf i (.inline false) = plainUse rs [d])
    (hv : ∀ (o : OtherReg) s, (∀ r ∈ rs, rd (o.inState s) r = rd s r) → v (o.inState s) = v s) : OnlyThose i := by
  refine onlyThose_scalar (rs := rs) hexec (by simp [computesFrom, huse, plainUse, noUse]) fun o s hrd => ?_
  rw [hv o s hrd, huse]
  exact .of_wr .done (fun _ _ => rfl) s _

/-- A word that writes a floating-point result computed from its registers, with its flags. -/
theorem onlyThose_float {i : Instr} {d : Reg} {rs : List Reg} {x : State → FRes} (hexec : ∀ s, exec i s = scalar s rs (fdone s d (x s)))
    (huse : usesOf i (.inline false) = plainUse rs [d])
    (hx : ∀ (o : OtherReg) s, (∀ r ∈ rs, rd (o.inState s) r = rd s r) → x (o.inState s) = x s) : OnlyThose i := by
  refine onlyThose_scalar (rs := rs) hexec (by simp [computesFrom, huse, plainUse, noUse]) fun o s hrd => ?_
  rw [hx o s hrd, huse]
  exact .of_wr (fun s => .done (raiseFlags s _)) (fun _ _ => rfl) s _

/-- A branch chooses by its two registers (spec/05_scalar_ops.md R120). -/
theorem onlyThose_branch {i : Instr} {c : State → Bool} {a b : Reg} {off : Fin 16384}
    (hexec : ∀ s, exec i s = scalar s [a, b] (if c s then jumpTo s s (target14 s off) else .done s))
    (huse : usesOf i (.inline false) = branchUse a b)
    (hc : ∀ (o : OtherReg) s, (∀ r ∈ [a, b], rd (o.inState s) r = rd s r) → c (o.inState s) = c s) : OnlyThose i := by
  refine onlyThose_scalar (rs := [a, b]) hexec (by simp [computesFrom, huse, branchUse, noUse]) fun o s hrd => .of_eq ?_
  have htarget : target14 (o.inState s) off = target14 s off := rfl
  rw [hc o s hrd, htarget]
  unfold jumpTo
  split_ifs <;> rfl

/-- A jump links and goes where its register says, or traps (R121, R122). -/
theorem onlyThose_jump {i : Instr} {d : Reg} {rs : List Reg} {target : State → Word}
    (hexec : ∀ s, exec i s = scalar s rs (jumpTo s (wr s d (s.me.pc + 4#64)) (target s)))
    (huse : usesOf i (.inline false) = plainUse rs [d])
    (htarget : ∀ (o : OtherReg) s, (∀ r ∈ rs, rd (o.inState s) r = rd s r) → target (o.inState s) = target s) : OnlyThose i := by
  refine onlyThose_scalar (rs := rs) hexec (by simp [computesFrom, huse, plainUse, noUse]) fun o s hrd => ?_
  rw [htarget o s hrd, huse]
  unfold jumpTo
  split
  · exact .of_wr (fun s' => .jump s' _) (fun _ _ => rfl) s _
  · exact .of_eq rfl

/-- The integer words of two sources, and the floating-point words of two sources that do not round, by format. -/
theorem threeRegWords_onlyThose : ∀ f ∈ threeRegWords, ∀ d a b, OnlyThose (f d a b) := by
  rw [show threeRegWords = threeRegWords.take 40 ++ threeRegWords.drop 40 from rfl, List.forall_mem_append]
  refine ⟨fun f hf d a b => ?_, fun f hf d a b => ?_⟩
  · fin_cases hf <;> exact onlyThose_result (fun _ => rfl) rfl fun o s h => by simp [h]
  · fin_cases hf <;> exact onlyThose_float (fun _ => rfl) rfl fun o s h => by simp [fop, h]

/-- The words with an immediate: seven that write a result, the branches, and `jalr`. -/
theorem immediateWords_onlyThose : ∀ f ∈ immediateWords, ∀ d a b, OnlyThose (f d a b) := by
  rw [show immediateWords = immediateWords.take 7 ++ (immediateWords.drop 7).take 6 ++ [.jalr] from rfl]
  simp only [List.forall_mem_append, List.forall_mem_singleton]
  refine ⟨⟨fun f hf d a n => ?_, fun f hf a b n => ?_⟩, fun d a n => ?_⟩
  · fin_cases hf <;> exact onlyThose_result (fun _ => rfl) rfl fun o s h => by simp [h]
  · fin_cases hf <;> exact onlyThose_branch (fun _ => rfl) rfl fun o s h => by simp [h]
  · exact onlyThose_jump (fun _ => rfl) rfl fun o s h => by simp [h]

theorem shiftWords_onlyThose : ∀ f ∈ shiftWords, ∀ d a b, OnlyThose (f d a b) := by
  intro f hf d a b
  fin_cases hf <;> exact onlyThose_result (fun _ => rfl) rfl fun o s h => by simp [h]

theorem shift32Words_onlyThose : ∀ f ∈ shift32Words, ∀ d a b, OnlyThose (f d a b) := by
  intro f hf d a b
  fin_cases hf <;> exact onlyThose_result (fun _ => rfl) rfl fun o s h => by simp [h]

/-- The upper immediates, of which `lhi` keeps the low bits of its register, and `jal`. -/
theorem upperWords_onlyThose : ∀ f ∈ upperWords, ∀ d a, OnlyThose (f d a) := by
  rw [show upperWords = upperWords.take 3 ++ [.jal] from rfl]
  simp only [List.forall_mem_append, List.forall_mem_singleton]
  refine ⟨fun f hf d n => ?_, fun d n => ?_⟩
  · fin_cases hf <;> exact onlyThose_result (fun _ => rfl) rfl fun o s h => by simp [h]
  · exact onlyThose_jump (fun _ => rfl) rfl fun _ _ _ => rfl

theorem unaryWords_onlyThose : ∀ f ∈ unaryWords, ∀ d a, OnlyThose (f d a) := by
  intro f hf d a
  fin_cases hf <;> exact onlyThose_result (fun _ => rfl) rfl fun o s h => by simp [h]

theorem roundedWords_onlyThose : ∀ f ∈ roundedWords, ∀ d a b c, OnlyThose (f d a b c) := by
  intro f hf d a b c
  fin_cases hf <;> exact onlyThose_float (fun _ => rfl) rfl fun o s h => by simp [fop, h]

theorem conversionWords_onlyThose : ∀ f ∈ conversionWords, ∀ d a b, OnlyThose (f d a b) := by
  intro f hf d a b
  fin_cases hf <;> exact onlyThose_float (fun _ => rfl) rfl fun o s h => by simp [fop, h]

theorem fusedWords_onlyThose : ∀ f ∈ fusedWords, ∀ d a b c m t, OnlyThose (f d a b c m t) := by
  intro f hf d a b c m t
  fin_cases hf <;> exact onlyThose_float (fun _ => rfl) rfl fun o s h => by simp [fop, h]

theorem scalarWordsUseTheirRegisters : ScalarWordsUseTheirRegisters :=
  ⟨threeRegWords_onlyThose, immediateWords_onlyThose, shiftWords_onlyThose, shift32Words_onlyThose, upperWords_onlyThose,
    unaryWords_onlyThose, roundedWords_onlyThose, conversionWords_onlyThose, fusedWords_onlyThose⟩

end Machine
end Sys2Proof
end

section
/-! What a node word does not compute from (spec/11_consistency.md R235): the register numbers among its uses, against the places at which
its operands are read, and the element loop. -/

namespace Sys2Proof
namespace Machine

/-! ### The uses of a node word -/

/-- A node word that is no memory port, with its own effect. -/
structure InlineForm (op : VOp) (k : VWord → State → Ans) : Prop where
  exec_eq : ∀ w s, exec (op.instr w) s = node op w s (k w)
  nodeOf_eq : ∀ w, nodeOf (op.instr w) = some (op, w)
  noPort : (loadForm op || storeForm op) = false

/-- A value in a register that is none of a node word's operands, masks and destinations that it may keep in part. -/
structure Spared (o : OtherReg) (op : VOp) (w : VWord) : Prop where
  operand : o.key ∉ operandKeys op w
  mask : o.key ∉ maskKeys w
  kept : ∀ k ∈ destKeys op w, 32 ≤ k → k < 72 → o.key ≠ k

/-- The uses of such a word where it may leave elements of its destination. -/
theorem usesOf_inline {op : VOp} {k : VWord → State → Ans} (hform : InlineForm op k) (w : VWord) :
    usesOf (op.instr w) (.inline false) =
      { noUse with
        reads := operandKeys op w ++ maskKeys w ++ [] ++ (destKeys op w).filter (fun k => 32 ≤ k && k < 72)
        addr := addrKeys op w ++ (if op = .thdec then [] else [])
        writes := destKeys op w ++ [] } := by
  simp only [usesOf, hform.nodeOf_eq, nodeUse, hform.noPort]
  rfl

theorem spared_of_notMem {op : VOp} {k : VWord → State → Ans} (hform : InlineForm op k) {o : OtherReg} {w : VWord}
    (h : o.key ∉ computesFrom (op.instr w)) : Spared o op w := by
  simp only [computesFrom, usesOf_inline hform, List.mem_append, not_or] at h
  obtain ⟨⟨⟨⟨⟨⟨⟨hoperand, hmask⟩, -⟩, hkept⟩, -⟩, -⟩, -⟩, -⟩ := h
  refine ⟨hoperand, hmask, fun k hk hlo hhi he => hkept ?_⟩
  simpa [he, hlo, hhi] using hk

/-- The uses of a node word, from what another value in a register that it spares becomes. -/
theorem onlyThose_node {op : VOp} {k : VWord → State → Ans} (hform : InlineForm op k)
    (hk : ∀ (o : OtherReg) w s, Spared o op w → vfate op w = .ok () → o.Follows (destKeys op w) (k w s) (k w (o.inState s)))
    (w : VWord) : OnlyThose (op.instr w) := by
  have hwrites : (usesOf (op.instr w) (.inline false)).writes = destKeys op w := by
    rw [usesOf_inline hform]
    exact List.append_nil _
  refine onlyThose_of fun o s t ho ht => ?_
  rw [hwrites]
  rw [hform.exec_eq] at ht ⊢
  exact OtherReg.Follows.node (fun hok s => hk o w s (spared_of_notMem hform ho) hok) ht

/-- A form whose effect carries the value along. -/
theorem onlyThose_of_inAns {op : VOp} {k : VWord → State → Ans} (hform : InlineForm op k)
    (hk : ∀ (o : OtherReg) w s, Spared o op w → vfate op w = .ok () → k w (o.inState s) = o.inAns (k w s)) (w : VWord) :
    OnlyThose (op.instr w) :=
  onlyThose_node hform (fun o w s hs hok => .of_eq (hk o w s hs hok)) w

/-! ### What a word that is not refused may name -/

/-- A word that is not refused passes tests 3 and 5 (spec/02_encoding.md R51). -/
theorem checks_of_vfate {op : VOp} {w : VWord} (h : vfate op w = .ok ()) : vcheck3 .inline w op = true ∧ vcheck5 .inline w op = true := by
  unfold vfate checkCand at h
  simp only at h
  split at h
  · next h3 =>
    split at h
    · cases h
    · split at h
      · next h5 => exact ⟨h3, h5⟩
      · cases h
  · cases h

theorem vd_lt_of_vfate {op : VOp} {w : VWord} (h : vfate op w = .ok ()) (hv : vusesVd op = true) : w.vd.val < 32 := by
  have h5 := (checks_of_vfate h).2
  simpa [vcheck5, hv] using (Bool.and_eq_true_iff.mp h5).2

theorem srcN_lt (f : Fin 512) : srcN f < 32 := Nat.mod_lt _ (by decide)

/-- Inline, a source names a v register (spec/02_encoding.md R38). -/
theorem fieldKey_of_vfate {op : VOp} {w : VWord} {f : Fin 512} (h : vfate op w = .ok ()) (hf : f ∈ vsrcFields w op) :
    fieldKey f = 32 + srcN f := by
  have h5 := (checks_of_vfate h).2
  simp only [vcheck5, Bool.and_eq_true, List.all_eq_true] at h5
  obtain ⟨⟨-, hsrc⟩, -⟩ := h5
  have hq : srcQ f = false := by
    have := hsrc f hf
    unfold srcOk at this
    split at this
    · simp at this
    · simpa using ‹¬srcQ f = true›
  simp [fieldKey, hq, placeKey, srcN_lt]

section
variable {o : OtherReg} {op : VOp} {w : VWord}

theorem Spared.source (hs : Spared o op w) (hok : vfate op w = .ok ()) {f : Fin 512} (hf : f ∈ vsrcFields w op)
    (hk : fieldKey f ∈ operandKeys op w) : o.key ≠ 32 + srcN f := fun e =>
  hs.operand (by rw [e, ← fieldKey_of_vfate hok hf]; exact hk)

theorem Spared.dest (hs : Spared o op w) (hok : vfate op w = .ok ()) (hv : vusesVd op = true)
    (hd : destKeys op w = [placeKey w.vd.val]) : o.key ≠ 32 + (regOf w.vd.val).val := by
  have hlt := vd_lt_of_vfate hok hv
  have hreg : (regOf w.vd.val).val = w.vd.val := Nat.mod_eq_of_lt hlt
  rw [hreg]
  exact hs.kept _ (by simp [hd, placeKey, hlt]) (by omega) (by omega)

/-- A word's mask selects the same elements, with the value in its place. -/
def SameMask (o : OtherReg) (w : VWord) : Prop :=
  ∀ ms i, maskBitOf (o.inMasks ms) (maskReg w) i = maskBitOf ms (maskReg w) i

theorem Spared.sameMask (hs : Spared o op w) : SameMask o w := by
  have hlt : maskReg w % 8 = maskReg w := Nat.mod_mod _ _
  by_cases h0 : maskReg w = 0
  · exact fun ms i => by simp [maskBitOf, h0]
  · refine fun ms i => maskBitOf_inMasks (fun e => hs.mask ?_) ms i
    simp [maskKeys, maskUnits, h0, RegUnit.key, e, hlt]

/-- The same elements are active. -/
theorem SameMask.activeOf_eq (hm : SameMask o w) (s : State) (is : List Nat) : activeOf (o.inState s) w is = activeOf s w is := by
  simp only [activeOf, inState_me, inAgent_vec, inVec_masks]
  exact List.filter_congr fun i _ => hm _ i

end

/-! ### Operands -/

section
variable {o : OtherReg}

theorem elemAt_inRegs {r : Nat} (h : o.key ≠ 32 + (regOf r).val) (v : VRegs) (t lanes i : Nat) :
    elemAt (o.inRegs v) t lanes r i = elemAt v t lanes r i := by
  simp only [elemAt, bitsAt, data_inRegs h]

theorem scaleAt_inRegs {r : Nat} (h : o.key ≠ 32 + (regOf r).val) (v : VRegs) (b : Nat) :
    scaleAt (o.inRegs v) r b = scaleAt v r b := by
  simp only [scaleAt, scale_inRegs h]

theorem regOf_srcN (f : Fin 512) : (regOf (srcN f)).val = srcN f := Nat.mod_eq_of_lt (srcN_lt f)

theorem srcElem_inRegs {f : Fin 512} (h : o.key ≠ 32 + srcN f) (v : VRegs) (t lanes i : Nat) :
    srcElem (o.inRegs v) t lanes f i = srcElem v t lanes f i :=
  elemAt_inRegs (by rwa [regOf_srcN]) v t lanes _

theorem rd_xReg_inState {w : VWord} (h : o.key ≠ srcN w.f2) (s : State) : rd (o.inState s) (xReg w) = rd s (xReg w) :=
  rd_inState (by rwa [xReg, regOf_srcN]) s

/-- The b operand is a g register or a source (spec/02_encoding.md R42). -/
theorem bElem_inState {w : VWord} (hg : w.x.val = 1 → o.key ≠ srcN w.f2) (hv : w.x.val ≠ 1 → o.key ≠ 32 + srcN w.f2) (s : State)
    (t i : Nat) : bElem (o.inState s) t w i = bElem s t w i := by
  unfold bElem
  split
  · next hx => rw [rd_xReg_inState (hg hx)]
  · next hx => exact srcElem_inRegs (hv hx) _ _ _ _

end

/-! ### Destinations -/

section
variable {o : OtherReg} {w : VWord}

/-- Vector state with other elements in a register. -/
def withData (v : VecState) (d : Reg) (x : BitVec 262144) : VecState :=
  { v with regs := { v.regs with data := v.regs.data.set d x } }

theorem withData_inVec {d : Reg} (h : o.key ≠ 32 + d.val) (v : VecState) (x : BitVec 262144) :
    withData (o.inVec v) d x = o.inVec (withData v d x) :=
  congrArg (fun r : VRegs => { o.inVec v with regs := r }) (setData_inRegs h v.regs x)

/-- An instruction that completes. -/
@[simp] theorem withUnits_done_inState (s t : State) (us : List RegUnit) :
    withUnits (o.inState s) us (.done (o.inState t)) = o.inAns (withUnits s us (.done t)) := withUnits_inState o s us (.done t)

theorem SameMask.elemStep_eq (hm : SameMask o w) (s : State) (t : Nat) (f : Nat → FRes) :
    elemStep (o.inState s) t w f = elemStep s t w f := by
  funext acc i
  simp only [elemStep, inState_me, inAgent_vec, inVec_masks, hm _ i, lanesIn_inState]

theorem SameMask.elementsOn_inState (hm : SameMask o w) (hd : o.key ≠ 32 + (regOf w.vd.val).val) (s : State) (t : Nat) (is : List Nat)
    (f : Nat → FRes) : elementsOn (o.inState s) t w is f = o.inState (elementsOn s t w is f) := by
  simp only [elementsOn, hm.elemStep_eq, inState_me, inAgent_vec, inVec_regs, data_inRegs hd]
  exact congrArg (fun v => vfinish (o.inState s) v _) (withData_inVec hd s.me.vec _)

theorem SameMask.elementwise_inState (hm : SameMask o w) (hd : o.key ≠ 32 + (regOf w.vd.val).val) (s : State) (t : Nat)
    (f : Nat → FRes) : elementwise (o.inState s) t w f = o.inState (elementwise s t w f) :=
  hm.elementsOn_inState hd s t _ f

end

end Machine
end Sys2Proof
end

section
/-! The forms of majors 0x01, 0x02 and 0x06, the compares and the mask forms compute from their uses alone
(spec/11_consistency.md R235). -/

namespace Sys2Proof
namespace Machine

/-! ### Element-wise forms -/

/-- A form whose destination is a v register and whose operands are its sources, or a g register for b. -/
structure SourceForm (op : VOp) : Prop where
  dest_eq : ∀ w, destKeys op w = [placeKey w.vd.val]
  usesVd : vusesVd op = true
  operands_eq : ∀ w, operandKeys op w = (vsrcFields w op).map fieldKey ++ if w.x.val = 1 then [srcN w.f2] else []

section
variable {o : OtherReg} {op : VOp} {w : VWord}

theorem Spared.sourceOf (hs : Spared o op w) (hok : vfate op w = .ok ()) (hform : SourceForm op) {f : Fin 512}
    (hf : f ∈ vsrcFields w op) : o.key ≠ 32 + srcN f :=
  hs.source hok hf (by rw [hform.operands_eq]; exact List.mem_append_left _ (List.mem_map_of_mem hf))

theorem Spared.destOf (hs : Spared o op w) (hok : vfate op w = .ok ()) (hform : SourceForm op) :
    o.key ≠ 32 + (regOf w.vd.val).val := hs.dest hok hform.usesVd (hform.dest_eq w)

theorem mem_bsrc (hx : w.x.val ≠ 1) : w.f2 ∈ bsrc w := by
  have h0 : w.x.val = 0 := by have := w.x.isLt; omega
  simp [bsrc, h0]

/-- The b operand of a form that has it among its sources. -/
theorem Spared.bElemOf (hs : Spared o op w) (hok : vfate op w = .ok ()) (hform : SourceForm op) (hb : ∀ f ∈ bsrc w, f ∈ vsrcFields w op)
    (s : State) (t i : Nat) : bElem (o.inState s) t w i = bElem s t w i := by
  refine bElem_inState (fun hx e => hs.operand ?_) (fun hx => hs.sourceOf hok hform (hb _ (mem_bsrc hx))) s t i
  rw [hform.operands_eq, hx, e]
  simp

/-- The uses of a form of one source, from what its effect carries along. -/
theorem onlyThose_of_source {k : VWord → State → Ans} (hform : InlineForm op k) (hsource : SourceForm op)
    (hfields : ∀ w, vsrcFields w op = [w.f1])
    (hk : ∀ {o : OtherReg} {w}, SameMask o w → o.key ≠ 32 + (regOf w.vd.val).val → o.key ≠ 32 + srcN w.f1 → ∀ s,
      k w (o.inState s) = o.inAns (k w s)) : ∀ w, OnlyThose (op.instr w) :=
  onlyThose_of_inAns hform fun _ w s hs hok =>
    hk hs.sameMask (hs.destOf hok hsource) (hs.sourceOf hok hsource (by simp [hfields])) s

/-- The element that an element-wise form computes. -/
def vaElem (op : VOp) (w : VWord) (s : State) (i : Nat) : FRes :=
  let t := w.vt.val
  let v := s.me.vec.regs
  elemOf op t (modeAt s w i) false (srcElem v t (lanesIn s) w.f1 i) (bElem s t w i) (srcElem v t (lanesIn s) w.f3 i)

/-- The effect of an element-wise form carries along what its elements do not take. -/
theorem vaAns_inState (hm : SameMask o w) (hd : o.key ≠ 32 + (regOf w.vd.val).val) (s : State)
    (hel : ∀ i, vaElem op w (o.inState s) i = vaElem op w s i) : vaAns op w (o.inState s) = o.inAns (vaAns op w s) := by
  have hvaAns : ∀ s, vaAns op w s = withUnits s (sources op w s (activeOf s w (body s.me.vec.vstart.toNat (evlOf s w.vt.val))))
      (.done (elementwise s w.vt.val w (vaElem op w s))) := fun _ => rfl
  have hsources : ∀ act, sources op w (o.inState s) act = sources op w s act := fun _ => rfl
  rw [hvaAns, hvaAns, hm.activeOf_eq, hsources, funext hel, hm.elementwise_inState hd]
  exact withUnits_done_inState ..

end

/-- Forms of one source. -/
def unaryForms : List VOp :=
  [.vabs, .vneg, .vnot, .vmv, .vclz, .vpopc, .vfsqrt, .vfabs, .vfneg, .vfclass, .vexp2, .vlog2, .vrcp, .vrsqrt, .vtanh, .vsigm]

/-- Forms of a source and the b operand. -/
def binaryForms : List VOp :=
  [.vadd, .vsub, .vrsub, .vmul, .vmulh, .vdiv, .vrem, .vand, .vor, .vxor, .vsll, .vsrl, .vsra, .vmin, .vmax, .vsadd, .vssub,
   .vfadd, .vfsub, .vfmul, .vfdiv, .vfmin, .vfmax, .vfsgnj, .vfsgnjn, .vfsgnjx]

/-- Forms of two sources and the b operand. -/
def ternaryForms : List VOp := [.vmacc, .vfma, .vfms, .vfnma, .vfnms]

theorem unaryForms_onlyThose : ∀ op ∈ unaryForms, ∀ w, OnlyThose (op.instr w) := by
  intro op hop
  have hform : InlineForm op (vaAns op) := by fin_cases hop <;> exact ⟨fun _ _ => rfl, fun _ => rfl, rfl⟩
  have hsource : SourceForm op := by fin_cases hop <;> exact ⟨fun _ => rfl, rfl, fun _ => rfl⟩
  have hfields : ∀ w, vsrcFields w op = [w.f1] := by fin_cases hop <;> exact fun _ => rfl
  have hel : ∀ t r a b c, elemOf op t r false a b c = elemOf op t r false a 0 0 := by fin_cases hop <;> exact fun _ _ _ _ _ => rfl
  refine onlyThose_of_source hform hsource hfields fun {o w} hm hd hf1 s => vaAns_inState hm hd s fun i => ?_
  calc vaElem op w (o.inState s) i
    _ = elemOf op w.vt.val (modeAt s w i) false (srcElem (o.inRegs s.me.vec.regs) w.vt.val (lanesIn s) w.f1 i) 0 0 := hel ..
    _ = elemOf op w.vt.val (modeAt s w i) false (srcElem s.me.vec.regs w.vt.val (lanesIn s) w.f1 i) 0 0 := by
      rw [srcElem_inRegs hf1]
    _ = vaElem op w s i := (hel ..).symm

theorem binaryForms_onlyThose : ∀ op ∈ binaryForms, ∀ w, OnlyThose (op.instr w) := by
  intro op hop
  have hform : InlineForm op (vaAns op) := by fin_cases hop <;> exact ⟨fun _ _ => rfl, fun _ => rfl, rfl⟩
  have hsource : SourceForm op := by fin_cases hop <;> exact ⟨fun _ => rfl, rfl, fun _ => rfl⟩
  have hfields : ∀ w, vsrcFields w op = w.f1 :: bsrc w := by fin_cases hop <;> exact fun _ => rfl
  have hel : ∀ t r a b c, elemOf op t r false a b c = elemOf op t r false a b 0 := by fin_cases hop <;> exact fun _ _ _ _ _ => rfl
  refine onlyThose_of_inAns hform fun o w s hs hok => vaAns_inState hs.sameMask (hs.destOf hok hsource) s fun i => ?_
  have hf1 := hs.sourceOf hok hsource (f := w.f1) (by simp [hfields])
  have hb := hs.bElemOf hok hsource (by simp +contextual [hfields])
  calc vaElem op w (o.inState s) i
    _ = elemOf op w.vt.val (modeAt s w i) false (srcElem (o.inRegs s.me.vec.regs) w.vt.val (lanesIn s) w.f1 i)
        (bElem (o.inState s) w.vt.val w i) 0 := hel ..
    _ = elemOf op w.vt.val (modeAt s w i) false (srcElem s.me.vec.regs w.vt.val (lanesIn s) w.f1 i) (bElem s w.vt.val w i) 0 := by
      rw [srcElem_inRegs hf1, hb]
    _ = vaElem op w s i := (hel ..).symm

theorem ternaryForms_onlyThose : ∀ op ∈ ternaryForms, ∀ w, OnlyThose (op.instr w) := by
  intro op hop
  have hform : InlineForm op (vaAns op) := by fin_cases hop <;> exact ⟨fun _ _ => rfl, fun _ => rfl, rfl⟩
  have hsource : SourceForm op := by fin_cases hop <;> exact ⟨fun _ => rfl, rfl, fun _ => rfl⟩
  have hfields : ∀ w, vsrcFields w op = w.f1 :: bsrc w ++ [w.f3] := by fin_cases hop <;> exact fun _ => rfl
  refine onlyThose_of_inAns hform fun o w s hs hok => vaAns_inState hs.sameMask (hs.destOf hok hsource) s fun i => ?_
  have hf1 := hs.sourceOf hok hsource (f := w.f1) (by simp [hfields])
  have hf3 := hs.sourceOf hok hsource (f := w.f3) (by simp [hfields])
  have hb := hs.bElemOf hok hsource (by simp +contextual [hfields])
  simp only [vaElem, modeAt_inState, lanesIn_inState, inState_me, inAgent_vec, inVec_regs, srcElem_inRegs hf1, srcElem_inRegs hf3, hb]

/-- `vsel`, whose mask selects between its sources (spec/06_vector_arith.md R132). -/
theorem vsel_onlyThose (w : VWord) : OnlyThose (VOp.instr w .vsel) := by
  have hsource : SourceForm .vsel := ⟨fun _ => rfl, rfl, fun _ => rfl⟩
  refine onlyThose_of_inAns (k := selAns) ⟨fun _ _ => rfl, fun _ => rfl, rfl⟩ (fun o w s hs hok => ?_) w
  have hunmasked : SameMask o { w with vm := 0 } := fun _ _ => by simp [maskBitOf, maskReg]
  have hfields : vsrcFields w .vsel = w.f1 :: bsrc w := rfl
  have hf1 := hs.sourceOf hok hsource (f := w.f1) (by simp [hfields])
  have hb := hs.bElemOf hok hsource (by simp +contextual [hfields])
  have hsources : ∀ act, sources .vsel w (o.inState s) act = sources .vsel w s act := fun _ => rfl
  simp only [selAns, hsources, inState_me, inAgent_vec, inVec_regs, inVec_masks, inVec_vstart, evlOf_inState, lanesIn_inState,
    hs.sameMask _ _, srcElem_inRegs hf1, hb, hunmasked.elementwise_inState (hs.destOf hok hsource), withUnits_done_inState]

/-! ### Compares and mask forms -/

section
variable {o : OtherReg}

theorem mask_inMasks {n : Nat} (h : o.key ≠ 64 + n % 8) (ms : Vector (BitVec 65536) 8) :
    (o.inMasks ms)[n % 8]'(Nat.mod_lt _ (by decide)) = ms[n % 8]'(Nat.mod_lt _ (by decide)) := by
  cases o with
  | m k bits =>
    have hk : k.val ≠ n % 8 := fun e => h (by simp [OtherReg.key, e])
    simp [OtherReg.inMasks, hk]
  | g => rfl
  | v => rfl

theorem setMask_inMasks {n : Nat} (h : o.key ≠ 64 + n % 8) (ms : Vector (BitVec 65536) 8) (x : BitVec 65536) :
    setMask (o.inMasks ms) n x = o.inMasks (setMask ms n x) := by
  unfold setMask
  split
  · rfl
  · cases o with
    | m k bits =>
      have hk : k.val ≠ n % 8 := fun e => h (by simp [OtherReg.key, e])
      exact Vector.set_comm (hi := k.isLt) _ _ hk
    | g => rfl
    | v => rfl

theorem clearM_inVec (v : VecState) (n written : Nat) : clearM (o.inVec v) n written = o.inVec (clearM v n written) := by
  unfold clearM
  split <;> rfl

/-- Bits written to another m register carry the value along. -/
theorem maskDone_inState {d : Nat} (h : o.key ≠ 64 + d % 8) (s : State) (is : List Nat) (f : Nat → Option Bool) (fl : BitVec 5) :
    maskDone (o.inState s) d is f fl = o.inState (maskDone s d is f fl) := by
  simp only [maskDone, inState_me, inAgent_vec, inVec_masks, mask_inMasks h, setMask_inMasks h]
  rw [← vfinish_inState, ← clearM_inVec]
  rfl

end

theorem compares_onlyThose : ∀ op ∈ compares, ∀ w, OnlyThose (op.instr w) := by
  intro op hop
  have hform : InlineForm op (cmpAns op) := by fin_cases hop <;> exact ⟨fun _ _ => rfl, fun _ => rfl, rfl⟩
  have hfields : ∀ w, vsrcFields w op = w.f1 :: bsrc w := by fin_cases hop <;> exact fun _ => rfl
  have hoperands : ∀ w, operandKeys op w = (vsrcFields w op).map fieldKey ++ if w.x.val = 1 then [srcN w.f2] else [] := by
    fin_cases hop <;> exact fun _ => rfl
  have hdest : ∀ w : VWord, destKeys op w = [64 + w.vd.val % 8] := by fin_cases hop <;> exact fun _ => rfl
  refine onlyThose_of_inAns hform fun o w s hs hok => ?_
  have hsource : ∀ f ∈ vsrcFields w op, o.key ≠ 32 + srcN f := fun f hf =>
    hs.source hok hf (by rw [hoperands]; exact List.mem_append_left _ (List.mem_map_of_mem hf))
  have hf1 := hsource w.f1 (by simp [hfields])
  have hb := bElem_inState (o := o) (w := w) (fun hx e => hs.operand (by simp [hoperands, hx, e]))
    (fun hx => hsource _ (by simp [hfields, mem_bsrc hx]))
  have hd : o.key ≠ 64 + w.vd.val % 8 := hs.kept _ (by simp [hdest]) (by omega) (by omega)
  have hsources : ∀ act, sources op w (o.inState s) act = sources op w s act := fun _ => rfl
  simp only [cmpAns, hs.sameMask.activeOf_eq, hsources, inState_me, inAgent_vec, inVec_regs, inVec_masks, inVec_vstart, evlOf_inState,
    lanesIn_inState, hs.sameMask _ _, srcElem_inRegs hf1, hb, maskDone_inState hd, withUnits_done_inState]

/-- Mask forms of two sources. -/
def maskPairForms : List VOp := [.mand, .mor, .mxor, .mandn]

/-- Mask forms of one source. -/
def maskCopyForms : List VOp := [.mnot, .mmv]

/-- Mask forms of no source. -/
def maskFillForms : List VOp := [.mset, .mclr]

/-- The effect of a mask form carries along what its bits do not take. -/
theorem mopAns_inState {o : OtherReg} {op : VOp} {w : VWord} (hd : o.key ≠ 64 + w.vd.val % 8) (s : State)
    (hbit : ∀ i, let ms := s.me.vec.masks
      maskElem op (maskBitOf (o.inMasks ms) (srcN w.f1) i) (maskBitOf (o.inMasks ms) (srcN w.f2) i) =
        maskElem op (maskBitOf ms (srcN w.f1) i) (maskBitOf ms (srcN w.f2) i)) :
    mopAns op w (o.inState s) = o.inAns (mopAns op w s) := by
  simp only [mopAns, inState_me, inAgent_vec, inVec_masks, inVec_vstart, inVec_vlLen, hbit, maskDone_inState hd,
    withUnits_done_inState]

/-- A field that names a mask in bits [5:3] names no other (spec/06_vector_arith.md R135). -/
theorem srcN_mod_of_maskFld {f : Fin 512} (h : maskFld f = true) : srcN f % 8 = srcN f := by
  simp only [maskFld, Bool.and_eq_true, decide_eq_true_eq, beq_iff_eq] at h
  unfold srcN
  omega

theorem maskPairForms_onlyThose : ∀ op ∈ maskPairForms, ∀ w, OnlyThose (op.instr w) := by
  intro op hop
  have hform : InlineForm op (mopAns op) := by fin_cases hop <;> exact ⟨fun _ _ => rfl, fun _ => rfl, rfl⟩
  have hdest : ∀ w : VWord, destKeys op w = [64 + w.vd.val % 8] := by fin_cases hop <;> exact fun _ => rfl
  have hoperands : ∀ w : VWord, operandKeys op w = [64 + srcN w.f1, 64 + srcN w.f2] := by fin_cases hop <;> exact fun _ => rfl
  have hcheck : ∀ w, vcheck3 .inline w op = (maskOpOk w && maskFld w.f1 && maskFld w.f2) := by fin_cases hop <;> exact fun _ => rfl
  refine onlyThose_of_inAns hform fun o w s hs hok =>
    mopAns_inState (hs.kept _ (by simp [hdest]) (by omega) (by omega)) s fun i => ?_
  have h3 := (checks_of_vfate hok).1
  rw [hcheck, Bool.and_eq_true, Bool.and_eq_true] at h3
  obtain ⟨⟨-, hm1⟩, hm2⟩ := h3
  have hk1 : o.key ≠ 64 + srcN w.f1 % 8 := fun e => hs.operand (by simp [hoperands, e, srcN_mod_of_maskFld hm1])
  have hk2 : o.key ≠ 64 + srcN w.f2 % 8 := fun e => hs.operand (by simp [hoperands, e, srcN_mod_of_maskFld hm2])
  simp only [maskBitOf_inMasks hk1, maskBitOf_inMasks hk2]

theorem maskCopyForms_onlyThose : ∀ op ∈ maskCopyForms, ∀ w, OnlyThose (op.instr w) := by
  intro op hop
  have hform : InlineForm op (mopAns op) := by fin_cases hop <;> exact ⟨fun _ _ => rfl, fun _ => rfl, rfl⟩
  have hdest : ∀ w : VWord, destKeys op w = [64 + w.vd.val % 8] := by fin_cases hop <;> exact fun _ => rfl
  have hoperands : ∀ w : VWord, operandKeys op w = [64 + srcN w.f1] := by fin_cases hop <;> exact fun _ => rfl
  have hcheck : ∀ w, vcheck3 .inline w op = (maskOpOk w && maskFld w.f1 && w.f2.val == 0) := by fin_cases hop <;> exact fun _ => rfl
  have hbit : ∀ a b c, maskElem op a b = maskElem op a c := by fin_cases hop <;> exact fun _ _ _ => rfl
  refine onlyThose_of_inAns hform fun o w s hs hok =>
    mopAns_inState (hs.kept _ (by simp [hdest]) (by omega) (by omega)) s fun i => ?_
  have h3 := (checks_of_vfate hok).1
  rw [hcheck, Bool.and_eq_true, Bool.and_eq_true] at h3
  obtain ⟨⟨-, hm1⟩, -⟩ := h3
  have hk1 : o.key ≠ 64 + srcN w.f1 % 8 := fun e => hs.operand (by simp [hoperands, e, srcN_mod_of_maskFld hm1])
  simp only [maskBitOf_inMasks hk1]
  exact hbit _ _ _

theorem maskFillForms_onlyThose : ∀ op ∈ maskFillForms, ∀ w, OnlyThose (op.instr w) := by
  intro op hop
  have hform : InlineForm op (mopAns op) := by fin_cases hop <;> exact ⟨fun _ _ => rfl, fun _ => rfl, rfl⟩
  have hdest : ∀ w : VWord, destKeys op w = [64 + w.vd.val % 8] := by fin_cases hop <;> exact fun _ => rfl
  have hbit : ∀ a b c d, maskElem op a b = maskElem op c d := by fin_cases hop <;> exact fun _ _ _ _ => rfl
  exact onlyThose_of_inAns hform fun o w s hs hok =>
    mopAns_inState (hs.kept _ (by simp [hdest]) (by omega) (by omega)) s fun i => hbit _ _ _ _

end Machine
end Sys2Proof
end

section
/-! The conversions, packing and scales of major 0x05 and the reductions of major 0x07 compute from their uses alone
(spec/11_consistency.md R235). -/

namespace Sys2Proof
namespace Machine

/-! ### Conversions -/

section
variable {o : OtherReg} {w : VWord}

theorem cvtDone_inState (hm : SameMask o w) (hd : o.key ≠ 32 + (regOf w.vd.val).val) (s : State) (dst : Nat)
    (ps : List (Nat × Nat × Nat)) (f : Nat → Nat → FRes) :
    cvtDone dst w (o.inState s) ps f = o.inState (cvtDone dst w s ps f) := by
  simp only [cvtDone, inState_me, inAgent_vec, inVec_regs, inVec_masks, hm _ _, lanesIn_inState, data_inRegs hd]
  exact congrArg (fun v => vfinish (o.inState s) v _) (withData_inVec hd s.me.vec _)

@[simp] theorem cvtPairs_inState (s : State) (dst src start lim : Nat) :
    cvtPairs dst src w (o.inState s) start lim = cvtPairs dst src w s start lim := rfl

theorem cvtAns_inState (hm : SameMask o w) (hd : o.key ≠ 32 + (regOf w.vd.val).val) (hf1 : o.key ≠ 32 + srcN w.f1) (s : State) :
    cvtAns w (o.inState s) = o.inAns (cvtAns w s) := by
  simp only [cvtAns, cvtPairs_inState, inState_me, inAgent_vec, inVec_regs, inVec_masks, inVec_vstart, inVec_vlLen, hm _ _,
    lanesIn_inState, modeAt_inState, srcElem_inRegs hf1, cvtDone_inState hm hd, withUnits_done_inState]

theorem unpackAns_inState (hm : SameMask o w) (hd : o.key ≠ 32 + (regOf w.vd.val).val) (hf1 : o.key ≠ 32 + srcN w.f1) (s : State) :
    unpackAns w (o.inState s) = o.inAns (unpackAns w s) := by
  have hstart : blockStart (o.inState s) = blockStart s := rfl
  have hreg : o.key ≠ 32 + (regOf (srcN w.f1)).val := by rwa [regOf_srcN]
  simp only [unpackAns, hstart, cvtPairs_inState, inState_me, inAgent_vec, inVec_regs, inVec_masks, inVec_vlLen, hm _ _,
    lanesIn_inState, modeAt_inState, srcElem_inRegs hf1, scaleAt_inRegs hreg, cvtDone_inState hm hd, withUnits_done_inState]

/-! ### Packing and scales -/

/-- A write of other elements and scales carries the value along. -/
theorem setBoth_inRegs {r : Reg} (h : o.key ≠ 32 + r.val) (v : VRegs) (x : BitVec 262144) (y : BitVec 18432) :
    { data := (o.inRegs v).data.set r x, scale := (o.inRegs v).scale.set r y : VRegs } =
      o.inRegs { data := v.data.set r x, scale := v.scale.set r y } := by
  cases o with
  | v k data scale =>
    have hk : k.val ≠ r.val := fun e => h (by simp [OtherReg.key, e])
    simp [OtherReg.inRegs, Vector.set_comm _ _ hk]
  | g => rfl
  | m => rfl

theorem clearV_inVec (v : VecState) (t lanes r : Nat) (written scales : List Nat) :
    clearV (o.inVec v) t lanes r written scales = o.inVec (clearV v t lanes r written scales) := by
  have hpv : (o.inVec v).pv = v.pv := rfl
  unfold clearV
  rw [hpv]
  split <;> rfl

theorem packBlock_inState (hm : SameMask o w) (hd : o.key ≠ 32 + (regOf w.vd.val).val) (hf1 : o.key ≠ 32 + srcN w.f1) (s : State)
    (bt src : Nat) (acc : VRegs × BitVec 5) (b : Nat × List (Nat × Nat)) :
    packBlock bt src w (o.inState s) (o.inRegs acc.1, acc.2) b =
      (o.inRegs (packBlock bt src w s acc b).1, (packBlock bt src w s acc b).2) := by
  simp only [packBlock, inState_me, inAgent_vec, inVec_regs, inVec_masks, hm _ _, lanesIn_inState, modeAt_inState,
    srcElem_inRegs hf1, data_inRegs hd, scale_inRegs hd, setBoth_inRegs hd]

theorem packAns_inState (hm : SameMask o w) (hd : o.key ≠ 32 + (regOf w.vd.val).val) (hf1 : o.key ≠ 32 + srcN w.f1) (s : State) :
    packAns w (o.inState s) = o.inAns (packAns w s) := by
  have hstart : blockStart (o.inState s) = blockStart s := rfl
  have hfold : ∀ (bt src : Nat) (bs : List (Nat × List (Nat × Nat))),
      bs.foldl (packBlock bt src w (o.inState s)) (o.inRegs s.me.vec.regs, 0#5) =
        (o.inRegs (bs.foldl (packBlock bt src w s) (s.me.vec.regs, 0#5)).1, (bs.foldl (packBlock bt src w s) (s.me.vec.regs, 0#5)).2) :=
    fun bt src bs => List.foldl_hom (init := (s.me.vec.regs, 0#5)) (fun a : VRegs × BitVec 5 => (o.inRegs a.1, a.2))
      fun acc b => packBlock_inState hm hd hf1 s bt src acc b
  simp only [packAns, hstart, cvtPairs_inState, inState_me, inAgent_vec, inVec_regs, inVec_masks, inVec_vlLen, hm _ _,
    lanesIn_inState, hfold]
  rw [← withUnits_done_inState]
  exact congrArg (fun v => withUnits (o.inState s) _ (.done (vfinish (o.inState s) v _))) (clearV_inVec { s.me.vec with regs := _ } ..)

theorem sgetAns_inState (hm : SameMask o w) (hd : o.key ≠ 32 + (regOf w.vd.val).val) (hf1 : o.key ≠ 32 + srcN w.f1) (s : State) :
    sgetAns w (o.inState s) = o.inAns (sgetAns w s) := by
  have hblocks : scaleBlocks w (o.inState s) = scaleBlocks w s := rfl
  have hreg : o.key ≠ 32 + (regOf (srcN w.f1)).val := by rwa [regOf_srcN]
  simp only [sgetAns, hblocks, hm.activeOf_eq, hm.elemStep_eq, inState_me, inAgent_vec, inVec_regs, lanesIn_inState, scaleAt_inRegs hreg,
    data_inRegs hd]
  rw [← withUnits_done_inState]
  exact congrArg (fun v => withUnits (o.inState s) _ (.done (vfinish (o.inState s) v _))) (withData_inVec hd s.me.vec _)

theorem sputAns_inState (hm : SameMask o w) (hd : o.key ≠ 32 + (regOf w.vd.val).val) (hf1 : o.key ≠ 32 + srcN w.f1) (s : State) :
    sputAns w (o.inState s) = o.inAns (sputAns w s) := by
  have hblocks : scaleBlocks w (o.inState s) = scaleBlocks w s := rfl
  simp only [sputAns, hblocks, hm.activeOf_eq, inState_me, inAgent_vec, inVec_regs, inVec_masks, hm _ _, lanesIn_inState,
    srcElem_inRegs hf1, scale_inRegs hd]
  rw [← withUnits_done_inState]
  exact congrArg (fun r => withUnits (o.inState s) _ (.done (vfinish (o.inState s) { o.inVec s.me.vec with regs := r } _)))
    (setScale_inRegs hd s.me.vec.regs _)

/-! ### Reductions -/

/-- A reduction folds its source from its start value: element 0 of the second source, or of its destination. -/
theorem redValue_inState (hm : SameMask o w) (hd : o.key ≠ 32 + (regOf w.vd.val).val) (hf1 : o.key ≠ 32 + srcN w.f1)
    (hf2 : o.key ≠ 32 + srcN w.f2) (op : VOp) (s : State) : redValue op w (o.inState s) = redValue op w s := by
  have hmode : modeAt (o.inState s) w = modeAt s w := rfl
  simp only [redValue, hm.activeOf_eq, hmode, inState_me, inAgent_vec, inVec_regs, inVec_vstart, evlOf_inState, lanesIn_inState,
    srcElem_inRegs hf1, srcElem_inRegs hf2, elemAt_inRegs hd]

theorem redAns_inState (hm : SameMask o w) (hd : o.key ≠ 32 + (regOf w.vd.val).val) (hf1 : o.key ≠ 32 + srcN w.f1)
    (hf2 : o.key ≠ 32 + srcN w.f2) (op : VOp) (s : State) : redAns op w (o.inState s) = o.inAns (redAns op w s) := by
  simp only [redAns, redValue_inState hm hd hf1 hf2, hm.activeOf_eq, inState_me, inAgent_vec, inVec_regs, inVec_vstart, evlOf_inState,
    lanesIn_inState, data_inRegs hd]
  rw [← withUnits_inState]
  by_cases h0 : evlOf s w.vt.val = 0
  · simp only [h0, if_true]
    rfl
  · simp only [h0, if_false]
    exact congrArg (fun v => withUnits (o.inState s) _ (.done (vfinish (o.inState s) v _))) (withData_inVec hd s.me.vec _)

end

theorem vcvt_onlyThose : ∀ w, OnlyThose (VOp.instr w .vcvt) :=
  onlyThose_of_source ⟨fun _ _ => rfl, fun _ => rfl, rfl⟩ ⟨fun _ => rfl, rfl, fun _ => rfl⟩ (fun _ => rfl)
    fun hm hd hf1 s => cvtAns_inState hm hd hf1 s

theorem vunpack_onlyThose : ∀ w, OnlyThose (VOp.instr w .vunpack) :=
  onlyThose_of_source ⟨fun _ _ => rfl, fun _ => rfl, rfl⟩ ⟨fun _ => rfl, rfl, fun _ => rfl⟩ (fun _ => rfl)
    fun hm hd hf1 s => unpackAns_inState hm hd hf1 s

theorem vpack_onlyThose : ∀ w, OnlyThose (VOp.instr w .vpack) :=
  onlyThose_of_source ⟨fun _ _ => rfl, fun _ => rfl, rfl⟩ ⟨fun _ => rfl, rfl, fun _ => rfl⟩ (fun _ => rfl)
    fun hm hd hf1 s => packAns_inState hm hd hf1 s

theorem vsget_onlyThose : ∀ w, OnlyThose (VOp.instr w .vsget) :=
  onlyThose_of_source ⟨fun _ _ => rfl, fun _ => rfl, rfl⟩ ⟨fun _ => rfl, rfl, fun _ => rfl⟩ (fun _ => rfl)
    fun hm hd hf1 s => sgetAns_inState hm hd hf1 s

theorem vsput_onlyThose : ∀ w, OnlyThose (VOp.instr w .vsput) :=
  onlyThose_of_source ⟨fun _ _ => rfl, fun _ => rfl, rfl⟩ ⟨fun _ => rfl, rfl, fun _ => rfl⟩ (fun _ => rfl)
    fun hm hd hf1 s => sputAns_inState hm hd hf1 s

/-- The reductions. -/
def reductionForms : List VOp := [.vredosum, .vredtsum, .vredmin, .vredmax, .vredand, .vredor, .vredxor]

theorem reductionForms_onlyThose : ∀ op ∈ reductionForms, ∀ w, OnlyThose (op.instr w) := by
  intro op hop
  have hform : InlineForm op (redAns op) := by fin_cases hop <;> exact ⟨fun _ _ => rfl, fun _ => rfl, rfl⟩
  have hsource : SourceForm op := by fin_cases hop <;> exact ⟨fun _ => rfl, rfl, fun _ => rfl⟩
  have hfields : ∀ w, vsrcFields w op = [w.f1, w.f2] := by fin_cases hop <;> exact fun _ => rfl
  refine onlyThose_of_inAns hform fun o w s hs hok => ?_
  have hf1 := hs.sourceOf hok hsource (f := w.f1) (by simp [hfields])
  have hf2 := hs.sourceOf hok hsource (f := w.f2) (by simp [hfields])
  exact redAns_inState hs.sameMask (hs.destOf hok hsource) hf1 hf2 op s

end Machine
end Sys2Proof
end

section
/-! The permutes, scans and matrix forms compute from their uses alone (spec/11_consistency.md R235). -/

namespace Sys2Proof
namespace Machine

/-! ### Slides, joins and gathers -/

section
variable {o : OtherReg} {w : VWord}

theorem slideAns_inState {op : VOp} (hm : SameMask o w) (hd : o.key ≠ 32 + (regOf w.vd.val).val) (hg : o.key ≠ srcN w.f2) (s : State)
    (hel : ∀ v t L off evl i, slideElem op off evl (srcElem (o.inRegs v) t L w.f1) (srcElem (o.inRegs v) t L w.f3) i =
      slideElem op off evl (srcElem v t L w.f1) (srcElem v t L w.f3) i) :
    slideAns op w (o.inState s) = o.inAns (slideAns op w s) := by
  simp only [slideAns, hm.activeOf_eq, rd_xReg_inState hg, inState_me, inAgent_vec, inVec_regs, inVec_vstart, evlOf_inState,
    lanesIn_inState, hel, hm.elementsOn_inState hd, withUnits_done_inState]

/-- A gather reads the registers of its table. -/
theorem tableElem_inRegs {base g : Nat} (h : ∀ j < g, o.key ≠ 32 + (regOf (base + j)).val) (v : VRegs) (t lanes evl idx : Nat) :
    tableElem (o.inRegs v) t lanes base g evl idx = tableElem v t lanes base g evl idx := by
  unfold tableElem
  split
  · next hidx => exact elemAt_inRegs (h _ (Nat.div_lt_of_lt_mul hidx)) ..
  · rfl

theorem gatherAns_inState {g : Nat} (hm : SameMask o w) (hd : o.key ≠ 32 + (regOf w.vd.val).val)
    (hb : ∀ s t i, bElem (o.inState s) t w i = bElem s t w i) (ht : ∀ j < g, o.key ≠ 32 + (regOf (srcN w.f1 + j)).val) (s : State) :
    gatherAns g w (o.inState s) = o.inAns (gatherAns g w s) := by
  simp only [gatherAns, hm.activeOf_eq, hb, tableElem_inRegs ht, inState_me, inAgent_vec, inVec_regs, inVec_vstart, evlOf_inState,
    lanesIn_inState, hm.elementwise_inState hd, withUnits_done_inState]

/-- A register group lies within the 32 registers (spec/07_matrix.md R155, spec/08_permute_sparse.md R170). -/
theorem group_lt_of_regFld {f : Fin 512} {g j : Nat} (h : regFld f g = true) (hg : g ∣ 32) (hj : j < g) : srcN f + j < 32 := by
  simp only [regFld, Bool.and_eq_true, beq_iff_eq] at h
  obtain ⟨a, ha⟩ := Nat.dvd_of_mod_eq_zero h.2
  obtain ⟨b, hb⟩ := hg
  have hlt : g * a < g * b := by rw [← ha, ← hb]; exact srcN_lt f
  have hle : g * (a + 1) ≤ g * b := Nat.mul_le_mul_left g (Nat.lt_of_mul_lt_mul_left hlt)
  rw [Nat.mul_succ] at hle
  omega

/-- The registers of a group among the operands are spared. -/
theorem Spared.group {op : VOp} (hs : Spared o op w) {f : Fin 512} {g : Nat} (h : regFld f g = true) (hg : g ∣ 32)
    (hk : ∀ j < g, placeKey (srcN f + j) ∈ operandKeys op w) : ∀ j < g, o.key ≠ 32 + (regOf (srcN f + j)).val := by
  intro j hj e
  have hlt := group_lt_of_regFld h hg hj
  have hreg : (regOf (srcN f + j)).val = srcN f + j := Nat.mod_eq_of_lt hlt
  have hplace : placeKey (srcN f + j) = 32 + (srcN f + j) := by simp [placeKey, hlt]
  exact hs.operand (by rw [e, hreg, ← hplace]; exact hk j hj)

end

/-- Slides, which fill with zeros. -/
def slideForms : List VOp := [.vshup, .vshdn]

/-- Joins, which fill from a second source. -/
def joinForms : List VOp := [.vjoinup, .vjoindn]

/-- Gathers. -/
def gatherForms : List VOp := [.vrgatherX1, .vrgatherX2, .vrgatherX4, .vrgatherX8]

theorem slideForms_onlyThose : ∀ op ∈ slideForms, ∀ w, OnlyThose (op.instr w) := by
  intro op hop
  have hform : InlineForm op (slideAns op) := by fin_cases hop <;> exact ⟨fun _ _ => rfl, fun _ => rfl, rfl⟩
  have hdest : ∀ w, destKeys op w = [placeKey w.vd.val] := by fin_cases hop <;> exact fun _ => rfl
  have hvd : vusesVd op = true := by fin_cases hop <;> rfl
  have hfields : ∀ w, vsrcFields w op = [w.f1] := by fin_cases hop <;> exact fun _ => rfl
  have hoperands : ∀ w, operandKeys op w = [fieldKey w.f1, srcN w.f2] := by fin_cases hop <;> exact fun _ => rfl
  have hfill : ∀ off evl x f f' i, slideElem op off evl x f i = slideElem op off evl x f' i := by
    intro off evl x f f' i
    fin_cases hop <;> simp only [slideElem, slideIndex] <;> split_ifs <;> rfl
  refine onlyThose_of_inAns hform fun o w s hs hok => ?_
  have hf1 := hs.source hok (f := w.f1) (by simp [hfields]) (by simp [hoperands])
  have hg : o.key ≠ srcN w.f2 := fun e => hs.operand (by simp [hoperands, e])
  have hx : ∀ v t L, srcElem (o.inRegs v) t L w.f1 = srcElem v t L w.f1 := fun v t L => funext (srcElem_inRegs hf1 v t L)
  exact slideAns_inState hs.sameMask (hs.dest hok hvd (hdest w)) hg s fun v t L off evl i => by
    rw [hx, hfill off evl _ _ (srcElem v t L w.f3)]

theorem joinForms_onlyThose : ∀ op ∈ joinForms, ∀ w, OnlyThose (op.instr w) := by
  intro op hop
  have hform : InlineForm op (slideAns op) := by fin_cases hop <;> exact ⟨fun _ _ => rfl, fun _ => rfl, rfl⟩
  have hdest : ∀ w, destKeys op w = [placeKey w.vd.val] := by fin_cases hop <;> exact fun _ => rfl
  have hvd : vusesVd op = true := by fin_cases hop <;> rfl
  have hfields : ∀ w, vsrcFields w op = [w.f1, w.f3] := by fin_cases hop <;> exact fun _ => rfl
  have hoperands : ∀ w, operandKeys op w = [fieldKey w.f1, fieldKey w.f3, srcN w.f2] := by fin_cases hop <;> exact fun _ => rfl
  refine onlyThose_of_inAns hform fun o w s hs hok => ?_
  have hf1 := hs.source hok (f := w.f1) (by simp [hfields]) (by simp [hoperands])
  have hf3 := hs.source hok (f := w.f3) (by simp [hfields]) (by simp [hoperands])
  have hg : o.key ≠ srcN w.f2 := fun e => hs.operand (by simp [hoperands, e])
  have hx : ∀ v t L, srcElem (o.inRegs v) t L w.f1 = srcElem v t L w.f1 := fun v t L => funext (srcElem_inRegs hf1 v t L)
  have hy : ∀ v t L, srcElem (o.inRegs v) t L w.f3 = srcElem v t L w.f3 := fun v t L => funext (srcElem_inRegs hf3 v t L)
  exact slideAns_inState hs.sameMask (hs.dest hok hvd (hdest w)) hg s fun v t L off evl i => by rw [hx, hy]

theorem gatherForms_onlyThose : ∀ op ∈ gatherForms, ∀ w, OnlyThose (op.instr w) := by
  intro op hop
  have hform : InlineForm op (gatherAns (gatherG op)) := by fin_cases hop <;> exact ⟨fun _ _ => rfl, fun _ => rfl, rfl⟩
  have hdest : ∀ w, destKeys op w = [placeKey w.vd.val] := by fin_cases hop <;> exact fun _ => rfl
  have hvd : vusesVd op = true := by fin_cases hop <;> rfl
  have hfields : ∀ w, vsrcFields w op = bsrc w := by fin_cases hop <;> exact fun _ => rfl
  have hoperands : ∀ w, operandKeys op w = (bsrc w).map fieldKey ++ (if w.x.val = 1 then [srcN w.f2] else []) ++
      (List.range (gatherG op)).map (fun k => placeKey (srcN w.f1 + k)) := by fin_cases hop <;> exact fun _ => rfl
  have hcheck : ∀ w, vcheck3 .inline w op = (vaOk w true false false && regFld w.f1 (gatherG op)) := by
    fin_cases hop <;> exact fun _ => rfl
  have hsize : gatherG op ∣ 32 := by fin_cases hop <;> decide
  refine onlyThose_of_inAns hform fun o w s hs hok => ?_
  have h3 := (checks_of_vfate hok).1
  rw [hcheck, Bool.and_eq_true] at h3
  have htable := hs.group h3.2 hsize fun j hj => by
    rw [hoperands]
    exact List.mem_append_right _ (List.mem_map_of_mem (List.mem_range.2 hj))
  have hb := bElem_inState (o := o) (w := w) (fun hx e => hs.operand (by simp [hoperands, hx, e]))
    (fun hx => hs.source hok (by rw [hfields]; exact mem_bsrc hx) (by
      rw [hoperands]
      exact List.mem_append_left _ (List.mem_append_left _ (List.mem_map_of_mem (mem_bsrc hx)))))
  exact gatherAns_inState hs.sameMask (hs.dest hok hvd (hdest w)) hb htable s

/-! ### Forms of one source -/

section
variable {o : OtherReg} {w : VWord}

theorem compressAns_inState (hm : SameMask o w) (hd : o.key ≠ 32 + (regOf w.vd.val).val) (hf1 : o.key ≠ 32 + srcN w.f1) (s : State) :
    compressAns w (o.inState s) = o.inAns (compressAns w s) := by
  simp only [compressAns, inState_me, inAgent_vec, inVec_regs, inVec_masks, inVec_vstart, hm _ _, evlOf_inState, lanesIn_inState,
    srcElem_inRegs hf1, data_inRegs hd]
  rw [← withUnits_done_inState]
  exact congrArg (fun v => withUnits (o.inState s) _ (.done (vfinish (o.inState s) v _))) (withData_inVec hd s.me.vec _)

theorem expandAns_inState (hm : SameMask o w) (hd : o.key ≠ 32 + (regOf w.vd.val).val) (hf1 : o.key ≠ 32 + srcN w.f1) (s : State) :
    expandAns w (o.inState s) = o.inAns (expandAns w s) := by
  simp only [expandAns, inState_me, inAgent_vec, inVec_regs, inVec_masks, inVec_vstart, hm _ _, evlOf_inState, lanesIn_inState,
    srcElem_inRegs hf1, hm.elementwise_inState hd, withUnits_done_inState]

theorem conflictAns_inState (hm : SameMask o w) (hd : o.key ≠ 32 + (regOf w.vd.val).val) (hf1 : o.key ≠ 32 + srcN w.f1) (s : State) :
    conflictAns w (o.inState s) = o.inAns (conflictAns w s) := by
  have hx : ∀ v t L, srcElem (o.inRegs v) t L w.f1 = srcElem v t L w.f1 := fun v t L => funext (srcElem_inRegs hf1 v t L)
  simp only [conflictAns, inState_me, inAgent_vec, inVec_regs, inVec_masks, hm _ _, evlOf_inState, lanesIn_inState, hx,
    hm.elementwise_inState hd, withUnits_done_inState]

end

theorem vcompress_onlyThose : ∀ w, OnlyThose (VOp.instr w .vcompress) :=
  onlyThose_of_source ⟨fun _ _ => rfl, fun _ => rfl, rfl⟩ ⟨fun _ => rfl, rfl, fun _ => rfl⟩ (fun _ => rfl) compressAns_inState

theorem vexpand_onlyThose : ∀ w, OnlyThose (VOp.instr w .vexpand) :=
  onlyThose_of_source ⟨fun _ _ => rfl, fun _ => rfl, rfl⟩ ⟨fun _ => rfl, rfl, fun _ => rfl⟩ (fun _ => rfl) expandAns_inState

theorem vconflict_onlyThose : ∀ w, OnlyThose (VOp.instr w .vconflict) :=
  onlyThose_of_source ⟨fun _ _ => rfl, fun _ => rfl, rfl⟩ ⟨fun _ => rfl, rfl, fun _ => rfl⟩ (fun _ => rfl) conflictAns_inState

/-! ### Counts, first indices and scans -/

/-- The counts of mask bits. -/
def countForms : List VOp := [.vpcnt, .vpcntInc]

/-- The segmented scans. -/
def scanForms : List VOp := [.vsscanAdd, .vsscanMin, .vsscanMax, .vsscanAnd, .vsscanOr, .vsscanXor]

section
variable {o : OtherReg} {w : VWord}

theorem pcntAns_inState {inc : Nat} (hm : SameMask o w) (hd : o.key ≠ 32 + (regOf w.vd.val).val) (h1 : o.key ≠ 64 + srcN w.f1 % 8)
    (hg : w.x.val = 1 → o.key ≠ srcN w.f2) (s : State) : pcntAns inc w (o.inState s) = o.inAns (pcntAns inc w s) := by
  have hbase : (if w.x.val = 1 then (rd (o.inState s) (xReg w)).toNat else 0) = if w.x.val = 1 then (rd s (xReg w)).toNat else 0 := by
    split
    · next hx => rw [rd_xReg_inState (hg hx)]
    · rfl
  simp only [pcntAns, hbase, inState_me, inAgent_vec, inVec_masks, hm _ _, maskBitOf_inMasks h1, hm.elementwise_inState hd,
    withUnits_done_inState]

theorem scanAns_inState {op : VOp} (hm : SameMask o w) (hd : o.key ≠ 32 + (regOf w.vd.val).val) (hf1 : o.key ≠ 32 + srcN w.f1)
    (h2 : o.key ≠ 64 + srcN w.f2 % 8) (s : State) : scanAns op w (o.inState s) = o.inAns (scanAns op w s) := by
  have hmode : modeAt (o.inState s) w = modeAt s w := rfl
  have hx : ∀ v t L, srcElem (o.inRegs v) t L w.f1 = srcElem v t L w.f1 := fun v t L => funext (srcElem_inRegs hf1 v t L)
  have hy : ∀ v t L, elemAt (o.inRegs v) t L w.vd.val = elemAt v t L w.vd.val := fun v t L => funext (elemAt_inRegs hd v t L)
  simp only [scanAns, hmode, inState_me, inAgent_vec, inVec_regs, inVec_masks, inVec_vstart, hm _ _, maskBitOf_inMasks h2,
    evlOf_inState, lanesIn_inState, hx, hy, data_inRegs hd]
  rw [← withUnits_done_inState]
  exact congrArg (fun v => withUnits (o.inState s) _ (.done (vfinish (o.inState s) v _))) (withData_inVec hd s.me.vec _)

/-- A g register written by a vector form. -/
theorem follows_gdone (s : State) (d : Nat) (x : Word) : o.Follows [d % 32] (gdone s d x) (gdone (o.inState s) d x) := by
  have hgdone : ∀ s, gdone s d x = .done (vfinish (wr s (regOf d) x) (wr s (regOf d) x).me.vec 0#5) := fun s => by simp [gdone]
  rw [hgdone, hgdone]
  exact OtherReg.Follows.of_wr (d := regOf d) (fun s => .done (vfinish s s.me.vec 0#5)) (fun _ _ => rfl) s x

end

theorem countForms_onlyThose : ∀ op ∈ countForms, ∀ w, OnlyThose (op.instr w) := by
  intro op hop
  obtain ⟨inc, hform⟩ : ∃ inc, InlineForm op (pcntAns inc) := by fin_cases hop <;> exact ⟨_, fun _ _ => rfl, fun _ => rfl, rfl⟩
  have hdest : ∀ w, destKeys op w = [placeKey w.vd.val] := by fin_cases hop <;> exact fun _ => rfl
  have hvd : vusesVd op = true := by fin_cases hop <;> rfl
  have hoperands : ∀ w, operandKeys op w = [64 + srcN w.f1 % 8] ++ if w.x.val = 1 then [srcN w.f2] else [] := by
    fin_cases hop <;> exact fun _ => rfl
  exact onlyThose_of_inAns hform fun o w s hs hok => pcntAns_inState hs.sameMask (hs.dest hok hvd (hdest w))
    (fun e => hs.operand (by simp [hoperands, e])) (fun hx e => hs.operand (by simp [hoperands, hx, e])) s

theorem scanForms_onlyThose : ∀ op ∈ scanForms, ∀ w, OnlyThose (op.instr w) := by
  intro op hop
  have hform : InlineForm op (scanAns op) := by fin_cases hop <;> exact ⟨fun _ _ => rfl, fun _ => rfl, rfl⟩
  have hdest : ∀ w, destKeys op w = [placeKey w.vd.val] := by fin_cases hop <;> exact fun _ => rfl
  have hvd : vusesVd op = true := by fin_cases hop <;> rfl
  have hfields : ∀ w, vsrcFields w op = [w.f1] := by fin_cases hop <;> exact fun _ => rfl
  have hoperands : ∀ w, operandKeys op w = [fieldKey w.f1, 64 + srcN w.f2 % 8] := by fin_cases hop <;> exact fun _ => rfl
  exact onlyThose_of_inAns hform fun o w s hs hok => scanAns_inState hs.sameMask (hs.dest hok hvd (hdest w))
    (hs.source hok (by simp [hfields]) (by simp [hoperands])) (fun e => hs.operand (by simp [hoperands, e])) s

theorem vfirst_onlyThose : ∀ w, OnlyThose (VOp.instr w .vfirst) := by
  refine onlyThose_node (k := firstAns) ⟨fun _ _ => rfl, fun _ => rfl, rfl⟩ fun o w s hs _ => ?_
  have hoperands : operandKeys .vfirst w = [64 + srcN w.f1 % 8] := rfl
  have h1 : o.key ≠ 64 + srcN w.f1 % 8 := fun e => hs.operand (by simp [hoperands, e])
  simp only [firstAns, inState_me, inAgent_vec, inVec_masks, inVec_vstart, evlOf_inState, hs.sameMask _ _, maskBitOf_inMasks h1]
  exact (follows_gdone s _ _).withUnits

/-! ### Single elements -/

theorem vextr_onlyThose : ∀ w, OnlyThose (VOp.instr w .vextr) := by
  refine onlyThose_node (k := extrAns) ⟨fun _ _ => rfl, fun _ => rfl, rfl⟩ fun o w s hs hok => ?_
  have hfields : vsrcFields w .vextr = [w.f1] := rfl
  have hoperands : operandKeys .vextr w = [fieldKey w.f1, srcN w.f2] := rfl
  have hf1 := hs.source hok (f := w.f1) (by simp [hfields]) (by simp [hoperands])
  have hg : o.key ≠ srcN w.f2 := fun e => hs.operand (by simp [hoperands, e])
  simp only [extrAns, rd_xReg_inState hg, inState_me, inAgent_vec, inVec_regs, evlOf_inState, lanesIn_inState, srcElem_inRegs hf1]
  exact (follows_gdone s _ _).withUnits

theorem vinsrt_onlyThose : ∀ w, OnlyThose (VOp.instr w .vinsrt) := by
  refine onlyThose_of_inAns (k := insrtAns) ⟨fun _ _ => rfl, fun _ => rfl, rfl⟩ fun o w s hs hok => ?_
  have hoperands : operandKeys .vinsrt w = [srcN w.f1, srcN w.f2] := rfl
  have hd := hs.dest hok rfl rfl
  have h1 : rd (o.inState s) (regOf (srcN w.f1)) = rd s (regOf (srcN w.f1)) :=
    rd_inState (fun e => hs.operand (by simp [hoperands, e, regOf_srcN])) s
  have h2 := rd_xReg_inState (o := o) (w := w) (fun e => hs.operand (by simp [hoperands, e])) s
  simp only [insrtAns, h1, h2, inState_me, inAgent_vec, inVec_regs, evlOf_inState, lanesIn_inState, data_inRegs hd]
  rw [← withUnits_done_inState]
  split
  · exact congrArg (fun v => withUnits (o.inState s) _ (.done (vfinish (o.inState s) v _))) (withData_inVec hd s.me.vec _)
  · rfl

end Machine
end Sys2Proof
end

section
/-! The matrix forms compute from their uses alone (spec/07_matrix.md R153-R161; spec/11_consistency.md R235). -/

namespace Sys2Proof
namespace Machine

/-! ### Accumulators hold no register -/

section
variable {o : OtherReg} {w : VWord}

theorem clearAcc_inVec (o : OtherReg) (v : VecState) (lanes tile row : Nat) (ns : List Nat) :
    clearAcc (o.inVec v) lanes tile row ns = o.inVec (clearAcc v lanes tile row ns) := by
  have hpacc : (o.inVec v).pacc = v.pacc := rfl
  simp only [clearAcc, hpacc]
  split <;> rfl

theorem clearTile_inVec (o : OtherReg) (v : VecState) (tile : Nat) : clearTile (o.inVec v) tile = o.inVec (clearTile v tile) :=
  List.foldl_hom o.inVec fun _ _ => rfl

@[simp] theorem accBody_inState (o : OtherReg) (s : State) : accBody (o.inState s) = accBody s := rfl

/-! ### Products -/

/-- The columns of a grant lie in the eight registers of the weight group (spec/07_matrix.md R154). -/
theorem weightReg_lt {c n : Nat} (hn : n ∈ List.range (8 * c)) : n / c < 8 :=
  Nat.div_lt_of_lt_mul (by rw [Nat.mul_comm]; exact List.mem_range.1 hn)

theorem mmaRow_inState (hm : SameMask o w) {areg wreg : Nat} (ha : o.key ≠ 32 + (regOf areg).val)
    (hb : ∀ j < 8, o.key ≠ 32 + (regOf (wreg + j)).val) (s : State) (t c tile : Nat) :
    mmaRow (o.inState s) t areg wreg c tile w = mmaRow s t areg wreg c tile w := by
  funext acc r
  have hcols : ∀ f g : BitVec 131072 × BitVec 5 → Nat → BitVec 131072 × BitVec 5,
      (∀ x, ∀ n ∈ List.range (8 * c), f x n = g x n) →
        ∀ x, (List.range (8 * c)).foldl f x = (List.range (8 * c)).foldl g x := fun f g h x => List.foldl_ext f g x h
  simp only [mmaRow]
  rw [hcols _ _ fun x n hn => ?_]
  have hw := hb _ (weightReg_lt hn)
  simp only [inState_me, inAgent_vec, inVec_regs, inVec_masks, lanesIn_inState, hm _ n, weight, weightScale,
    elemAt_inRegs ha, scaleAt_inRegs ha, elemAt_inRegs hw, scaleAt_inRegs hw]

theorem mmaAns_inState {g : Nat} (hm : SameMask o w) (ha : o.key ≠ 32 + (regOf (srcN w.f1)).val)
    (hb : ∀ j < 8, o.key ≠ 32 + (regOf (srcN w.f2 + j)).val) (s : State) : mmaAns g w (o.inState s) = o.inAns (mmaAns g w s) := by
  have hclear : ∀ (rows : List Nat) (v : VecState) L tile ns,
      rows.foldl (fun v row => clearAcc v L tile row ns) (o.inVec v) =
        o.inVec (rows.foldl (fun v row => clearAcc v L tile row ns) v) :=
    fun rows v L tile ns => List.foldl_hom o.inVec fun v row => clearAcc_inVec o v L tile row ns
  simp only [mmaAns, hm.activeOf_eq, mmaRow_inState hm ha hb, inState_me, inAgent_vec, inVec_vlLen, inVec_vstart, inVec_acc,
    lanesIn_inState]
  rw [← withUnits_done_inState, ← vfinish_inState, ← hclear]
  rfl

end

/-- The matrix products. -/
def productForms : List VOp := [.vmmaX1, .vmmaX2, .vmmaX4, .vmmaX8]

theorem productForms_onlyThose : ∀ op ∈ productForms, ∀ w, OnlyThose (op.instr w) := by
  intro op hop
  obtain ⟨g, hform⟩ : ∃ g, InlineForm op (mmaAns g) := by fin_cases hop <;> exact ⟨_, fun _ _ => rfl, fun _ => rfl, rfl⟩
  have hoperands : ∀ w, operandKeys op w = fieldKey w.f1 :: (if srcQ w.f3 then [fieldKey w.f3] else []) ++
      (List.range 8).map (fun k => placeKey (srcN w.f2 + k)) := by fin_cases hop <;> exact fun _ => rfl
  have hfields : ∀ w, w.f1 ∈ vsrcFields w op := by fin_cases hop <;> exact fun _ => List.mem_cons_self
  have hcheck : ∀ w, vcheck3 .inline w op = mmaOk .inline w := by fin_cases hop <;> exact fun _ => rfl
  refine onlyThose_of_inAns hform fun o w s hs hok => ?_
  have h3 := (checks_of_vfate hok).1
  rw [hcheck] at h3
  simp only [mmaOk, Bool.and_eq_true] at h3
  obtain ⟨⟨⟨-, hgroup⟩, -⟩, -⟩ := h3
  have ha := hs.source hok (hfields w) (by simp [hoperands])
  have hb := hs.group hgroup (by decide) fun j hj => by
    rw [hoperands]
    exact List.mem_append_right _ (List.mem_map_of_mem (List.mem_range.2 hj))
  exact mmaAns_inState hs.sameMask (by rwa [regOf_srcN]) hb s

/-! ### Rows of a tile, tiles of zeros and weights -/

theorem vaccrd_onlyThose : ∀ w, OnlyThose (VOp.instr w .vaccrd) := by
  refine onlyThose_of_inAns (k := accrdAns) ⟨fun _ _ => rfl, fun _ => rfl, rfl⟩ fun o w s hs hok => ?_
  have hd := hs.dest hok rfl rfl
  have hm := hs.sameMask
  simp only [accrdAns, accBody_inState, hm.activeOf_eq, hm.elemStep_eq, inState_me, inAgent_vec, inVec_regs, inVec_acc, lanesIn_inState,
    data_inRegs hd]
  rw [← withUnits_done_inState]
  exact congrArg (fun v => withUnits (o.inState s) _ (.done (vfinish (o.inState s) v _))) (withData_inVec hd s.me.vec _)

theorem vaccwr_onlyThose : ∀ w, OnlyThose (VOp.instr w .vaccwr) := by
  refine onlyThose_of_inAns (k := accwrAns) ⟨fun _ _ => rfl, fun _ => rfl, rfl⟩ fun o w s hs hok => ?_
  have hfields : vsrcFields w .vaccwr = [w.f1] := rfl
  have hf1 := hs.source hok (f := w.f1) (by simp [hfields]) (List.mem_append_left _ (by simp [hfields]))
  have hm := hs.sameMask
  simp only [accwrAns, accBody_inState, hm.activeOf_eq, inState_me, inAgent_vec, inVec_regs, inVec_masks, inVec_acc, lanesIn_inState,
    hm _ _, srcElem_inRegs hf1]
  rw [← withUnits_done_inState, ← vfinish_inState, ← clearAcc_inVec]
  rfl

theorem vaccz_onlyThose : ∀ w, OnlyThose (VOp.instr w .vaccz) :=
  onlyThose_of_inAns (k := acczAns) ⟨fun _ _ => rfl, fun _ => rfl, rfl⟩ fun o w s _ _ =>
    congrArg (fun v => Ans.done (vfinish (o.inState s) v 0#5)) (clearTile_inVec o s.me.vec w.vd.val)

theorem vwload_onlyThose : ∀ w, OnlyThose (VOp.instr w .vwload) :=
  onlyThose_of_inAns (k := fun w s => .done (setVec s { s.me.vec with latch := some (srcN w.f1) }))
    ⟨fun _ _ => rfl, fun _ => rfl, rfl⟩ fun _ _ _ _ _ => rfl

end Machine
end Sys2Proof
end

section
/-! Which registers an instruction computes from, and the litmus cases (spec/11_consistency.md R235, R253). -/

namespace Sys2Proof
namespace Machine

/-! ### The computing node words -/

theorem arithmeticForms_onlyThose : ∀ op ∈ arithmeticForms, ∀ w, OnlyThose (op.instr w) := by
  intro op hop
  have hfamily : op ∈ unaryForms ∨ op ∈ binaryForms ∨ op ∈ ternaryForms ∨ op = .vsel := by
    revert op
    decide
  rcases hfamily with h | h | h | rfl
  · exact unaryForms_onlyThose op h
  · exact binaryForms_onlyThose op h
  · exact ternaryForms_onlyThose op h
  · exact vsel_onlyThose

theorem convertForms_onlyThose : ∀ op ∈ convertForms, ∀ w, OnlyThose (op.instr w) := by
  intro op hop
  have hfamily : op ∈ unaryForms ∨ op ∈ reductionForms ∨ op = .vcvt ∨ op = .vpack ∨ op = .vunpack ∨ op = .vsget ∨ op = .vsput := by
    revert op
    decide
  rcases hfamily with h | h | rfl | rfl | rfl | rfl | rfl
  · exact unaryForms_onlyThose op h
  · exact reductionForms_onlyThose op h
  · exact vcvt_onlyThose
  · exact vpack_onlyThose
  · exact vunpack_onlyThose
  · exact vsget_onlyThose
  · exact vsput_onlyThose

theorem maskForms_onlyThose : ∀ op ∈ maskForms, ∀ w, OnlyThose (op.instr w) := by
  intro op hop
  have hfamily : op ∈ maskPairForms ∨ op ∈ maskCopyForms ∨ op ∈ maskFillForms := by
    revert op
    decide
  rcases hfamily with h | h | h
  · exact maskPairForms_onlyThose op h
  · exact maskCopyForms_onlyThose op h
  · exact maskFillForms_onlyThose op h

theorem permuteForms_onlyThose : ∀ op ∈ permuteForms, ∀ w, OnlyThose (op.instr w) := by
  intro op hop
  have hfamily : op ∈ gatherForms ∨ op ∈ slideForms ∨ op ∈ joinForms ∨ op ∈ countForms ∨ op ∈ scanForms ∨
      op = .vcompress ∨ op = .vexpand ∨ op = .vextr ∨ op = .vinsrt ∨ op = .vfirst ∨ op = .vconflict := by
    revert op
    decide
  rcases hfamily with h | h | h | h | h | rfl | rfl | rfl | rfl | rfl | rfl
  · exact gatherForms_onlyThose op h
  · exact slideForms_onlyThose op h
  · exact joinForms_onlyThose op h
  · exact countForms_onlyThose op h
  · exact scanForms_onlyThose op h
  · exact vcompress_onlyThose
  · exact vexpand_onlyThose
  · exact vextr_onlyThose
  · exact vinsrt_onlyThose
  · exact vfirst_onlyThose
  · exact vconflict_onlyThose

theorem matrixForms_onlyThose : ∀ op ∈ matrixForms, ∀ w, OnlyThose (op.instr w) := by
  intro op hop
  have hfamily : op ∈ productForms ∨ op = .vaccrd ∨ op = .vaccwr ∨ op = .vaccz ∨ op = .vwload := by
    revert op
    decide
  rcases hfamily with h | rfl | rfl | rfl | rfl
  · exact productForms_onlyThose op h
  · exact vaccrd_onlyThose
  · exact vaccwr_onlyThose
  · exact vaccz_onlyThose
  · exact vwload_onlyThose

theorem computeForms_onlyThose : ∀ op ∈ computeForms, ∀ w, OnlyThose (op.instr w) := by
  intro op hop
  simp only [computeForms, List.mem_append] at hop
  obtain ((((h | h) | h) | h) | h) | h := hop
  · exact arithmeticForms_onlyThose op h
  · exact convertForms_onlyThose op h
  · exact compares_onlyThose op h
  · exact maskForms_onlyThose op h
  · exact permuteForms_onlyThose op h
  · exact matrixForms_onlyThose op h

/-! ### Memory accesses -/

/-- The uses of a vector load or store, executed inline. -/
theorem usesOf_port {op : VOp} {w : VWord} (hport : (loadForm op || storeForm op) = true) (hnode : nodeOf (op.instr w) = some (op, w))
    (whole : Bool) :
    usesOf (op.instr w) (.inline whole) =
      { noUse with
        addr := (memUnits op w).filterMap (fun u => match u with
          | .g r => some r
          | _ => none) ++ (if indexForm op then [fieldKey (viFld w)] else []) ++ []
        data := (if storeForm op then [placeKey w.vd.val] else []) ++ []
        mask := maskKeys w
        reads := keptKeys (.inline whole) op w
        writes := destKeys op w ++ [] } := by
  simp only [usesOf, hnode, nodeUse, hport]
  rfl

/-- A masked word uses its mask register. -/
theorem mem_maskKeys {w : VWord} (h : maskReg w ≠ 0) : 64 + maskReg w ∈ maskKeys w := by
  simp [maskKeys, maskUnits, h, RegUnit.key]

theorem memoryUses : MemoryUses := by
  refine ⟨fun d a n i hi => ?_, fun b a n i hi => ?_, fun op w whole hop hnode => ?_⟩
  · fin_cases hi <;> exact ⟨rfl, rfl, rfl⟩
  · fin_cases hi <;> exact ⟨rfl, rfl, rfl⟩
  · have hport : (loadForm op || storeForm op) = true := by fin_cases hop <;> rfl
    have hstride : op ∈ [VOp.vldSt, .vstSt] → strideForm op = true := fun h => by fin_cases h <;> rfl
    have hstore : op ∈ stores → storeForm op = true := fun h => by fin_cases h <;> rfl
    have hload : op ∈ loads → destKeys op w = [placeKey w.vd.val] := fun h => by fin_cases h <;> rfl
    simp only [usesOf_port hport hnode, List.append_nil]
    refine ⟨by simp [memUnits], mem_maskKeys, fun h => ?_, fun h => ?_, fun h => ?_, fun h => ?_⟩
    · simp [memUnits, hstride h]
    · simp [h]
    · simp [hstore h]
    · simp [hload h]

/-! ### The litmus cases -/

theorem litmusScalar_asStated : ∀ r ∈ litmusScalar, outcomeAllowed r.1 r.2.1 = r.2.2 := by decide +kernel

theorem litmusScalarVector_asStated : ∀ r ∈ litmusScalarVector, outcomeAllowed r.1 r.2.1 = r.2.2 := by decide +kernel

theorem litmusVector_asStated : ∀ r ∈ litmusVector, outcomeAllowed r.1 r.2.1 = r.2.2 := by decide +kernel

theorem litmusTranslation_asStated : ∀ r ∈ litmusTranslation, outcomeAllowed r.1 r.2.1 = r.2.2 := by decide +kernel

/-- VV8: what B may read of two writes to one word, and what the word then holds. -/
theorem litmusVv8_asStated :
    outcomeAllowed (litVv8 2 1) [] = false ∧ outcomeAllowed (litVv8 1 2) [(litWord 0, 2)] = true ∧
      outcomeAllowed (litVv8 1 2) [(litWord 0, 1)] = false := by decide +kernel

/-- Settles O52: a value put into a register that an instruction does not compute from is carried along by all it does; the litmus cases
are evaluated. -/
theorem litmusOutcomesAndDependenciesAreAsStated : Obligations.LitmusOutcomesAndDependenciesAreAsStated :=
  ⟨scalarWordsUseTheirRegisters, computeForms_onlyThose, memoryUses, litmusScalar_asStated, litmusScalarVector_asStated,
    litmusVector_asStated, litmusTranslation_asStated, litmusVv8_asStated⟩

end Machine
end Sys2Proof
end

section
/-! `ecall`, `ebreak` and `xret` (spec/17_traps.md R407, R408): what posting a fault record leaves of the acting hart, how a hart
enters its handler or parks, and the return. -/

namespace Sys2Proof
namespace Machine

/-! ### Posting a record leaves the acting hart -/

/-- The acting agent and the table of records are as they were. -/
def SameHartAndRecords (s t : State) : Prop := t.me = s.me ∧ t.records = s.records

theorem SameHartAndRecords.trans {s t u : State} (h : SameHartAndRecords s t) (h' : SameHartAndRecords t u) :
    SameHartAndRecords s u :=
  ⟨h'.1.trans h.1, h'.2.trans h.2⟩

/-- A fold of operations that leave the acting agent and the records leaves them. -/
theorem foldl_sameHartAndRecords {α : Type} {f : State → α → State} {s : State} (l : List α)
    (hf : ∀ t x, t.me = s.me → SameHartAndRecords t (f t x)) : SameHartAndRecords s (l.foldl f s) :=
  List.foldlRecOn (motive := SameHartAndRecords s) l f ⟨rfl, rfl⟩ fun t ht x _ => ht.trans (hf t x ht.1)

theorem writePhys_sameHartAndRecords (s : State) (pa n v : Nat) : SameHartAndRecords s (writePhys s pa n v) := by
  unfold writePhys
  split <;> exact ⟨rfl, rfl⟩

theorem writeWords_sameHartAndRecords (s : State) (pa : Nat) (w : Vector Word 8) : SameHartAndRecords s (writeWords s pa w) :=
  foldl_sameHartAndRecords _ fun t _ _ => writePhys_sameHartAndRecords t _ _ _

@[simp] theorem putAgent_records (s : State) (a : Agent) : (putAgent s a).records = s.records := by
  unfold putAgent
  split <;> rfl

/-- The interrupt goes to a control core, which is not the acting hart. -/
theorem interruptCc_sameHartAndRecords {s : State} {h : HartId} (hid : s.me.id = .hart h) (n : Nat) :
    SameHartAndRecords s (interruptCc s n) :=
  ⟨putAgent_me (by simp [hid, agentOf_id]), putAgent_records s _⟩

theorem writeRecord_sameHartAndRecords {s : State} {h : HartId} (hid : s.me.id = .hart h) (t : Tenancy) (w : Vector Word 8) :
    SameHartAndRecords s (writeRecord s t w) := by
  have hring : ∀ pa pb v, SameHartAndRecords s (writePhys (writeWords s pa w) pb 8 v) := fun _ _ _ =>
    (writeWords_sameHartAndRecords s _ w).trans (writePhys_sameHartAndRecords _ _ _ _)
  exact (hring _ _ _).trans (foldl_sameHartAndRecords _ fun u n hu =>
    interruptCc_sameHartAndRecords (by rw [hu, (hring _ _ _).1, hid]) n)

/-- Each record that goes out is written to its ring, and its tenancy put back. -/
theorem flushRecords_sameHartAndRecords {s : State} {h : HartId} (hid : s.me.id = .hart h) (ten fuel : Nat) :
    SameHartAndRecords s (flushRecords ten fuel s) := by
  induction fuel generalizing s with
  | zero => exact ⟨rfl, rfl⟩
  | succ fuel ih =>
    simp only [flushRecords]
    split
    · exact ⟨rfl, rfl⟩
    · next w rest _ =>
      split
      · have hput : SameHartAndRecords s (putTen (writeRecord s (tenOf s ten) w) ten { tenOf s ten with waiting := rest }) :=
          writeRecord_sameHartAndRecords hid (tenOf s ten) w
        exact hput.trans (ih (by rw [hput.1, hid]))
      · exact ⟨rfl, rfl⟩

/-- A record that needs an answer is in the table with its token and its word 0 (spec/16_isolation.md R375), whether it has gone to
its ring or waits; the acting hart is as it was. -/
theorem postRecord_answerable {s : State} {h : HartId} (hid : s.me.id = .hart h) (ten : BitVec 6) (kind cause struct_ : Nat)
    (va who entry access : Word) (sub : Subject) {p : State × Nat}
    (hp : postRecord s ten kind cause struct_ va who entry access (some sub) = p) :
    p.1.me = s.me ∧ ∃ r ∈ p.1.records, r.token = p.2 ∧ r.ten = ten ∧ r.answered = none ∧
      r.words[0] = BitVec.ofNat 64 (p.2 * 2 ^ 32 + struct_ % 256 * 2 ^ 24 + cause % 256 * 2 ^ 16 + kind % 65536) := by
  have hflush := (flushRecords_sameHartAndRecords hid ten.toNat (tenOf s ten.toNat).waiting.length).1
  unfold postRecord at hp
  dsimp only at hp
  generalize flushRecords _ _ s = u at hp hflush
  have hword : ∀ (x : Word) l, (vec8 (x :: l))[0] = x := fun x l => by simp [vec8]
  split at hp
  · subst hp
    obtain ⟨hme, hrec⟩ := writeRecord_sameHartAndRecords (s := { putTen u _ _ with records := _ }) (hflush ▸ hid) _ _
    refine ⟨hme.trans hflush, ?_⟩
    rw [hrec]
    exact ⟨_, List.mem_append_right _ (List.mem_singleton_self _), rfl, rfl, rfl, hword _ _⟩
  · subst hp
    exact ⟨hflush, _, List.mem_append_right _ (List.mem_singleton_self _), rfl, rfl, rfl, hword _ _⟩

/-! ### Taking a trap on a hart (R391) -/

/-- Parking changes the status alone of the hart, and its record names the kind and the cause. -/
theorem park_posts {s : State} {h : HartId} (hid : s.me.id = .hart h) (t : Trap) (page : Bool) (hcause : t.cause < 256) :
    ∃ token, (park s h t page).me = { s.me with status := .parked token page } ∧
      ∃ r ∈ (park s h t page).records, r.token = token ∧ r.ten = s.me.ten ∧ r.answered = none ∧
        r.words[0].toNat % 2 ^ 16 = (if page then 1 else 2) ∧ r.words[0].toNat / 2 ^ 16 % 256 = t.cause := by
  obtain ⟨hme, r, hr, htoken, hten, hanswered, hword⟩ := postRecord_answerable hid s.me.ten (if page then 1 else 2) t.cause 0
    (recordVa t) (recordWho h 0 s.me.asid.toNat) (recordEntry s.me.task) (BitVec.ofNat 64 t.access)
    (if page then .hartPage h else .hartFault h) rfl
  refine ⟨_, by simp only [park, hme], r, hr, htoken, hten, hanswered, ?_⟩
  rw [hword, BitVec.toNat_ofNat]
  cases page <;> simp only [Bool.false_eq_true, if_true, if_false] <;> omega

section
variable {s : State} {h : HartId} {t : Trap} (hid : s.me.id = .hart h) (hcause : t.cause ≠ cPfault ∨ t.runrep = true)
include hid hcause

/-- A hart's trap, but a page fault that is no run report: the handler from U mode, an HFAULT record from S mode. -/
theorem takeTrap_noPageFault : takeTrap s t =
    if s.me.mode = .u then { s with me := enter s.me t .s (tenOf s s.me.ten.toNat).htvec } else park s h t false := by
  have hpage : ¬(t.cause = cPfault ∧ t.runrep = false) := by
    rintro ⟨hc, hr⟩
    simp [hc, hr] at hcause
  simp only [takeTrap, hid, hpage, if_false]

theorem takeTrap_userMode (hmode : s.me.mode = .u) :
    takeTrap s t = { s with me := enter s.me t .s (tenOf s s.me.ten.toNat).htvec } := by
  rw [takeTrap_noPageFault hid hcause, if_pos hmode]

theorem takeTrap_supervisorMode (hmode : s.me.mode = .s) : takeTrap s t = park s h t false := by
  rw [takeTrap_noPageFault hid hcause, if_neg (by simp [hmode])]

end

/-- Clearing the two lowest bits leaves a 4-byte aligned address. -/
theorem and_not_three_of_aligned {x : Word} (h : x.toNat % 4 = 0) : x &&& ~~~3#64 = x := by
  have hlow : x &&& 3#64 = 0#64 := BitVec.eq_of_toNat_eq (by
    rw [BitVec.toNat_and]
    exact (Nat.and_two_pow_sub_one_eq_mod _ 2).trans h)
  calc x &&& ~~~3#64 = x &&& 3#64 ||| x &&& ~~~3#64 := by rw [hlow, BitVec.zero_or]
    _ = x := by rw [← BitVec.and_or_distrib_left, BitVec.or_not_self, BitVec.and_allOnes]

/-! ### `ecall` and `ebreak` -/

/-- Both words trap, with their own cause and a value of zero. -/
theorem ecall_ebreak_traps (s : State) {i : Instr} {c : Nat} (hi : i = .ecall ∧ c = 16 ∨ i = .ebreak ∧ c = 17) :
    Traps i s c 0#64 := by
  rcases hi with ⟨rfl, rfl⟩ | ⟨rfl, rfl⟩ <;> rfl

/-- Settles O16: the trap is synchronous and no page fault, so that it enters the handler from U mode and parks the hart in S mode. -/
theorem ecallAndEbreakTrap : Obligations.EcallAndEbreakTrap := by
  intro s i c hi
  have htraps := ecall_ebreak_traps s hi
  obtain ⟨hbyte, hnoPage⟩ : c < 256 ∧ c ≠ cPfault := by
    simp only [cPfault]
    omega
  refine ⟨htraps, fun h hid hmode halign => ?_, fun h hid hmode => ?_⟩
  · refine ⟨_, htraps.trans (congrArg Host.Outcome.next (takeTrap_userMode hid (.inl hnoPage) hmode)), ?_⟩
    exact ⟨and_not_three_of_aligned halign, rfl, Nat.mod_eq_of_lt hbyte, rfl, rfl, rfl, rfl⟩
  · obtain ⟨token, hme, r, hr, htoken, -, -, hkind, hcause⟩ := park_posts hid (Trap.sync c 0#64) false hbyte
    exact ⟨_, token, htraps.trans (congrArg Host.Outcome.next (takeTrap_supervisorMode hid (.inl hnoPage) hmode)), hme, r, hr,
      htoken, hkind, hcause⟩

/-! ### `xret` (R408) -/

theorem xret_userMode {s : State} (hmode : s.me.mode = .u) : Traps .xret s cIllegal 0x60000002#64 := by
  show execXret s = _
  simp only [execXret, needS, hmode, if_true]
  rfl

/-- A return to a mode above the current one is `ILLEGAL`. -/
theorem xret_toHigherMode {s : State} (hmode : s.me.mode ≠ .u) (habove : s.me.mode.code < (modeOf s.me.pm).code) :
    Traps .xret s cIllegal 0x60000002#64 := by
  show execXret s = _
  simp only [execXret, needS, hmode, habove, if_true, if_false]
  rfl

/-- The state after what R338 does at the end of an `OVERRUN` handler. -/
def afterOverrun (s : State) : State := if isHart s.me && s.me.xcause == 15#8 && s.me.xasync then endOverrun s else s

/-- A return to the current mode or below is made from the state after R338, unless the hart's task has ended and its context stands
idle. -/
theorem xret_toAllowedMode {s : State} (hmode : s.me.mode ≠ .u) (hback : (modeOf s.me.pm).code ≤ s.me.mode.code) :
    exec .xret s = finish 4 (if isHart s.me && (afterOverrun s).me.status == .idle then .wait (afterOverrun s)
      else .jump { afterOverrun s with me := leave (afterOverrun s).me } (afterOverrun s).me.xpc) := by
  have hcause : (s.me.xcause.toNat == cOverrun) = (s.me.xcause == 15#8) := by
    rw [Bool.eq_iff_iff, beq_iff_eq, beq_iff_eq, ← BitVec.toNat_inj]
    rfl
  show execXret s = _
  simp only [execXret, needS, hmode, if_false, Nat.not_lt.2 hback, hcause]
  rfl

/-- Settles O17: `xret` is refused in U mode and above the current mode; else it returns from the state after R338, or waits there
where the task has ended. -/
theorem xretReturnsFromTheTrap : Obligations.XretReturnsFromTheTrap := by
  intro s
  refine ⟨xret_userMode, xret_toHigherMode, fun hmode hback hidle => ?_, fun hmode hback hhart hidle => ?_⟩
  · have hgoes : ¬(isHart s.me && (afterOverrun s).me.status == .idle) = true := fun h =>
      hidle ((Bool.and_eq_true_iff.1 h).imp_right eq_of_beq)
    exact (xret_toAllowedMode hmode hback).trans (congrArg (finish 4) (if_neg hgoes))
  · have hstays : (isHart s.me && (afterOverrun s).me.status == .idle) = true :=
      Bool.and_eq_true_iff.2 ⟨hhart, beq_iff_eq.2 hidle⟩
    exact (xret_toAllowedMode hmode hback).trans (congrArg (finish 4) (if_pos hstays))

end Machine
end Sys2Proof
end
